-- ==== Sys2Proof/Word.lean ====
section
/-! DEFINITION. The word types of the FN-40 model (spec/00_scope.md, Numbers and units; Bits, bytes and fields). -/
namespace Sys2Proof

/-- One byte. A multi-byte field is a list of bytes, the lowest offset first (R8). -/
abbrev Byte := BitVec 8
/-- A register, or a 32-bit header field (R11). -/
abbrev W32 := BitVec 32
/-- A 64-bit header field. -/
abbrev W64 := BitVec 64
/-- A 16-bit header field. -/
abbrev W16 := BitVec 16

/-- A sparse table: key and value pairs, keys strictly rising. -/
abbrev Table (α : Type) := List (Nat × α)

end Sys2Proof
end

