-- ==== Sys2Proof/Syntax.lean ====
section
/-! DEFINITION. The commands of the node: one constructor per row of spec/opcode_table.json, with its operands.
The rows carry no encoding bits, so an operand is what the row's rule says reaches the node: a command packet
(R363), an RDMA message (R446), a node-to-node message, a pin edge, or the name of the unit, request or timer
that an internal event concerns. -/
namespace Sys2Proof

/-- The command header, field by field (R363). -/
structure Hdr where
  version : BitVec 8 := 1
  hdrWords : BitVec 8 := 16
  opcode : W16 := 0
  flags : W16 := 0
  status : BitVec 8 := 0
  rsv7 : BitVec 8 := 0
  requestId : W64 := 0
  targetId : W64 := 0
  layer : W16 := 0
  deadlineUs : W16 := 0
  payloadLen : W32 := 0
  qpSeq : W32 := 0
  tenantEpoch : W32 := 0
  param0 : W64 := 0
  param1 : W64 := 0
  reason : W16 := 0
  rsv58 : W16 := 0
  hdrCrc : W32 := 0
deriving DecidableEq, Repr

/-- Where a command packet came from: a SEND on a QP (R463), or the management lane under an exchange number
(R719). -/
inductive Src where
  | qp (i : Nat)
  | lane (xid : W32)
deriving DecidableEq, Repr

/-- A command packet as it arrives: its source, header and payload, the bytes that an APPEND check-value
unit of the source QP has put after them (R626), and the packet sequence number of its SEND (R477). -/
structure Cmd where
  src : Src
  hdr : Hdr := {}
  payload : List Byte := []
  tail : List Byte := []
  psn : Nat := 0
deriving DecidableEq, Repr

/-- The QP on which a request arrives, and the PSN of its first packet (R461, R477). -/
structure QpPsn where
  qp : Nat
  psn : Nat
deriving DecidableEq, Repr

/-- An RDMA message received on a QP (R446, R448, R465, R467, R477): the packet sequence number of its first
packet, its address, key and length, whether every ICRC was right, and whether the opcode is one of R446. -/
structure RdmaMsg where
  qp : Nat
  psn : Nat
  addr : W64 := 0
  key : W32 := 0
  data : List Byte := []
  len : Nat := 0
  imm : Option W32 := none
  /-- packets of the message still to come after this step; 0 when the whole message has arrived -/
  more : Nat := 0
  icrcOk : Bool := true
  supported : Bool := true
  qpnOne : Bool := false
deriving DecidableEq, Repr

/-- The kinds of NAK a requester receives (R474, R478). -/
inductive NakKind where
  | sequence | remoteAccess | remoteOperational | invalidRequest
deriving DecidableEq, Repr

/-- The three causes of a tile failure (R226). -/
inductive TileFault where
  | sram | residue | test
deriving DecidableEq, Repr

/-- The two neighbours of a ring member (R317). -/
inductive Side where
  | predecessor | successor
deriving DecidableEq, Repr

/-- The two tiers that hold frames. -/
inductive Tier where
  | hot | warm
deriving DecidableEq, Repr

/-- A board or PLL condition reported with an event: the monitor's reading in the units of MONn (R697). -/
structure Reading where
  monitor : Nat
  value : Int
  /-- how long the reading has lain beyond its limit, in ms -/
  heldMs : Nat := 0
deriving DecidableEq, Repr

/-- The events and commands of the node. -/
inductive Instr where
  -- node commands
  | nodeQuery (c : Cmd)
  | nodeProfileLoad (c : Cmd)
  | fabricTableLoad (c : Cmd)
  | nodeServe (c : Cmd)
  | nodeDrain (c : Cmd)
  | roleSet (c : Cmd)
  | regRead (c : Cmd)
  | regWrite (c : Cmd)
  | blockEnable (c : Cmd)
  | blockDisable (c : Cmd)
  /-- the consistency check of a block ends -/
  | blockCheckDone (block : Nat)
  -- conversations
  | convOpen (c : Cmd)
  | convAppend (c : Cmd)
  /-- the RDMA WRITE with immediate: its QP and PSN, the window, the slot it addressed, the ticket, the payload
  bytes from slot offset 0 and the 32 trailer bytes -/
  | windowAppend (p : QpPsn) (window : W64) (slot : Nat) (ticket : W32) (payload trailer : List Byte)
  | gateRowPass (cid : Nat)
  | heldAppendPass (cid : Nat)
  | appendCommit (cid : Nat)
  | leaseExpiry (cid : Nat)
  | gapTimeout (cid : Nat) (append : Nat)
  | twinTimeout (cid : Nat) (append : Nat)
  | convSeal (c : Cmd)
  | convTruncate (c : Cmd)
  | convFork (c : Cmd)
  | convClose (c : Cmd)
  | convPin (c : Cmd)
  | convStat (c : Cmd)
  | convMoveOffer (c : Cmd)
  | convMoveAccept (c : Cmd)
  | convMoveCommit (c : Cmd)
  | moveProbeTimer (cid : Nat)
  | ownerProbeReply (cid : Nat) (owner committed : Bool) (epoch : Nat)
  | moveDeadline (cid : Nat)
  | convLease (c : Cmd)
  | extentMoveStart (cid first last dest : Nat)
  | extentMovePass (cid : Nat)
  | extentSourceRelease (cid first : Nat)
  -- attention
  | attnGraze (c : Cmd)
  | attnGrazeExact (c : Cmd)
  | attnCairn (c : Cmd)
  | grazeForward (c : Cmd)
  | continueForward (c : Cmd)
  | landingRecordPlace (p : QpPsn) (slot : Nat) (data : List Byte)
  | homePartialComplete (ctx : Nat)
  | resultRecordDone (ctx : Nat)
  | participantReply (ctx participant : Nat) (status : BitVec 8) (reason : W16) (param0 : W64)
  | grazeDeadline (ctx : Nat)
  | participantDeadline (ctx : Nat)
  | rowGroupAccept (tile : Nat)
  | tileDescriptor (tile : Nat)
  | tileClockStop (tile : Nat)
  | tileGate (tile : Nat)
  | tileFail (tile : Nat) (cause : TileFault)
  | spareBind (logical : Nat) (testPassed : Bool)
  | spareTest (tile : Nat) (testPassed : Bool)
  -- drift
  | attnDriftArm (c : Cmd)
  | driftBlockFrozen (slot : Nat)
  | driftPrepDone (slot : Nat)
  | driftReadyRecv (p : QpPsn) (message : List Byte)
  | driftReadyDeadline (slot : Nat)
  | driftBeatSend (slot : Nat)
  | driftBeatRecv (p : QpPsn) (message : List Byte)
  | driftBeatSilence (slot : Nat) (side : Side)
  | driftStepStart (slot : Nat)
  | driftBlockLand (qp : Nat) (imm : W32)
  | driftAccumDone (slot : Nat)
  | driftWindowClose (slot : Nat)
  | driftAbortRecv (p : QpPsn) (message : List Byte)
  | driftRelease (slot : Nat)
  | driftResultAcked (slot : Nat)
  | driftResultDeadline (slot : Nat)
  | driftAbortForget (ring : Nat) (takeover : Nat)
  -- results
  | resultFetch (c : Cmd)
  | resultRelease (c : Cmd)
  | recordKeepExpiry (subscriber : Nat) (requestId : W64)
  | layoutDefine (c : Cmd)
  | modifierLoad (c : Cmd)
  -- regions
  | regionCreate (c : Cmd)
  | regionRegister (c : Cmd)
  | regionRevoke (c : Cmd)
  | revokeComplete (sequence : Nat)
  | revokeDeadline (sequence : Nat)
  | regionPublish (c : Cmd)
  | publishCopyDone (publication : Nat)
  | publishTwinned (publication : Nat)
  | publishTimeout (publication : Nat)
  | regionAttach (c : Cmd)
  | regionDetach (c : Cmd)
  | attachLeaseExpiry (handle : Nat) (subscriber : Nat)
  | nearFill (c : Cmd)
  | nearCopy (c : Cmd)
  | nearCompare (c : Cmd)
  | nearReduce (c : Cmd)
  | nearCommandStart (sequence : Nat)
  | nearCommandDone (sequence : Nat)
  /-- the cut, with the 64-byte granules of the destination that already hold the new bytes -/
  | nearDeadlineCut (sequence : Nat) (written : List Nat)
  | prefixLookup (c : Cmd)
  | spillTargetAdd (c : Cmd)
  -- tiers
  | hotEvict
  | warmEvict
  | promoteStart (page : Nat)
  | moveSwitchPoint (page : Nat)
  | spillImageAck (page : Nat)
  | recallStart (page : Nat)
  | recallLanding (p : QpPsn) (ticket : W32) (image : List Byte)
  | recallTimeout (page : Nat)
  /-- the RDMA WRITE with immediate that brings the copy, or none when the copy's source has failed -/
  | repairCopyLand (page : Nat) (copy : Option RdmaMsg)
  | scrubPass (tier : Tier) (frame : Nat)
  -- transport
  | rdmaWriteRecv (m : RdmaMsg)
  | rdmaReadRecv (m : RdmaMsg)
  | twinWriteRecv (qp psn : Nat) (imm : W32) (offset : Nat) (data : List Byte)
  | rdmaAckRecv (qp psn : Nat)
  | rdmaNakRecv (qp psn : Nat) (kind : NakKind)
  | ackTimeout (qp : Nat)
  | rnrNakRecv (qp : Nat) (timerNs : Nat)
  | rnrTimerExpiry (qp : Nat)
  | qpsEstablish (c : Cmd)
  | qpsReset (c : Cmd)
  | cePacketRecv (qp : Nat)
  | cnpRecv (qp : Nat)
  | rateRecoveryPeriod (qp : Nat)
  | pauseFrameRecv (port priority : Nat) (pause : Bool)
  | pfcStormTimer (port priority : Nat)
  -- egress
  | egressFrameSelect (port : Nat)
  | gateEntryInstant (port : Nat)
  | gclChange (c : Cmd)
  | gclChangeEffect (port : Nat)
  -- twins and recovery
  | twinBind (c : Cmd)
  | twinResync (c : Cmd)
  | convPromotion (cid : Nat)
  | promotedPageHotMove (page : Nat)
  | healthRead (c : Cmd)
  | fence (c : Cmd)
  | ownerProbe (c : Cmd)
  | stampSend (partner : Nat)
  | stampRecv (p : QpPsn) (message : List Byte)
  | partnerSilence (partner : Nat)
  | standinOfferTimeout
  | resyncCopyAck (page : Nat)
  | poolFail (pool : Nat)
  /-- a millisecond ends; what the units below the packets have counted: codewords corrected on the cables in the last second, and
  retrains of links in the last minute that were no loss of a port's link -/
  | healthTick (fecPerS linkRetrains : Nat)
  | healthLowTimer
  | degradedRecover
  | guardWindowStart
  -- trust and tenancy
  | attest (c : Cmd)
  | tenantBegin (c : Cmd)
  | tenantEnd (c : Cmd)
  | zeroingDone
  | firmwareStage (c : Cmd)
  | firmwareActivate (c : Cmd)
  | firmwarePartitionDone (pool : Nat)
  | drainDone
  | setKeyUnwrap (c : Cmd)
  -- diagnostics and injection
  | diagInject (c : Cmd)
  | diagCounters (c : Cmd)
  | diagTrace (c : Cmd)
  | injArm (c : Cmd)
  | injDisarm (c : Cmd)
  | injBlockDisarm (c : Cmd)
  | injDelayExpiry (slot : Nat)
  | chkUnitEnable (c : Cmd)
  | evtPop (c : Cmd)
  -- power, clocks and start-up
  | pwrEnRise (input : Int)
  | pwrEnFall
  | resetAssert (lowNs : Nat)
  | resetRelease
  /-- what Bellwether found: its engines' self-tests, the PUF identity, the flash image and the profile -/
  | bellwetherRootingDone (selfTest identity image : Bool)
  /-- what training found: the tiles that passed, the stacks and packages trained, the ports with link, the
  network-on-chip links that failed, and the blocks whose self-test fails -/
  | trainingDone (tiles hbm packages ports badLinks badBlocks : List Nat)
  | startupBoundTimeout
  | frameInitDone
  | recoveryHello
  | recoveryChunk (message : List Byte)
  | pllLockLost (pll : Nat)
  | pllRelock (pll : Nat)
  /-- the monitors' readings, in the order of R692, and the input power in W -/
  | throttleStep (readings : List Int) (inputW : Nat)
  | envFence (reading : Reading)
  | envTrip (reading : Reading)
  | ptpSyncRecv (port : Nat) (offset : Int)
  | ppsEdge
  -- management lane
  | mgmtCmdPart (message : List Byte)
  | mgmtAckRecv (message : List Byte)
  | mgmtPartRetransmit (xid : W32)
  | mgmtReplyHoldExpiry (xid : W32)
  -- the remaining rows of the table
  | tileWake (tile : Nat)
  | portLinkLoss (port : Nat)
  | portLinkUp (port : Nat)
  | moveLegReply (cid : Nat) (status : BitVec 8) (reason : W16)
  | nearReduceReply (ctx : Nat) (status : BitVec 8) (reason : W16)
  /-- a repair fetch from another node: the page named by CID, layer, head and page index, and the frame the
  asking node has reserved -/
  | repairFetch (p : QpPsn) (cid layer head page : Nat) (frame : Nat)
deriving DecidableEq, Repr

end Sys2Proof
end

