-- ==== Sys2Proof/Decode.lean ====
section
/-! DEFINITION. The words of the command table. -/
namespace Sys2Proof

/-- The command that a word of the table spells. No row of spec/opcode_table.json gives encoding bits, so there is
none. -/
def decodeTableWord (_nbits _w : Nat) : Option Instr := none

end Sys2Proof
end

