-- ==== Sys2Proof/Config.lean ====
section
/-! DEFINITION. What the implementation fixes and what the manual leaves open: the sizes of the node, and the free
values. A free value is a constant with no body, so a claim holds whatever it is (log entries 4, 6 and 7). -/
namespace Sys2Proof.Config

/-- Hot frames: 192 GiB of 64 KiB frames (spec/00_scope.md, Headline figures; R161). -/
def hotFrames : Nat := 3145728
/-- Warm frames: 512 GiB of 64 KiB frames (R161). -/
def warmFrames : Nat := 8388608
/-- Bytes of a frame (R55). -/
def frameBytes : Nat := 65536
/-- Data bytes of a frame; the page tail follows (R55). -/
def dataBytes : Nat := 61440
/-- Physical tiles and logical tiles (R182, R188). -/
def tiles : Nat := 72
def logicalTiles : Nat := 64
/-- Queue pairs (R446 and the text before R452). -/
def qps : Nat := 16384
/-- Conversation-table entries of one pool (the text before R49). -/
def tablePerPool : Nat := 262144
/-- Request contexts of one pool (headline figures: 65,536 in each of four pools). -/
def contextsPerPool : Nat := 65536
/-- Trigger counters (R468). -/
def triggers : Nat := 65536
/-- Command records of one pool (R384). -/
def recordsPerPool : Nat := 131072
/-- Tokens a conversation may hold (R77). -/
def maxTokens : Nat := 4194304
/-- The largest pinned count (R164). -/
def pinLimit : Nat := 786432

/-- The choice the node makes where the manual names no rule for it: which free frame, key index, context or
trigger counter an allocation takes (log entry 4). The argument counts the choices made. -/
opaque choice : Nat → Nat
/-- An unstated value of 64 bits (log entry 4). -/
opaque freeWord : Nat → W64
/-- Bytes the manual leaves undefined or unformatted, such as a trace (R438) (log entry 4). -/
opaque freeBytes : Nat → List Byte

/-- What freeze, thaw and scores make of a BF16 code that is a NaN or an infinity, in units of 2^-133: the manual
refuses such elements in appends and queries and states nothing for them elsewhere (log entry 4). -/
opaque nonfinite : Nat → Int
/-- The page score of R310 where the sum of its two terms is no number: the manual states no order for a NaN (log
entry 4). The arguments are the two terms. -/
opaque cairnScore : Nat → Nat → W32

/-- Nominal voltages of the rails that monitors 2 to 8 watch, in units of 10 mV: the manual gives limits in percent and no
nominal value (R692; log entry 4). -/
opaque railNominal : Nat → Nat
/-- What the configuration registers of the firmware check-value units 0 to 23 read as, by unit and register: the manual
gives their uses and not their contents (R621; log entry 4). -/
opaque firmwareUnit : Nat → Nat → W32

/-- Fields of the packets the node sends that the manual leaves to the standards and to the network: identification, hop
limit, header checksum, flow label, and the message number of an acknowledgement (log entry 72). -/
opaque ipField : Nat → Nat

/-- The device secret of R643, reconstructed from the SRAM PUF. -/
opaque deviceSecret : List Byte
/-- The firmware image envelope and the PUF, certificates and ROM the module is delivered with (R645, R740). -/
opaque deliveredImage : List Byte
opaque certificates : List Byte
opaque romBytes : List Byte
opaque romVersion : W16
opaque rootDigest : List Byte
/-- The fresh R_e of the n-th rotation, drawn from the DRBG (R652). -/
opaque freshSecret : Nat → List Byte

/-- ML-DSA-65 (FIPS 204): public key of a seed; signature of a message under a seed and context; verification of
message and signature under a public key and context. Published standards, not restated by the manual (log 6). -/
opaque mlDsaPublic : List Byte → List Byte
opaque mlDsaSign : List Byte → List Byte → List Byte → List Byte
opaque mlDsaVerify : List Byte → List Byte → List Byte → List Byte → Bool
/-- The ML-DSA key of an X.509 certificate that the root of the given digest signed, if it is one (R646). -/
opaque certifiedKey : List Byte → List Byte → Option (List Byte)
/-- ML-KEM-768 (FIPS 203): encapsulation key of (d, z), and decapsulation. -/
opaque mlKemPublic : List Byte → List Byte
opaque mlKemDecap : List Byte → List Byte → List Byte
/-- AES-256-XTS of one 4 KiB block under a key pair and a tweak, and its inverse (R654, R659). -/
opaque xtsEncrypt : List Byte → Nat → List Byte → List Byte
opaque xtsDecrypt : List Byte → Nat → List Byte → List Byte
/-- AES-256-GMAC tag under a key and an IV (R655, R659). -/
opaque gmac : List Byte → Nat → List Byte → List Byte
/-- AES-256-GCM opening under key, IV, additional data, ciphertext and tag: the plaintext, or none (R669, R671). -/
opaque gcmOpen : List Byte → List Byte → List Byte → List Byte → List Byte → Option (List Byte)

end Sys2Proof.Config
end

