-- ==== Sys2Proof/Machine/Bytes.lean ====
section
/-! DEFINITION. Bytes and byte strings: little-endian fields (R8, R10), slices, the CRCs of R620, SHAKE256
(FIPS 202, spec/17_trust_and_tenancy.md), and the sparse tables of the state. -/
namespace Sys2Proof.Machine

/-! ## Sparse tables -/

/-- The entry of a key. -/
def Table.get {α : Type} (t : Table α) (k : Nat) : Option α :=
  match t with
  | [] => none
  | (k', v) :: rest => if k = k' then some v else Table.get rest k

/-- The entry of a key, or a default. -/
def Table.getD {α : Type} (t : Table α) (k : Nat) (d : α) : α := (Table.get t k).getD d

/-- Sets the entry of a key, keeping the keys rising. -/
def Table.set {α : Type} (t : Table α) (k : Nat) (v : α) : Table α :=
  match t with
  | [] => [(k, v)]
  | (k', v') :: rest =>
    if k = k' then (k, v) :: rest
    else if k < k' then (k, v) :: (k', v') :: rest
    else (k', v') :: Table.set rest k v

/-- Removes the entry of a key. -/
def Table.erase {α : Type} (t : Table α) (k : Nat) : Table α :=
  match t with
  | [] => []
  | (k', v) :: rest => if k = k' then Table.erase rest k else (k', v) :: Table.erase rest k

/-- Changes the entry of a key where there is one. -/
def Table.modify {α : Type} (t : Table α) (k : Nat) (f : α → α) : Table α :=
  match Table.get t k with
  | none => t
  | some v => Table.set t k (f v)

/-- Applies a function to every entry. -/
def Table.mapVals {α β : Type} (t : Table α) (f : Nat → α → β) : Table β :=
  t.map fun p => (p.1, f p.1 p.2)

/-- Bytes whose byte at an offset has its bit 0 inverted. -/
def flipAt (b : List Byte) (i : Nat) : List Byte :=
  b.take i ++ ((b[i]?).map fun x => x ^^^ 1).toList ++ b.drop (i + 1)

/-- Bytes that end in a CRC-32C, with bit 0 of that check value inverted, where a fault strikes (R634). -/
def struckCrc (struck : Bool) (b : List Byte) : List Byte := if struck then flipAt b (b.length - 4) else b

/-- Replaces the entry at a place of a list; no effect beyond its end. -/
def setAt {α : Type} (l : List α) (n : Nat) (v : α) : List α :=
  match l, n with
  | [], _ => []
  | _ :: rest, 0 => v :: rest
  | x :: rest, n + 1 => x :: setAt rest n v

/-- Changes the entry at a place of a list. -/
def modifyAt {α : Type} (l : List α) (n : Nat) (f : α → α) : List α :=
  match l, n with
  | [], _ => []
  | x :: rest, 0 => f x :: rest
  | x :: rest, n + 1 => x :: modifyAt rest n f

/-- Adds to a list without a repeat. -/
def addOnce {α : Type} [DecidableEq α] (l : List α) (x : α) : List α := if l.contains x then l else l ++ [x]

/-! ## Little-endian fields -/

/-- The w lowest bytes of a number, the lowest first (R8). -/
def le (w n : Nat) : List Byte :=
  match w with
  | 0 => []
  | w + 1 => BitVec.ofNat 8 n :: le w (n / 256)

/-- The number a byte string spells, the lowest byte first. -/
def leNat : List Byte → Nat
  | [] => 0
  | b :: rest => b.toNat + 256 * leNat rest

/-- `len` bytes of a string from a byte offset. -/
def slice (bs : List Byte) (off len : Nat) : List Byte := (bs.drop off).take len

/-- The field of `len` bytes at a byte offset (R10). -/
def fieldAt (bs : List Byte) (off len : Nat) : Nat := leNat (slice bs off len)

/-- A string of n zero bytes. -/
def zeros (n : Nat) : List Byte := List.replicate n 0

/-- Whether every byte is zero. -/
def allZero (bs : List Byte) : Bool := bs.all (· == 0)

/-- Whether the bytes of a range are all zero: the check of a reserved field. -/
def zeroAt (bs : List Byte) (off len : Nat) : Bool := allZero (slice bs off len)

/-- Rounds up to a multiple. -/
def roundUp (n m : Nat) : Nat := (n + m - 1) / m * m

/-- Zero-pads to a multiple of 16 bytes (R258, R280). -/
def pad16 (bs : List Byte) : List Byte := bs ++ zeros (roundUp bs.length 16 - bs.length)

/-- Divides rounding up. -/
def ceilDiv (a b : Nat) : Nat := (a + b - 1) / b

/-- Bits hi down to lo of a number (R7). -/
def bits (n hi lo : Nat) : Nat := n / 2 ^ lo % 2 ^ (hi + 1 - lo)

/-- Bit n of a number (R7). -/
def bit (n i : Nat) : Bool := n.testBit i

/-- One bit of a register. -/
def flagAt (b : Bool) (n : Nat) : Nat := if b then 2 ^ n else 0

/-- The signed value of an n-bit two's-complement number. -/
def toSigned (w n : Nat) : Int := if n < 2 ^ (w - 1) then (n : Int) else (n : Int) - 2 ^ w

/-- The w-bit two's-complement number of a signed value. -/
def ofSigned (w : Nat) (i : Int) : Nat := (i % (2 ^ w : Nat)).toNat

/-- Whether a number is a power of two between two bounds. -/
def isPow2In (n lo hi : Nat) : Bool := n ≥ lo && n ≤ hi && n == 2 ^ n.log2

/-- Splits a string into pieces of n bytes. -/
def chunks (n : Nat) (bs : List Byte) : List (List Byte) :=
  (List.range (ceilDiv bs.length n)).map fun k => slice bs (n * k) n

/-! ## CRC (R620) -/

/-- The w low bits of a number in reverse order. -/
def reflect (v w : Nat) : Nat :=
  (List.range w).foldl (fun acc i => if v.testBit i then acc + 2 ^ (w - 1 - i) else acc) 0

/-- One bit step of a reflected CRC. -/
def crcBitR (poly crc : Nat) : Nat := if crc % 2 = 1 then Nat.xor (crc / 2) poly else crc / 2

/-- One byte of a reflected CRC; `poly` is already reflected. -/
def crcByteR (poly crc b : Nat) : Nat := Nat.repeat (crcBitR poly) 8 (Nat.xor crc b)

/-- One bit step of a CRC that is not reflected. -/
def crcBitN (poly w crc : Nat) : Nat :=
  if crc.testBit (w - 1) then Nat.xor (2 * crc) poly % 2 ^ w else 2 * crc % 2 ^ w

/-- One byte of a CRC that is not reflected. -/
def crcByteN (poly w crc b : Nat) : Nat := Nat.repeat (crcBitN poly w) 8 (Nat.xor crc (b * 2 ^ (w - 8)))

/-- The CRC of R620 with width, polynomial, initial value, reflection and final inversion. -/
def crc (w poly init : Nat) (reflected invert : Bool) (bs : List Byte) : Nat :=
  let start := if reflected then reflect init w else init
  let rp := reflect poly w
  let out := bs.foldl (fun c b => if reflected then crcByteR rp c b.toNat else crcByteN poly w c b.toNat) start
  if invert then Nat.xor out (2 ^ w - 1) else out

/-- CRC-32C (R620). -/
def crc32c (bs : List Byte) : Nat :=
  Nat.xor (bs.foldl (fun c b => crcByteR 0x82F63B78 c b.toNat) 0xFFFFFFFF) 0xFFFFFFFF

/-- The CRC-64 of R133. -/
def crc64 (bs : List Byte) : Nat :=
  Nat.xor (bs.foldl (fun c b => crcByteR 0xC96C5795D7870F42 c b.toNat) 0xFFFFFFFFFFFFFFFF) 0xFFFFFFFFFFFFFFFF

/-! ## SHAKE256 -/

/-- Rotation of a 64-bit lane to the left. -/
def rotl64 (x n : Nat) : Nat := (x * 2 ^ n) % 2 ^ 64 + x / 2 ^ (64 - n)

/-- The offset of each lane 5y + x, along the walk (x, y) -> (y, 2x + 3y) of FIPS 202 from lane (1, 0): its k-th lane turns by the
k-th triangular number, and lane (0, 0), which the walk leaves out, by none. -/
def keccakTurns : List Nat :=
  ((List.range 24).foldl (fun (acc : List Nat × Nat × Nat) k =>
    let (turns, x, y) := acc
    (setAt turns (5 * y + x) ((k + 1) * (k + 2) / 2 % 64), y, (2 * x + 3 * y) % 5)) (List.replicate 25 0, 1, 0)).1

/-- One step of the shift register that gives the bits of the round constants: x^8 + x^6 + x^5 + x^4 + 1. -/
def keccakShift (r : Nat) : Nat := if 2 * r < 256 then 2 * r else Nat.xor (2 * r) 0x171

/-- The next round constant from the state of the register: bit 2^j - 1 is the register's j-th bit; and the register after it. -/
def keccakConst (r : Nat) : Nat × Nat :=
  (List.range 7).foldl (fun (acc : Nat × Nat) j => (acc.1 + acc.2 % 2 * 2 ^ (2 ^ j - 1), keccakShift acc.2)) (0, r)

/-- One round of Keccak-f[1600] on 25 lanes, lane 5y + x. -/
def keccakRound (a : List Nat) (rc : Nat) : List Nat :=
  let g := fun i => a.getD i 0
  let c := (List.range 5).map fun x => Nat.xor (Nat.xor (Nat.xor (g x) (g (x + 5))) (Nat.xor (g (x + 10)) (g (x + 15)))) (g (x + 20))
  let d := (List.range 5).map fun x => Nat.xor (c.getD ((x + 4) % 5) 0) (rotl64 (c.getD ((x + 1) % 5) 0) 1)
  let t := (List.range 25).map fun i => rotl64 (Nat.xor (g i) (d.getD (i % 5) 0)) (keccakTurns.getD i 0)
  -- lane (x, y) moves to (y, 2x + 3y): the lane at (X, Y) comes from x = X + 3Y, y = X
  let b := (List.range 25).map fun i =>
    let x := i % 5
    let y := i / 5
    t.getD (5 * x + (x + 3 * y) % 5) 0
  let e := (List.range 25).map fun i =>
    let x := i % 5
    let y := i / 5
    Nat.xor (b.getD i 0) (Nat.land (Nat.xor (b.getD (5 * y + (x + 1) % 5) 0) (2 ^ 64 - 1)) (b.getD (5 * y + (x + 2) % 5) 0))
  match e with
  | [] => []
  | e0 :: rest => Nat.xor e0 rc :: rest

/-- Keccak-f[1600]: 24 rounds, each under the next constant of the register that starts at 1. -/
def keccakF (a : List Nat) : List Nat :=
  ((List.range 24).foldl (fun (acc : List Nat × Nat) _ =>
    let (rc, r) := keccakConst acc.2
    (keccakRound acc.1 rc, r)) (a, 1)).1

/-- Absorbs one block of 136 bytes. -/
def shakeAbsorb (st : List Nat) (block : List Byte) : List Nat :=
  keccakF ((List.range 25).map fun i => Nat.xor (st.getD i 0) (if i < 17 then fieldAt block (8 * i) 8 else 0))

/-- The padded message of SHAKE256. -/
def shakePad (m : List Byte) : List Byte :=
  let r := 136 - m.length % 136
  if r = 1 then m ++ [0x9F] else m ++ [0x1F] ++ zeros (r - 2) ++ [0x80]

/-- The first n bytes of the SHAKE256 output, n at most 136. -/
def shake256 (n : Nat) (m : List Byte) : List Byte :=
  let st := (chunks 136 (shakePad m)).foldl shakeAbsorb (List.replicate 25 0)
  (((st.take 17).map (le 8)).flatten).take n

/-- S(x): the first 256 bits of SHAKE256 (spec/17_trust_and_tenancy.md). -/
def sha (m : List Byte) : List Byte := shake256 32 m
/-- S512(x). -/
def sha512 (m : List Byte) : List Byte := shake256 64 m
/-- The first 64 bits of the SHAKE256 digest, as a little-endian number (R215, R329, R408). -/
def digest64 (m : List Byte) : W64 := BitVec.ofNat 64 (leNat (shake256 8 m))

/-- An ASCII string as bytes, without terminator. -/
def ascii (t : String) : List Byte := t.toList.map fun ch => BitVec.ofNat 8 ch.toNat

end Sys2Proof.Machine
end

