-- ==== Sys2Proof/Machine/State.lean ====
section
/-! DEFINITION. The state of one node, as plain data: everything the manual gives the module, and the queue of the
commands that wait. INVENTORY.md lists each field with its rule and its reset value. Instants are in ns of Rime
time unless a field says PTP. -/
namespace Sys2Proof.Machine

/-- Why a step stops. -/
inductive Fault where
  /-- Raised by SCRUB_PASS for a frame number outside its tier: the manual gives the tier no such frame. Safe. -/
  | noSuchFrame
deriving DecidableEq, Repr

/-- Why a command has no meaning. -/
inductive Refusal where
  /-- Raised by an arm of exec that has no meaning yet. Safe. -/
  | notModelled (mnemonic : String)
deriving DecidableEq, Repr

/-- Node states (R399). -/
inductive NodeState where
  | off | rooting | training | configurable | serving | degraded | fenced | recovery
deriving DecidableEq, Repr

/-- Power states (R675). -/
inductive PowerState where
  | off | standby | active
deriving DecidableEq, Repr

/-- Node roles (R399, R587). -/
inductive Role where
  | cache | spare | twinOnly
deriving DecidableEq, Repr

/-- Block states (R20). -/
inductive BlockState where
  | disabled | checking | enabled | refused
deriving DecidableEq, Repr

/-- What the node keeps of a command from its arrival to its reply. -/
structure CmdCtx where
  src : Src
  subscriber : Nat
  opcode : W16
  requestId : W64
  targetId : W64
  layer : W16
  qpSeq : W32
  arrival : Nat
  deadline : Nat
  noKeep : Bool := false
  epoch : Nat := 0
  /-- bytes the command holds in the command buffer (R603) -/
  bufBytes : Nat := 0
  pool : Nat := 0
  /-- the connection of its QP on which it came (R479) -/
  conn : Nat := 0
  /-- false for node-to-node messages that take no record (R288) -/
  recorded : Bool := true
  /-- the one reply has been given, at the deadline; what the command began goes on (R367, R598) -/
  answered : Bool := false
  /-- the command waits at its gate row for a recall or a repair, and the stall has been counted (R178) -/
  stalled : Bool := false
deriving DecidableEq, Repr

/-- The common registers of one block (R702-R705, R633). -/
structure Block where
  enable : Bool := false
  st : BlockState := .disabled
  reason : Nat := 0
  /-- what the checks found at the write of ENABLE; 0 when every check passed (R706) -/
  verdict : Nat := 0
  uncorrected : Bool := false
  poison : Bool := false
  checkFail : Bool := false
  watchdog : Bool := false
  injected : Bool := false
  /-- bits of ERR_SUM that hardware has set in the cycle `freshAt`, which no write of that cycle clears (R18) -/
  fresh : List Nat := []
  freshAt : Nat := 0
  corrected : Nat := 0
  /-- the REG_WRITE that has set ENABLE and is answered when the checks end (R416) -/
  waiter : Option CmdCtx := none
deriving DecidableEq, Repr

/-- An event record of the ERR block (R630). -/
structure Event where
  time : Nat
  block : Nat
  injected : Bool := false
  rimeTime : Bool := true
  reason : Nat
  detail : Nat := 0
  /-- the cycle of Rime time in which it was raised, and its block ID and injection point: events of one cycle stand in their
  order (R629) -/
  cycle : Nat := 0
  place : Nat := 0
deriving DecidableEq, Repr

/-- Pins of J2 that carry state (R728, R730). -/
structure Pins where
  pwrEn : Bool := true
  resetN : Bool := true
  /-- true while the open-drain output is driven low -/
  alertLow : Bool := false
deriving DecidableEq, Repr

/-- Time bases and PLLs (R679-R685, R697). -/
structure Clocks where
  rime : Nat := 0
  ptp : Nat := 0
  offset : Int := 0
  locked : Bool := false
  goodSyncs : Nat := 0
  master : Nat := 0
  lastPps : Option Nat := none
  pll : List Bool := List.replicate 8 false
  pllLost : List (Option Nat) := List.replicate 8 none
  rimeLatch : Nat := 0
deriving DecidableEq, Repr

/-- Power, throttle and environment (R675-R678, R692-R698). -/
structure Power where
  state : PowerState := .active
  level : Nat := 0
  beyond : Nat := 0
  inputW : Nat := 0
  mons : List Int := List.replicate 16 0
  lastStep : Nat := 0
  tripped : Bool := false
  tripEvent : Option Event := none
deriving DecidableEq, Repr

/-- Recovery listening (R649). -/
structure Recovery where
  reason : Nat
  next : Nat := 0
  total : Nat := 0
  image : List Byte := []
  lastHello : Option Nat := none
deriving DecidableEq, Repr

/-- Start-up (R686-R691). -/
structure Startup where
  /-- instant at which the present start-up state was entered, or MOD_RESET_N released -/
  since : Nat := 0
  poweredAt : Nat := 0
  /-- a release of MOD_RESET_N came too early and is held (R687) -/
  releaseHeld : Bool := false
  missedBound : Bool := false
  selfTestFailed : Bool := false
  frameInitDone : Bool := false
  stacksTrained : List Nat := []
  packagesTrained : List Nat := []
  fabricLinksFailed : List Nat := []
  blocksBad : List Nat := []
  recovery : Option Recovery := none
deriving DecidableEq, Repr

/-- The node profile in effect (R406, R650). -/
structure Profile where
  grade : Nat
  nodeId : Nat
  portMode : Nat
  confidential : Bool
  pfc : Bool
  ppsTime : Bool
  fabricId : W64
  envelope : List Byte
deriving DecidableEq, Repr

/-- A node entry and a ring entry of the fabric table (R408). -/
structure FabricNode where
  id : Nat
  domain : Nat
  role : Role
  mobile : Bool
  twin : Nat
  twin2 : Nat
  address : BitVec 128
  mac : BitVec 48
  qpBase : Nat
deriving DecidableEq, Repr
structure Ring where
  id : Nat
  members : List Nat
deriving DecidableEq, Repr

/-- The loaded fabric table (R408). -/
structure Fabric where
  version : Nat
  managers : List (BitVec 128)
  freeSpares : Nat
  fabricId : W64
  nodes : List FabricNode
  rings : List Ring
  digest : W64
  bytes : List Byte
deriving DecidableEq, Repr

/-- A drain in progress or a unit drained (R412). -/
structure Drain where
  scope : Nat
  unit : Nat
  running : Bool
deriving DecidableEq, Repr

/-- What a tenant's admission has set (R664-R670). -/
structure Tenant where
  epoch : Nat
  blockBytes : List Byte
  listBytes : List Byte
  setId : W64
  entries : List (List Byte)
  secret : List Byte
  setKey : Option (List Byte) := none
deriving DecidableEq, Repr

/-- Bellwether (R642-R671) and the firmware images. -/
structure Trust where
  rotation : Nat := 1
  /-- the rotation whose keys Bellwether has written into the memory controllers, 0 for none (R36) -/
  memoryKeys : Nat := 1
  reports : List (List Byte) := []
  reportSeq : Nat := 0
  tenant : Option Tenant := none
  lastEpoch : Nat := 0
  /-- zeroing of the last TENANT_END or of start-up still runs until this instant (R442, R690) -/
  zeroing : Option Nat := none
  /-- a TENANT_END that has been accepted, and the instant of its reply (R667) -/
  ending : Option (CmdCtx × Nat) := none
  spillCount : Nat := 0
  flashImage : Option (List Byte) := none
  flashProfile : Option (List Byte) := none
  runningImage : Option (List Byte) := none
  fwVersion : Nat := 0
  staged : List Byte := []
  stagedLen : Nat := 0
  verified : Bool := false
  /-- pools still to be updated by FIRMWARE_ACTIVATE -/
  activating : List Nat := []
  /-- what is staged came after the activation began (R443) -/
  restaged : Bool := false
  trace : Bool := false
  /-- the counters were zeroed in this cycle, whose events are not counted (R714) -/
  counterZeroing : Bool := false
deriving DecidableEq, Repr

/-- The identity of the node: profile, table, role, drains (R404-R414). -/
structure Node where
  state : NodeState := .rooting
  role : Role := .cache
  profile : Option Profile := none
  /-- confidential mode; set at once, cleared only by a start-up (R651) -/
  confidential : Bool := false
  fabric : Option Fabric := none
  twinBound : Option Nat := none
  partnerDigest : Option W64 := none
  drains : List Drain := []
  /-- the NODE_SERVEs that wait for the checks of the blocks (R711) -/
  serving : List CmdCtx := []
deriving DecidableEq, Repr

/-- The staging registers of R454. -/
structure QpStage where
  index : Nat := 0
  remoteQpn : Nat := 0
  sqPsn : Nat := 0
  /-- the oldest unacknowledged PSN (R473) -/
  sqUna : Nat := 0
  rqPsn : Nat := 0
  addr0 : W32 := 0
  addr1 : W32 := 0
  addr2 : W32 := 0
  addr3 : W32 := 0
  mac0 : W32 := 0
  mac1 : W32 := 0
  attr : W32 := 0
  ring0 : W32 := 0
  ring1 : W32 := 0
  ringKey : W32 := 0
  ringSlots : Nat := 0
deriving DecidableEq, Repr

/-- One check-value unit (R622, R623). -/
structure ChkUnit where
  cfg : W32 := 0x00200000
  poly : W64 := 0
  init : W64 := 0
  result : W64 := 0
  aliveExp : W32 := 0
  latch : W32 := 0
deriving DecidableEq, Repr

/-- One injection slot (R636). -/
structure InjSlot where
  busy : Bool := false
  kind : Nat := 0
  block : Nat := 0
  point : Nat := 0
  count : Nat := 0
  done : Nat := 0
  delay : W32 := 0
  /-- instant at which the armed slot starts to fire; reached when `live` -/
  due : Nat := 0
  live : Bool := false
deriving DecidableEq, Repr

/-- Writable registers that are one value each (R52, R159, R160, R187, R221, R263, R293, R391, R392, R549, R550,
R594, R596, R619, R631, R697), at their reset values. -/
structure Regs where
  hotReserve : Nat := 0
  hotEvictStart : Nat := 65536
  hotEvictStop : Nat := 131072
  hotGrowMark : Nat := 8192
  promoteOnRead : Bool := true
  ageTickUs : Nat := 1000
  scrubHot : Bool := true
  scrubWarm : Bool := true
  scrubHotH : Nat := 24
  scrubWarmH : Nat := 24
  twinReserve : Nat := 65536
  warmEvictStart : Nat := 131072
  warmEvictStop : Nat := 262144
  warmAdmitMark : Nat := 65536
  gateAfterUs : Nat := 200
  stopAfterNs : Nat := 500
  width : Nat := 64
  minWidth : Nat := 0
  poolMap : List Nat := [0, 1, 2, 3]
  returnMarginNs : Nat := 3000
  keepMs : Nat := 20
  resultFrames : Nat := 16384
  camCtl : W32 := 0x5555
  attachLeaseMs : Nat := 1000
  silentUs : Nat := 1000
  guardWindowMs : Nat := 10000
  fenceThreshold : Nat := 300
  alertEn : Bool := true
  pwrCap : Nat := 1400
  fabricWeight : Nat := 0
  svc : List W32 := [0x00000000, 0x08000000, 0x10000000, 0x18000000, 0x20000000, 0x28000000, 0x2E000000, 0x30000000]
  subWeight : Table Nat := []
  gclPort : Nat := 0
  gclIndex : Nat := 0
  stage : QpStage := {}
  chk : Table ChkUnit := []
  inj : List InjSlot := List.replicate 16 {}
  /-- latched upper halves of 64-bit counters, by block and counter number (R713) -/
  latches : Table Nat := []
deriving DecidableEq, Repr

/-- A layout record (R58). -/
structure Layout where
  tpp : Nat
  kvHeads : Nat
  headDim : Nat
  keyFormat : Nat
  valueFormat : Nat
  latent : Bool
  cairn : Bool
  latentRank : Nat
  ropeDims : Nat
  layers : Nat
deriving DecidableEq, Repr

/-- A modifier program record (R203) and its tag (R215). -/
structure Modifier where
  ops : List W32 := []
  vectorMask : Nat := 0
  scalars : List W32 := []
  vectors : List (List W32) := []
  bias : Option (List W32) := none
  tag : W64 := 0
deriving DecidableEq, Repr

/-- A reply as posted (R363, R373). -/
structure Reply where
  opcode : W16
  requestId : W64
  targetId : W64
  layer : W16
  qpSeq : W32
  epoch : Nat
  status : Nat
  reason : Nat
  param0 : W64
  param1 : W64
  flagRepeat : Bool := false
  resultTarget : W64 := 0
  resultKey : W32 := 0
  result : List Byte := []
deriving DecidableEq, Repr

/-- An append (R68, R69, R377). `ctx` is the command of a CONV_APPEND; `window` and `slot` of a window append. -/
structure Append where
  uid : Nat
  cid : Nat
  qp : Nat
  window : W64 := 0
  slot : Nat := 0
  ticket : W32 := 0
  ctx : Option CmdCtx := none
  token : Nat
  layer : Nat
  layerCount : Nat
  allLayers : Bool
  segment : Nat
  crc : W32
  payload : List Byte
  arrival : Nat
  conn : Nat := 0
  passedAt : Nat := 0
  /-- its freeze waits for a hot frame, and the stall has been counted (R178) -/
  stalled : Bool := false
  /-- twin writes of the append not yet acknowledged (R38) -/
  unacked : Nat := 0
deriving DecidableEq, Repr

/-- What waits in a gate row (R63). -/
inductive RowItem where
  | cmd (c : Cmd) (ctx : CmdCtx)
  | append (a : Append)
deriving DecidableEq, Repr

/-- Conversation states (R66). -/
inductive ConvState where
  | free | opened | sealed | moving | lost
deriving DecidableEq, Repr

/-- An extent of the extent map: a node and a range of logical page indices (R48, R428). -/
structure Extent where
  node : Nat
  first : Nat
  last : Nat
deriving DecidableEq, Repr

/-- A move of ownership in progress (R423-R427). -/
structure Move where
  dest : Nat
  epoch : Nat
  former : ConvState
  requester : Option CmdCtx
  lastSent : Nat
  accepted : Bool := false
  replied : Bool := false
  /-- at the destination: installed by a leg from this node -/
  incoming : Bool := false
deriving DecidableEq, Repr

/-- An extent move under way (R48, R743): before its pass, and after it until the source is released. -/
structure ExtentMove where
  /-- the number under which its page copies are acknowledged -/
  id : Nat := 0
  first : Nat
  last : Nat
  dest : Nat
  passed : Bool := false
  /-- page copies sent to the node; it takes and twins them before it acknowledges them -/
  copies : Nat := 0
  /-- contexts that passed the gate before the move -/
  waitFor : List Nat := []
deriving DecidableEq, Repr

/-- The place of a page in its conversation. -/
structure PageKey where
  layer : Nat
  head : Nat
  index : Nat
deriving DecidableEq, Repr

/-- A conversation-table entry. -/
structure Conv where
  pool : Nat
  /-- the node this entry names as home -/
  home : Nat
  state : ConvState := .opened
  layout : Nat
  committed : List Nat
  passed : List Append := []
  held : List Append := []
  row : List RowItem := []
  lease : Option Nat := none
  leaseExpiry : Nat := 0
  /-- QPs that have lost the lease and have not yet been told (R85) -/
  lostLease : List Nat := []
  crcs : List (List (Nat × W32)) := []
  epoch : Nat := 0
  extents : List Extent := []
  outlying : List Nat := []
  attached : List W64 := []
  prefixHandle : Option W64 := none
  /-- the length that an attached prefix gives once its copies are twinned (R535) -/
  prefixTokens : Nat := 0
  /-- pages of the conversation at this node -/
  pages : List (PageKey × Nat) := []
  twin : Option Nat := none
  selfFenced : Bool := false
  promoting : Bool := false
  move : Option Move := none
  extentMoves : List ExtentMove := []
  /-- committed to being home under a move whose COMMIT has been sent (R426) -/
  moveCommitted : Bool := true
  lastTwinWrite : Nat := 0
deriving DecidableEq, Repr

/-- Page states of the directory (R144); FREE is the absence of an entry. -/
inductive PageState where
  | resident | moving | spilled | poisoned
deriving DecidableEq, Repr
/-- Kinds of move (R144-R151). -/
inductive MoveKind where
  | promote | evictHot | evictWarm | refetch | repair
deriving DecidableEq, Repr

/-- A spill slot in use (R167, R659). -/
structure SpillAt where
  target : Nat
  slot : Nat
  generation : Nat
  count : Nat
deriving DecidableEq, Repr

/-- A directory entry (R140-R153). -/
structure Page where
  cid : Nat
  layout : Nat
  key : PageKey
  tier : Tier
  frame : Nat
  state : PageState := .resident
  moveKind : Option MoveKind := none
  targetTier : Tier := .warm
  targetFrame : Nat := 0
  queued : Option MoveKind := none
  touch : Nat := 0
  pinnedBy : List Nat := []
  /-- conversations and versions that refer to the page -/
  refs : Nat := 1
  /-- requests that hold a reference (R56) -/
  users : List Nat := []
  isSealed : Bool := false
  fill : Nat := 0
  /-- saturated elements of each row position (R119) -/
  sats : Table Nat := []
  version : Option W64 := none
  twinNode : Option Nat := none
  twinFrame : Nat := 0
  /-- the second twin of a G3 shared page (R175, R516) -/
  twin2Node : Option Nat := none
  twin2Frame : Nat := 0
  spill : Option SpillAt := none
  /-- the page has left its frame for a spill slot: `frame` names none of its own (R140, R169) -/
  noFrame : Bool := false
  /-- moveStarted: instant at which the move in progress or the recall began -/
  moveStarted : Nat := 0
  /-- an open page promoted under R572 that stays warm for want of a hot frame -/
  awaitsHot : Bool := false
  /-- the page is to be sealed at this fill once its repair has ended, its frame having been unreadable then; and the append,
  by CID and number, that waits for the tail at the twin (R40, R134, R174) -/
  sealDue : Option (Nat × Option (Nat × Nat)) := none
deriving DecidableEq, Repr

/-- What a frame is used for. -/
inductive FrameUse where
  | page (pid : Nat)
  /-- left behind by a switch point until the tiles have consumed the descriptors that name it (R142) -/
  | leaving
  | region (id : W64)
  | twinCopy (owner index : Nat)
  | grant (owner index : Nat)
  | drift (slot : Nat)
  | result
  | stagedImage
  | repairTarget (pid : Nat)
  | retired
deriving DecidableEq, Repr

/-- A spill target (R166, R437). -/
structure SpillTarget where
  qp : Nat
  bufferAddr : W64
  bufferKey : W32
  slots : Nat
  landingAddr : W64
  landingKey : W32
  landingSlots : Nat
  used : List Nat := []
  generations : Table Nat := []
  landingGen : Table Nat := []
  /-- landing slot and page of the recalls under way -/
  recalls : List (Nat × Nat) := []
  recallTimes : List Nat := []
deriving DecidableEq, Repr

/-- The metadata areas of the two tiers (R655 to R657). A block is named by its byte address / 4096. -/
structure Protect where
  /-- WRITE_COUNT of each 4 KiB block, since the last zeroing -/
  writes : Table Nat := []
  /-- the FRAME_GEN under which each block was last written, and so its tweak and the IV of its tag -/
  gens : Table Nat := []
  /-- update counters of the inner nodes of the two counter trees -/
  updates : Table Nat := []
deriving DecidableEq, Repr

/-- The frames, pages, words in error and spill targets (spec/04, spec/16). -/
structure Tiers where
  mem : List Host.Cell := []
  protect : Protect := {}
  hot : Table FrameUse := []
  warm : Table FrameUse := []
  hotGen : Table Nat := []
  warmGen : Table Nat := []
  /-- error patterns of stored 288-bit words, by byte address / 32 (R610) -/
  flips : Table (BitVec 288) := []
  pages : Table Page := []
  nextPage : Nat := 0
  hotEvicting : Bool := false
  warmEvicting : Bool := false
  /-- instants of the frames moved by each evictor (R165) -/
  hotMoves : List Nat := []
  warmMoves : List Nat := []
  targets : Table SpillTarget := []
  kept : Nat := 0
deriving DecidableEq, Repr

/-- The integer partial of one query row (R235). -/
structure Partial where
  n : List Int
  l : Nat := 0
  count : Nat := 0
  valueSat : Bool := false
  nanScore : Bool := false
deriving DecidableEq, Repr

/-- The pass a request runs (R287). -/
inductive Pass where
  | sum | scoreOnly | cairnScore | continued
deriving DecidableEq, Repr

/-- The graze block, parsed (R279, R280). -/
structure Graze where
  tokens : Nat
  format : Nat
  heads : Nat
  mode : Nat
  scale : W32
  anchor : Int
  anchorForm : Nat
  modSlot : Nat
  rotation : Nat
  rotDims : Nat
  absorb : W64
  target : W64
  key : W32
  resultLen : Nat
  cairnK : Nat
  cairnSink : Nat
  cairnWeight : W32
  qpos : List Nat
  qseg : List Nat
  anchors : List Int
  rotationBlock : List Byte
  query : List Byte
deriving DecidableEq, Repr

/-- A participant of a request, as the home sees it (R252). -/
structure Participant where
  node : Nat
  first : Nat
  last : Nat
  replied : Bool := false
  placed : Bool := false
  forwardedAt : Nat := 0
  /-- OK replies received: a participant of two passes sends two (R291) -/
  oks : Nat := 0
deriving DecidableEq, Repr

/-- A row group of a request or drift pass: the rows of one KV head (R197). -/
structure Group where
  head : Nat
  lo : Nat
  hi : Nat
deriving DecidableEq, Repr

/-- A page descriptor (R57), with the page it names. -/
structure Descriptor where
  pid : Nat
  tier : Tier
  frame : Nat
  frameGen : Nat
  firstToken : Nat
  index : Nat
  layer : Nat
  head : Nat
  layout : Nat
  valid : Nat
  isSealed : Bool
  last : Bool
  shared : Bool
  ctx : Nat
  seq : Nat
  issued : Nat
  /-- it has been consumed before, at a tile that failed (R228): a late read of it has been counted (R178) -/
  seen : Bool := false
deriving DecidableEq, Repr

/-- A gated piece of work in a tile's queue: a row group with its descriptors (R224, R225). -/
structure Work where
  ctx : Nat
  drift : Bool
  pair : Nat
  group : Group
  descs : List Descriptor
  arrival : Nat
  /-- query store slot at its tile (R57) -/
  qstore : Nat := 0
  accepted : Bool := false
  sums : List Partial := []
  maxima : List W32 := []
  done : Nat := 0
deriving DecidableEq, Repr

/-- What an acknowledgement of a message stands for. -/
inductive Tag where
  | none
  | append (cid uid : Nat)
  | twinRecord (wait : Nat)
  | spill (pid : Nat)
  | resync (pid : Nat)
  | publish (pub : Nat)
  | driftBlock (slot step : Nat)
  | driftResult (slot : Nat)
  | forward (ctx participant : Nat)
  | hostRecord (ctx : Nat)
  | prefixCopy (cid : Nat) (wait : Nat)
  | extent (cid id : Nat)
  | freed (partner : Nat) (frames : List Nat)
  | moveRecord (cid : Nat)
  | twin (partner : Nat)
deriving DecidableEq, Repr

/-- A trigger counter (R468). -/
structure Trigger where
  count : Nat := 0
  threshold : Nat
  /-- the sends and write chains that it triggers, by what their acknowledgement is for; at most four -/
  work : List Tag := []
deriving DecidableEq, Repr

/-- A request context (R285), at the home or at a participant. -/
structure Req where
  pool : Nat
  cmd : CmdCtx
  exact : Bool
  cairn : Bool
  cid : Nat
  layer : Nat
  layout : Nat
  snapshot : Nat
  graze : Graze
  modTag : W64
  modifier : Modifier
  anchors : List Int
  pass : Pass
  /-- staged query rows as element codes (R193-R195), their format and length -/
  rows : List (List Byte) := []
  rowFormat : Nat := 0
  rowLen : Nat := 0
  outstanding : Nat := 0
  partials : List Partial := []
  maxima : List W32 := []
  /-- the larger of the row maxima that the participants' SCORE_MAX records have brought -/
  landedMax : List W32 := []
  candidates : List (List (Nat × W32)) := []
  ownDone : Bool := false
  /-- this node's own record of a REGION or HOST request has been sent and not yet acknowledged -/
  ownSent : Bool := false
  /-- the node that holds the region to which it has been sent (R296) -/
  ownAt : Option Nat := none
  parts : List Participant := []
  mask : Nat := 0
  trigger : Option Trigger := none
  combined : List Partial := []
  compact : List (W32 × W32 × List W32) := []
  triggeredAt : Nat := 0
  deadline : Nat := 0
  /-- the highest final score of the summing pass so far, and its lowest row (R246) -/
  high : Option (W32 × Nat) := none
  /-- the highest score of the breaches that participants have reported in this cycle (R247) -/
  breachHigh : Option (W32 × Nat) := none
  /-- records that have landed and wait for those of lower participants of their cycle: participant, slot's participant, bytes (R270) -/
  held : List (Nat × Nat × List Byte) := []
  stalls : List Nat := []
  versions : List W64 := []
  /-- at a participant: home node, participant number, landing slot, subscriber at the home -/
  home : Nat := 0
  participant : Nat := 0
  participants : Nat := 1
  landing : Nat := 0
  subscriber : Nat := 0
  pageFirst : Nat := 0
  pageEnd : Nat := 0
  isForward : Bool := false
  readyForResult : Bool := false
  waitsContinue : Bool := false
  minWidth : Nat := 0
  /-- TILESET_CTL.WIDTH at the gate pass (R221) -/
  width : Nat := 64
  /-- logical tiles with the pair that each serves in the pass in hand (R224) -/
  served : List (Nat × Nat) := []
deriving DecidableEq, Repr

/-- Tile roles (R189). -/
inductive TileRole where
  | active | spare | failed | untested
deriving DecidableEq, Repr
/-- Tile power states (R185). -/
inductive TilePower where
  | run | clockStop | gated | off
deriving DecidableEq, Repr

/-- A physical tile (R182-R190). -/
structure Tile where
  role : TileRole := .untested
  power : TilePower := .off
  logical : Option Nat := none
  corrected : Nat := 0
  idleSince : Nat := 0
  wakeDue : Option Nat := none
  queue : List Work := []
  /-- instant of a spare's last known-answer test (R232) -/
  lastTest : Nat := 0
deriving DecidableEq, Repr

/-- A logical tile's binding and a substitution under way (R188, R227). -/
structure Logical where
  phys : Nat
  valid : Bool := false
  substitute : Option Nat := none
  /-- work of the failed tile, to be issued again (R228) -/
  abandoned : List Work := []
deriving DecidableEq, Repr

/-- The tiles, the requests and their means (spec/05, spec/07). -/
structure Attn where
  tiles : List Tile := List.replicate 72 {}
  logicals : List Logical := (List.range 64).map fun n => { phys := n }
  layouts : Table Layout := []
  modifiers : Table Modifier := []
  reqs : Table Req := []
  nextCtx : Nat := 0
  triggersUsed : Nat := 0
  /-- layout and time of the last 1,024 pages processed (R305) -/
  pageTimes : List (Nat × Nat) := []
  releaseTimes : List Nat := []
  replyTimes : Table (List Nat) := []
deriving DecidableEq, Repr

/-- States of a drift slot (R361). -/
inductive DriftState where
  | idle | armed | ready | running | holding | writing | aborted
deriving DecidableEq, Repr

/-- A drift pass in a ring slot (R317-R361). -/
structure Drift where
  state : DriftState := .idle
  cmd : Option CmdCtx := none
  ring : Nat := 0
  layer : Nat := 0
  members : Nat := 0
  member : Nat := 0
  layout : Nat := 0
  modSlot : Nat := 0
  modifier : Modifier := {}
  format : Nat := 0
  heads : Nat := 0
  scale : W32 := 0
  anchors : List Int := []
  anchorForm : Nat := 0
  mode : Nat := 0
  takeover : Nat := 0
  digest : W64 := 0
  queryRegion : W64 := 0
  queryOffset : Nat := 0
  tokens : Nat := 0
  blockRegion : W64 := 0
  blockOffset : Nat := 0
  windowUs : Nat := 0
  absorb : W64 := 0
  target : W64 := 0
  key : W32 := 0
  durations : List Nat := []
  blocks : List (Nat × Nat) := []
  qpos : List Nat := []
  qseg : List Nat := []
  rows : List (List Byte) := []
  rowFormat : Nat := 0
  rowLen : Nat := 0
  frames : List Nat := []
  /-- frames of this member's own block, and of its two landing buffers -/
  block : List Nat := []
  landingFrames : List (List Nat) := []
  frozen : Bool := false
  sentReady : Bool := false
  readyPred : Bool := false
  readySucc : Bool := false
  landingAddr : W64 := 0
  landingStride : W64 := 0
  landingKey : W32 := 0
  /-- key index and base address of this member's own landing buffers (R336, R482) -/
  ownKey : Nat := 0
  ownBase : W64 := 0
  beatSent : Nat := 0
  beatPred : Nat := 0
  beatSucc : Nat := 0
  step : Nat := 0
  accumulated : Nat := 0
  minWidth : Nat := 0
  /-- steps whose block send has been posted, has left, and whose landing has been verified -/
  sends : List Nat := []
  sent : List Nat := []
  verified : List Nat := []
  sums : List Partial := []
  /-- the block of the step in hand has been issued to the tiles, and the pieces of work not yet emitted -/
  accIssued : Bool := false
  accLeft : Nat := 0
  resultsLeft : Nat := 0
  port : Nat := 0
  /-- the highest final score that the tiles have computed for the pass, and its lowest row (R246) -/
  high : Option (W32 × Nat) := none
  /-- trigger counters of the block sends, by step (R339, R468) -/
  counters : List Trigger := []
deriving DecidableEq, Repr

/-- A remembered abort (R359). -/
structure AbortMemo where
  ring : Nat
  takeover : Nat
  reason : Nat
  param0 : W64
  param1 : W64
  at_ : Nat
deriving DecidableEq, Repr

/-- States of a region (R514). -/
inductive RegionState where
  | live | closing | loading | published | poisoned
deriving DecidableEq, Repr

/-- A mutable region (R433, R515). -/
structure Region where
  window : Bool
  tier : Tier
  slotBytes : Nat := 0
  slots : Nat := 0
  length : Nat
  qp : Nat := 0
  frames : List Nat
  owner : Nat
  state : RegionState := .live
  /-- expected generation of each slot (R69) -/
  generations : Table Nat := []
  base : W64 := 0
  closer : Option CmdCtx := none
deriving DecidableEq, Repr

/-- A published version (R522-R539). -/
structure Version where
  digest : List Byte
  content : Nat
  length : Nat
  /-- directory entries of the content's frames, in order; and those of them that are the pages of PREFIX_PAGES -/
  frames : List Nat
  pages : List Nat := []
  state : RegionState := .loading
  conversations : List Nat := []
  /-- subscriber attachments with their expiry -/
  subscribers : Table Nat := []
  users : List Nat := []
  unackedTwin : Nat := 0
  layout : Nat := 0
  tokens : Nat := 0
  chunk : Nat := 0
  modelId : W64 := 0
  tokenIds : List Byte := []
  /-- bank of the version's CAM entry -/
  cam : Option Nat := none
  base : W64 := 0
deriving DecidableEq, Repr

/-- A publication in progress (R523). -/
structure Publication where
  ctx : CmdCtx
  name : W64
  content : Nat
  wrapped : Bool
  bytes : List Byte
  copied : Bool := false
  /-- the new version that it made, once decided -/
  handle : Option W64 := none
  /-- hot frames and twin frames that it holds (R601) -/
  frames : List Nat := []
  grants : List (Nat × Nat) := []
deriving DecidableEq, Repr

/-- A registered key (R482, R483). -/
structure Key where
  region : W64
  write : Bool
  read : Bool
deriving DecidableEq, Repr

/-- A key at its revoke point (R485): its remote key and entry, the revocation, and the cycle of Rime time. -/
structure LateKey where
  number : Nat
  entry : Key
  sequence : Nat
  cycle : Nat
deriving DecidableEq, Repr

/-- A revocation under way (R485-R487). -/
structure Revoke where
  sequence : Nat
  ctx : Option CmdCtx
  region : W64
  /-- the key revoked, generation and all -/
  number : Nat
  /-- QPs whose admitted messages must end -/
  waits : List Nat
deriving DecidableEq, Repr

/-- Near-memory commands (R520, R541). -/
inductive NearKind where
  | fill (pattern : List Byte) | copy (src : W64) (srcOff : Nat) | compare (src : W64) (srcOff : Nat) | reduce (record : List Byte)
deriving DecidableEq, Repr
structure Near where
  ctx : CmdCtx
  kind : NearKind
  region : W64
  offset : Nat
  length : Nat
  running : Bool := false
  /-- the request whose own record the command adds to a region of this node (R296) -/
  own : Option Nat := none
deriving DecidableEq, Repr

/-- Regions, keys, publication, near-memory work and the CAM (spec/13). -/
structure Regions where
  regions : Table Region := []
  versions : Table Version := []
  names : Table Nat := []
  pubs : Table Publication := []
  nextPub : Nat := 0
  keys : Table Key := []
  keyGens : Table Nat := []
  revokes : Table Revoke := []
  revokeSeq : Nat := 0
  /-- keys revoked last, which a first packet of that cycle still passes (R485) -/
  lateKeys : List LateKey := []
  near : Table Near := []
  nearSeq : Nat := 0
  /-- region-group commands that wait at their arbiter for those that go ahead of them in their cycle (R519) -/
  waiting : List (Cmd × CmdCtx) := []
deriving DecidableEq, Repr

/-- One transport operation of a message (R446, R447). -/
inductive WireOp where
  | send (bytes : List Byte)
  | write (addr : W64) (key : W32) (bytes : List Byte) (imm : Option W32)
  | readResponse (bytes : List Byte)
  | ack (psn : Nat)
  | nak (psn : Nat) (kind : NakKind)
  | rnrNak (psn timerNs : Nat)
  | cnp
  /-- a reply: REPLY_SEQ, OUTSTANDING, and the address and key of its ring slot; 0 on a NODE QP (R373, R374) -/
  | reply (r : Reply) (seq outstanding : Nat) (addr : W64) (key : W32)
  | datagram (bytes : List Byte)
  | vote (bytes : List Byte)
  /-- a packet that would carry poison, sent with its ICRC inverted (R617) -/
  | badIcrc (bytes : Nat)
deriving DecidableEq, Repr

/-- A message posted to the egress scheduler (R494, R496). `held` names the trigger that must fire first. -/
structure Msg where
  uid : Nat
  qp : Nat
  cls : Nat
  ops : List WireOp
  bytes : Nat
  /-- frames that have left -/
  sent : Nat := 0
  psn : Option Nat := none
  /-- PSN of the first response packet of an RDMA READ -/
  respPsn : Nat := 0
  tag : Tag := .none
  held : Bool := false
  posted : Nat := 0
  /-- the drift slot and step whose window the send must lie in (R339) -/
  drift : Option (Nat × Nat) := none
  /-- the next frame has been counted in GATE_FIT_HOLD (R506) -/
  fitHeld : Bool := false
deriving DecidableEq, Repr

/-- QP kinds and states (R453, R455). -/
inductive QpKind where
  | host | spill | node
deriving DecidableEq, Repr
inductive QpState where
  | reset | rts | err
deriving DecidableEq, Repr

/-- Where a write lands: a mutable region, a landing buffer of a drift pass (its slot), or the twin window that this node
exposes to another (R465, R555). -/
inductive WriteTarget where
  | region (id : W64)
  | drift (slot : Nat)
  | twin (owner : Nat)
deriving DecidableEq, Repr

/-- An admitted message of which packets are still to come (R484): its key index, where it lands, the offset of its next
byte, and the offset and length of the whole. -/
structure Admitted where
  key : Option Nat
  target : WriteTarget
  next : Nat
  off : Nat
  len : Nat
  imm : Option W32
deriving DecidableEq, Repr

/-- A queue pair (R452-R492). -/
structure Qp where
  kind : QpKind := .host
  state : QpState := .reset
  /-- how often the QP has left RTS: work accepted before then has lost its way back (R478, R479) -/
  conn : Nat := 0
  errorReason : Nat := 0
  remoteQpn : Nat := 0
  remoteAddr : BitVec 128 := 0
  mac : BitVec 48 := 0
  dscp : Nat := 0
  service : Nat := 0
  mtu : Nat := 1024
  timeoutExp : Nat := 0
  subscriber : Nat := 0
  ringAddr : W64 := 0
  ringKey : W32 := 0
  slots : Nat := 16
  sqPsn : Nat := 0
  /-- the oldest unacknowledged PSN (R473) -/
  sqUna : Nat := 0
  rqPsn : Nat := 0
  expectedSeq : Nat := 0
  /-- QP_SEQ of the next command that the node itself sends on a NODE QP (R368) -/
  sentSeq : Nat := 0
  replySeq : Nat := 0
  outstanding : Nat := 0
  /-- messages sent and not acknowledged, oldest first -/
  unacked : List Msg := []
  retries : Nat := 0
  /-- consecutive timeouts: k of R473 -/
  timeouts : Nat := 0
  rnrRetries : Nat := 0
  rnrUntil : Option Nat := none
  lfsr : Nat := 1
  timeoutAt : Option Nat := none
  reads : Nat := 0
  /-- the keys of the RDMA READs admitted and not yet answered, oldest first (R484, R486) -/
  readKeys : List Nat := []
  /-- a message was cut by a revocation, and its next packet is still to be answered (R487) -/
  cut : Bool := false
  /-- a NAK of sequence error has been sent for the present gap (R477) -/
  nakSent : Bool := false
  admitted : Option Admitted := none
  lastCnpSent : Option Nat := none
  rc : Nat := 0
  rt : Nat := 0
  alpha : Nat := 1024
  stage : Nat := 0
  periodStart : Nat := 0
  /-- instant from which the rate RC allows the next frame (R490, R501) -/
  nextAt : Nat := 0
deriving DecidableEq, Repr

/-- A gate control list (R505). -/
structure GateList where
  entries : List (Nat × Nat) := [(255, 1000000)]
  base : Nat := 0
  cycle : Nat := 1000000
deriving DecidableEq, Repr

/-- A data port (R494-R509). -/
structure Port where
  link : Bool := false
  /-- the link was up before; and the instants of the last 60 s at which it was up again (R440) -/
  lost : Bool := false
  retrains : List Nat := []
  drained : Bool := false
  oper : GateList := {}
  /-- administrative list and its staging (R510) -/
  admin : List (Nat × Nat) := List.replicate 64 (255, 1000000)
  adminLen : Nat := 1
  adminBase : Nat := 0
  adminCycle : Nat := 1000000
  pendingList : Option (GateList × Nat) := none
  /-- drift entries: instant, open, slot -/
  drift : List (Nat × Bool × Nat) := []
  paused : List (Nat × Nat) := []
  /-- priorities that this node has paused at its link partner (R491) -/
  rxPaused : List Nat := []
  /-- priorities whose pause frames are disregarded until an instant (R492) -/
  ignoring : Table Nat := []
  /-- shaper credit of each class in units of 1/16,000 bit, and the instant of its last update -/
  credit : Table Int := []
  creditAt : Table Nat := []
  /-- subscriber deficits by class * 8192 + subscriber -/
  deficit : Table Nat := []
  lastSub : Table Nat := []
  lastQp : Table Nat := []
  /-- drift class open now -/
  driftOpen : Bool := false
  /-- the end of the frame that is being sent -/
  busyUntil : Nat := 0
deriving DecidableEq, Repr

/-- A frame or datagram that has left the node, or that is ready to leave. `headers` are its bytes before the payload, `payload` the
bytes it carries, `icrc` the ICRC of a RoCEv2 packet (R9, R447, R449, R450, R497). -/
structure Sent where
  port : Nat
  qp : Nat
  cls : Nat
  msg : Nat
  bytes : Nat
  last : Bool
  ops : List WireOp
  headers : List Byte := []
  payload : List Byte := []
  icrc : List Byte := []
  posted : Nat := 0
  /-- it has been counted in GATE_FIT_HOLD (R506) -/
  fitHeld : Bool := false
deriving DecidableEq, Repr

/-- A reply that waits for the acknowledgement of a twin record (R558) or of copies. -/
structure Waiting where
  ctx : CmdCtx
  status : Nat
  reason : Nat
  param0 : W64
  param1 : W64
  result : List Byte
  /-- result address, key and length -/
  item : W64 × W32 × Nat := (0, 0, 0)
  cid : Nat
  /-- the acknowledgement of a twin record of the conversation answers it (R558) -/
  onRecord : Bool := true
deriving DecidableEq, Repr

/-- What a kept reply's trailer holds beside its CRC (R373, R382). -/
structure Trailer where
  replySeq : Nat := 0
  resultBytes : Nat := 0
  outstanding : Nat := 0
  resultTarget : W64 := 0
  ticket : Nat := 0
deriving DecidableEq, Repr

/-- Records of commands (R382-R389). -/
inductive RecordState where
  | inProgress | ended | released | expired
deriving DecidableEq, Repr
structure Record where
  subscriber : Nat
  requestId : W64
  pool : Nat
  fingerprint : W64
  state : RecordState := .inProgress
  reply : Option Reply := none
  trailer : Trailer := {}
  kept : List Byte := []
  keptFrames : List Nat := []
  /-- the instant at which KEEP_MS runs out, fixed when the request ends (R386, R391) -/
  keepUntil : Nat := 0
  delivered : Bool := false
  resultDelivered : Bool := false
deriving DecidableEq, Repr

/-- A management exchange (R717-R721). -/
structure Exchange where
  xid : W32
  next : Nat := 0
  total : Nat := 0
  data : List Byte := []
  reply : List Byte := []
  acked : Nat := 0
  sentAt : Nat := 0
  tries : Nat := 0
  running : Bool := false
  heldUntil : Option Nat := none
deriving DecidableEq, Repr

/-- Transport, egress and the command path (spec/09, spec/11, spec/12). -/
structure Net where
  qps : Table Qp := []
  ports : List Port := List.replicate 16 {}
  egress : List Msg := []
  /-- packets that take no PSN, and the last replies of an ended tenant: each is ready to leave in its class (R494) -/
  control : List Sent := []
  nextMsg : Nat := 0
  /-- tags whose messages have been acknowledged and whose row has not yet come -/
  acked : List Tag := []
  waiting : Table Waiting := []
  /-- CONV_OPENs at the gate of a FREE conversation, behind what goes ahead of them there in their cycle (R62) -/
  opens : List (Cmd × CmdCtx) := []
  /-- RESULT_FETCHes and RESULT_RELEASEs behind the end that their request has in the same cycle, or behind one of a lower QP; by QP
  (R390) -/
  fetches : List (Cmd × CmdCtx) := []
  nextWait : Nat := 0
  records : List Record := []
  bufHost : Nat := 0
  bufNode : Nat := 0
  lane : List Exchange := []
  wire : List Sent := []
deriving DecidableEq, Repr

/-- A partner, or a node this node twins for (R552-R567). -/
structure Partner where
  lastContact : Nat := 0
  silent : Bool := false
  fencedStamp : Bool := false
  lost : Bool := false
  seqSent : Nat := 0
  seqSeen : Nat := 0
  lastStamp : Nat := 0
  /-- twin frames the partner has granted to this node and that are unused, by number -/
  grantsFree : List Nat := []
  grantsTotal : Nat := 0
  /-- twin frames of pages that are gone, told to the partner with the next twin record or not yet (R559) -/
  freed : List (Nat × Bool) := []
  /-- frames this node has granted to the partner, in order of their number -/
  given : List Nat := []
  wants : Nat := 0
  voted : Bool := false
  /-- a partner of R552; false for a node that this node only twins for, or has only made an offer to -/
  bound : Bool := true
  standin : Bool := false
  /-- frames of a stand-in's grant not yet assigned (R580) -/
  grantLeft : Nat := 0
  /-- this node stands in for the partner -/
  standinFor : Bool := false
deriving DecidableEq, Repr

/-- A twin record held for a partner (R556). -/
structure TwinRecord where
  owner : Nat
  home : Nat
  state : ConvState
  layoutRecord : Layout
  layout : Nat
  epoch : Nat
  committed : List Nat
  crcs : List (List (Nat × W32))
  extents : List Extent
  attached : List W64
  lastWrite : Nat
deriving DecidableEq, Repr

/-- What a partner has told of a published version of its own: the frames of its grant that hold the content, in order (R516, R575). -/
structure TwinVersion where
  owner : Nat
  handle : W64
  content : Nat
  length : Nat
  names : List W64
  frames : List Nat
deriving DecidableEq, Repr

/-- Where the rows of a twin copy came from (R554). -/
structure TwinCopy where
  owner : Nat
  index : Nat
  frame : Nat
  cid : Nat
  layer : Nat
  head : Nat
  page : Nat
  layout : Nat
  rows : List Nat
  tail : Bool
  lastWrite : Nat
  /-- the page that a promotion has made of it (R571) -/
  pid : Option Nat := none
deriving DecidableEq, Repr

/-- Recovery, stand-ins and health (spec/14). -/
structure Recover where
  partners : Table Partner := []
  /-- bound stand-ins, in the order of their binding (R579, R595) -/
  standins : List Nat := []
  /-- the stamp area, by Node ID (R561) -/
  stamps : Table (List Byte) := []
  twinRecords : Table TwinRecord := []
  /-- what the homes tell beside their twin records, under the keys of the records: the saturated elements of rows (R119),
  and the twin frames of the pages that a conversation shares with another (R571) -/
  twinSats : Table (Table Nat) := []
  twinShared : Table (List (PageKey × Nat)) := []
  /-- the published versions of the nodes that this one twins for (R516, R575) -/
  twinVersions : List TwinVersion := []
  twinCopies : List TwinCopy := []
  /-- conversations still to be promoted, in order -/
  toPromote : List Nat := []
  /-- conversations and extents that need a stand-in, in the order of assignment (R580) -/
  unassigned : List Nat := []
  lostNodes : List Nat := []
  offer : Option (Nat × Nat × Nat) := none
  candidates : List Nat := []
  resyncLeft : List Nat := []
  soleCopy : Bool := false
  score : Nat := 1000
  /-- WC_CORRECTED at the last computation of the score, and the rises of the last second by instant (R440) -/
  ceSeen : Nat := 0
  ceTimes : List (Nat × Nat) := []
  /-- codewords corrected on the cables in the last second, as their units counted them at the last tick (R440) -/
  fecPerS : Nat := 0
  /-- retrains of the last minute that were no loss of a port's link, as the links' units counted them at the last tick (R440) -/
  linkRetrains : Nat := 0
  /-- instants of the last 60 s at which a throttle step was in force (R440) -/
  throttle : List Nat := []
  /-- instant at which the score was last computed (R588) -/
  healthAt : Nat := 0
  events : List Nat := []
  lowSince : Option Nat := none
  highSince : Option Nat := none
  guardStart : Nat := 0
  poolsFailed : List Nat := []
  poolsDrained : List Nat := []
  /-- epochs answered OWNER 0, with their CIDs: never accepted afterwards (R426) -/
  refusedEpochs : List (Nat × Nat) := []
deriving DecidableEq, Repr

/-- The whole node. -/
structure State where
  pending : List Instr
  pins : Pins
  clk : Clocks
  pwr : Power
  up : Startup
  node : Node
  trust : Trust
  blocks : List Block
  counters : Table Nat
  events : List Event
  regs : Regs
  tiers : Tiers
  convs : Table Conv
  attn : Attn
  drifts : List Drift
  aborts : List AbortMemo
  /-- READY messages that came before their pass was armed, with their QPs (R335) -/
  readies : List (Nat × List Byte)
  /-- RING_ID and TAKEOVER_PTP of the passes that ended past their release (R357) -/
  released : List (Nat × Nat)
  regions : Regions
  net : Net
  recover : Recover
  /-- free values drawn so far -/
  drawn : Nat
deriving DecidableEq, Repr

/-- The machine right after MOD_RESET_N is released (R686, R710): ROOTING, every register at its reset value. -/
def State.reset : State :=
  { pending := []
    pins := {}
    clk := {}
    pwr := {}
    up := {}
    node := {}
    trust := {}
    blocks := List.replicate 24 {}
    counters := []
    events := []
    regs := {}
    tiers := {}
    convs := []
    attn := {}
    drifts := List.replicate 16 {}
    aborts := []
    readies := []
    released := []
    regions := {}
    net := {}
    recover := {}
    drawn := 0 }

end Sys2Proof.Machine
end

