-- ==== Sys2Proof/Machine/Flags.lean ====
section
/-! DEFINITION. Status codes (R14), reason codes (the tables of every chapter, indexed by R701), counter numbers
(R715), and what happens at a counted or reported event: counters (R713), the event queue (R629, R630), ERR_SUM
(R633) and MOD_ALERT_N (R632). -/
namespace Sys2Proof.Machine

/-! ## Status codes (R14) -/
namespace Status
def ok : Nat := 0x00
def notReady : Nat := 0x01
def refusedState : Nat := 0x02
def refusedParam : Nat := 0x03
def throttled : Nat := 0x04
def deadlineMiss : Nat := 0x05
def anchorBreach : Nat := 0x06
def poisoned : Nat := 0x07
def lost : Nat := 0x08
def collectiveAbort : Nat := 0x09
def notOwner : Nat := 0x0A
def versionConflict : Nat := 0x0B
def revoked : Nat := 0x0C
def denied : Nat := 0x0D
def retryContext : Nat := 0x0E
def gone : Nat := 0x0F
end Status

/-! ## Reason codes -/
namespace Reason
def nodeState : Nat := 0x0140
def privileged : Nat := 0x0141
def profileFormat : Nat := 0x0142
def profileSignature : Nat := 0x0143
def fabricFormat : Nat := 0x0144
def fabricChange : Nat := 0x0145
def fabricMismatch : Nat := 0x0146
def gradeTooLow : Nat := 0x0147
def twinDomain : Nat := 0x0148
def setupMissing : Nat := 0x0149
def drainScope : Nat := 0x014A
def drainBusy : Nat := 0x014B
def roleFixed : Nat := 0x014C
def roleNotEmpty : Nat := 0x014D
def regAddress : Nat := 0x014E
def nodeRole : Nat := 0x014F
def blockChecking : Nat := 0x0150
def blockInUse : Nat := 0x0151
def fieldLocked : Nat := 0x0152
def monitorLimit : Nat := 0x0201
def pwrParam : Nat := 0x0240
def envFence : Nat := 0x0241
def thermalTrip : Nat := 0x0242
def voltageTrip : Nat := 0x0243
def pllUnlocked : Nat := 0x0301
def pllLockLost : Nat := 0x0340
def stackUntrained : Nat := 0x0401
def tierMarks : Nat := 0x0402
def hotExhausted : Nat := 0x0440
def pinLimit : Nat := 0x0441
def tierParam : Nat := 0x0442
def pagePoisoned : Nat := 0x0443
def twinRepair : Nat := 0x0444
def scrubParam : Nat := 0x0445
def warmUntrained : Nat := 0x0501
def warmMarks : Nat := 0x0502
def poolPressure : Nat := 0x0540
def spillRecall : Nat := 0x0640
def spillTarget : Nat := 0x0641
def tilesShort : Nat := 0x0701
def tileSubstitute : Nat := 0x0740
def queryTooLarge : Nat := 0x0741
def tileSpares : Nat := 0x0742
def tilesetParam : Nat := 0x0743
def tilePwrParam : Nat := 0x0744
def tilesUnbound : Nat := 0x0745
def tileSramFault : Nat := 0x0746
def tileResidueFault : Nat := 0x0747
def tileTestFail : Nat := 0x0748
def scoreScale : Nat := 0x0840
def queryFormat : Nat := 0x0841
def queryNonfinite : Nat := 0x0842
def absorbMismatch : Nat := 0x0843
def modifierFormat : Nat := 0x0844
def modifierSlot : Nat := 0x0845
def modifierInUse : Nat := 0x0846
def modifierHeads : Nat := 0x0847
def modifierMismatch : Nat := 0x0848
def breachWeight : Nat := 0x0940
def breachInfinite : Nat := 0x0941
def anchorRange : Nat := 0x0942
def firnMismatch : Nat := 0x0943
def firnCount : Nat := 0x0944
def firnDuplicate : Nat := 0x0945
def firnRecord : Nat := 0x0946
def firnWidth : Nat := 0x0947
def deadlineForeseen : Nat := 0x0A40
def deadlinePassed : Nat := 0x0A41
def participantLost : Nat := 0x0A42
def contextFull : Nat := 0x0A43
def triggerFull : Nat := 0x0A44
def grazeParam : Nat := 0x0A45
def resultSpace : Nat := 0x0A46
def deadlineShort : Nat := 0x0A47
def extentMoved : Nat := 0x0A48
def poolFailed : Nat := 0x0A49
def cairnLayout : Nat := 0x0A4A
def cairnParam : Nat := 0x0A4B
def cairnBlock : Nat := 0x0A4C
def driftRing : Nat := 0x0A50
def driftParam : Nat := 0x0A51
def driftDigest : Nat := 0x0A52
def driftLead : Nat := 0x0A53
def driftClock : Nat := 0x0A54
def driftRingsFull : Nat := 0x0A55
def driftFrames : Nat := 0x0A56
def driftGate : Nat := 0x0A57
def driftState : Nat := 0x0A58
def driftNotReady : Nat := 0x0A59
def driftNeighbourDigest : Nat := 0x0A5A
def driftMemberSilent : Nat := 0x0A5B
def driftLink : Nat := 0x0A5C
def driftBlockCheck : Nat := 0x0A5D
def driftBlockLate : Nat := 0x0A5E
def driftSendLate : Nat := 0x0A5F
def driftComputeLate : Nat := 0x0A60
def driftClockLost : Nat := 0x0A61
def driftLocalFailure : Nat := 0x0A62
def driftCancelled : Nat := 0x0A63
def driftResultLate : Nat := 0x0A64
def hdrCrc : Nat := 0x0A70
def hdrFormat : Nat := 0x0A71
def opcodeUnknown : Nat := 0x0A72
def seqRepeat : Nat := 0x0A73
def seqGap : Nat := 0x0A74
def tenantEpoch : Nat := 0x0A75
def requestIdReuse : Nat := 0x0A76
def requestInProgress : Nat := 0x0A77
def unknownRequest : Nat := 0x0A78
def resultReleased : Nat := 0x0A79
def resultExpired : Nat := 0x0A7A
def resultInProgress : Nat := 0x0A7B
def appendDiscarded : Nat := 0x0A7C
def cmdParam : Nat := 0x0A7D
def forwardDenied : Nat := 0x0A7E
def deadlineFixed : Nat := 0x0A80
def nodeQpOnly : Nat := 0x0A81
def nodeBuffer : Nat := 0x0A82
def recordsFull : Nat := 0x0A83
def payloadFormat : Nat := 0x0A84
def prefixParam : Nat := 0x0B40
def camWidth : Nat := 0x0B41
def noPort : Nat := 0x0C01
def qpParam : Nat := 0x0D40
def qpState : Nat := 0x0D41
def retryExhausted : Nat := 0x0D42
def rnrExhausted : Nat := 0x0D43
def remoteAccess : Nat := 0x0D44
def invalidRequest : Nat := 0x0D45
def remoteOperational : Nat := 0x0D46
def qpReset : Nat := 0x0D47
def keyTableFull : Nat := 0x0D48
def keyUnknown : Nat := 0x0D49
def hostQpAbsent : Nat := 0x0D4A
def schedParam : Nat := 0x0E40
def appendTrailerCrc : Nat := 0x0F40
def appendLayout : Nat := 0x0F41
def appendBeyondWindow : Nat := 0x0F42
def appendDuplicate : Nat := 0x0F43
def leaseNotHeld : Nat := 0x0F44
def leaseLost : Nat := 0x0F45
def convLimit : Nat := 0x0F46
def gateQueueFull : Nat := 0x0F47
def tableFull : Nat := 0x0F48
def layoutInUse : Nat := 0x0F49
def layoutTooLarge : Nat := 0x0F4A
def notHome : Nat := 0x0F4B
def forkLength : Nat := 0x0F4C
def truncateLength : Nat := 0x0F4D
def convState : Nat := 0x0F4E
def layoutFormat : Nat := 0x0F4F
def appendNonfinite : Nat := 0x0F50
def layoutUndefined : Nat := 0x0F51
def outlyingNode : Nat := 0x0F52
def forkCidInUse : Nat := 0x0F53
def twinTimeout : Nat := 0x0F54
def epochStale : Nat := 0x0F55
def moveTarget : Nat := 0x0F56
def moveLayout : Nat := 0x0F57
def moveExtents : Nat := 0x0F58
def pinRange : Nat := 0x0F59
def moveUnresolved : Nat := 0x0F5A
def gapTimeout : Nat := 0x0F5B
def appendTrailer : Nat := 0x0F5C
def absorbFormat : Nat := 0x1001
def regionUnknown : Nat := 0x1040
def regionIdForm : Nat := 0x1041
def regionState : Nat := 0x1042
def nearRange : Nat := 0x1043
def regionImmutable : Nat := 0x1044
def publishConflict : Nat := 0x1045
def regionParam : Nat := 0x1046
def attachAbsent : Nat := 0x1047
def handleCollision : Nat := 0x1048
def prefixFormat : Nat := 0x1049
def reduceTarget : Nat := 0x104A
def attachLimit : Nat := 0x104B
def attachConv : Nat := 0x104C
def regionTableFull : Nat := 0x104D
def regionOwner : Nat := 0x104E
def publishTimeout : Nat := 0x104F
def regionFrames : Nat := 0x1050
def nearLate : Nat := 0x1051
def twinMismatch : Nat := 0x1140
def twinUnreachable : Nat := 0x1141
def resyncSource : Nat := 0x1142
def twinLost : Nat := 0x1143
def noTwin : Nat := 0x1144
def resyncEarly : Nat := 0x1145
def convLost : Nat := 0x1146
def voteSilent : Nat := 0x1147
def voteFenced : Nat := 0x1148
def standinNone : Nat := 0x1149
def twinParam : Nat := 0x114A
def twinFull : Nat := 0x114B
def promoting : Nat := 0x114C
def healthParam : Nat := 0x1240
def healthLow : Nat := 0x1241
def chkParam : Nat := 0x1340
def chkUnitBusy : Nat := 0x1341
def chkStreamFail : Nat := 0x1342
def wcUncorrectable : Nat := 0x1440
def poisonConsumed : Nat := 0x1441
def checkValueFail : Nat := 0x1442
def injectPoint : Nat := 0x1540
def injectParam : Nat := 0x1541
def injectSlotsFull : Nat := 0x1542
def tenantPresent : Nat := 0x1640
def tenantZeroing : Nat := 0x1641
def tenantEvidence : Nat := 0x1642
def tenantAbsent : Nat := 0x1643
def tenantEnded : Nat := 0x1644
def imageStage : Nat := 0x1645
def imageSignature : Nat := 0x1646
def setNotListed : Nat := 0x1647
def confidential : Nat := 0x1648
def profileTenant : Nat := 0x1649
def profileDevice : Nat := 0x164A
def setMismatch : Nat := 0x164B
def setKeyAbsent : Nat := 0x164C
def unwrapFail : Nat := 0x164D
def identityFail : Nat := 0x164E
def ptpLockChange : Nat := 0x1740
def nocLink : Nat := 0x1801
/-- SELF_TEST of block n (R712). -/
def selfTest (block : Nat) : Nat := block * 0x100 + 0x3F
end Reason

/-! ## Block numbers (R700) -/
namespace Blk
def top : Nat := 0x01
def pwr : Nat := 0x02
def clk : Nat := 0x03
def hot : Nat := 0x04
def warm : Nat := 0x05
def spill : Nat := 0x06
def tile : Nat := 0x07
def score : Nat := 0x08
def firn : Nat := 0x09
def ctx : Nat := 0x0A
def cam : Nat := 0x0B
def net : Nat := 0x0C
def rdma : Nat := 0x0D
def sched : Nat := 0x0E
def gate : Nat := 0x0F
def near : Nat := 0x10
def twin : Nat := 0x11
def health : Nat := 0x12
def chk : Nat := 0x13
def err : Nat := 0x14
def inj : Nat := 0x15
def sec : Nat := 0x16
def ptp : Nat := 0x17
def fab : Nat := 0x18
end Blk

/-! ## Counters (R713, R715) -/

/-- A counter: block and number. -/
abbrev CtrId := Nat × Nat
namespace Ctr
def throttleMs : CtrId := (0x02, 0)
def pllRestart : CtrId := (0x03, 0)
def freezeSat : CtrId := (0x04, 0)
def thawFormatFault : CtrId := (0x04, 1)
def sealCheckFail : CtrId := (0x04, 2)
def evictHot : CtrId := (0x04, 3)
def promote : CtrId := (0x04, 4)
def framesRetired : CtrId := (0x04, 5)
def throttleGrow : CtrId := (0x04, 6)
def moveQueued : CtrId := (0x04, 7)
def evictWarm : CtrId := (0x05, 0)
def throttleAdmit : CtrId := (0x05, 1)
def refetch : CtrId := (0x06, 0)
def spillImageFail : CtrId := (0x06, 1)
def tileFault : CtrId := (0x07, 0)
def tileSubst : CtrId := (0x07, 1)
def stallRecall : CtrId := (0x07, 2)
def stallRepair : CtrId := (0x07, 3)
def stallWarmLate : CtrId := (0x07, 4)
def stallFrame : CtrId := (0x07, 5)
def valueSat : CtrId := (0x08, 0)
def nanScore : CtrId := (0x08, 1)
def anchorBreach : CtrId := (0x09, 0)
def firnDup : CtrId := (0x09, 1)
def firnMismatch : CtrId := (0x09, 2)
def firnLate : CtrId := (0x09, 3)
def firnRecordFail : CtrId := (0x09, 4)
def grazeDone : CtrId := (0x0A, 0)
def grazeMiss : CtrId := (0x0A, 1)
def fwdLate : CtrId := (0x0A, 2)
def resultDrop : CtrId := (0x0A, 3)
def cairnDone : CtrId := (0x0A, 4)
def driftDone : CtrId := (0x0A, 5)
def driftAbort : CtrId := (0x0A, 6)
def driftAbortDup : CtrId := (0x0A, 7)
def driftAbortLate : CtrId := (0x0A, 8)
def beatMiss : CtrId := (0x0A, 9)
def creditOverrun : CtrId := (0x0A, 10)
def seqFault : CtrId := (0x0A, 11)
def hdrCrcFail : CtrId := (0x0A, 12)
def replyRepeat : CtrId := (0x0A, 13)
def replyEvict : CtrId := (0x0A, 14)
def resultEvict : CtrId := (0x0A, 15)
def nodeBufferDrop : CtrId := (0x0A, 16)
def camFalseHit : CtrId := (0x0B, 0)
def camFullSkip : CtrId := (0x0B, 1)
def mgmtBad : CtrId := (0x0C, 0)
def mgmtReplyDrop : CtrId := (0x0C, 1)
def icrcFail : CtrId := (0x0D, 0)
def cmDrop : CtrId := (0x0D, 1)
def immIgnored : CtrId := (0x0D, 2)
def dupReq : CtrId := (0x0D, 3)
def rnrNakSent : CtrId := (0x0D, 4)
def retryTimeout : CtrId := (0x0D, 5)
def qpError : CtrId := (0x0D, 6)
def revokeCut : CtrId := (0x0D, 7)
def cnpSent : CtrId := (0x0D, 8)
def cnpRcvd : CtrId := (0x0D, 9)
def pfcStorm : CtrId := (0x0D, 10)
def gateFitHold : CtrId := (0x0E, 0)
def configChange : CtrId := (0x0E, 1)
def appendStale : CtrId := (0x0F, 0)
def appendRefused : CtrId := (0x0F, 1)
def appendTailDiscard : CtrId := (0x0F, 2)
def gapTimeout : CtrId := (0x0F, 3)
def publishDedup : CtrId := (0x10, 0)
def attachExpired : CtrId := (0x10, 1)
def stampBad : CtrId := (0x11, 0)
def voteCast : CtrId := (0x11, 1)
def voteHeld : CtrId := (0x11, 2)
def promoteConv : CtrId := (0x11, 3)
def resyncFrames : CtrId := (0x11, 4)
def convLost : CtrId := (0x11, 5)
def degradedEnter : CtrId := (0x12, 0)
def selfFence : CtrId := (0x12, 1)
def chkFail : CtrId := (0x13, 0)
def chkAliveGap : CtrId := (0x13, 1)
def chkAliveRepeat : CtrId := (0x13, 2)
def wcCorrected : CtrId := (0x14, 0)
def wcUncorrected : CtrId := (0x14, 1)
def poisonConsumed : CtrId := (0x14, 2)
def poisonEgress : CtrId := (0x14, 3)
def evtLost : CtrId := (0x14, 4)
def injFired : CtrId := (0x15, 0)
def ptpUnlock : CtrId := (0x17, 0)
end Ctr

/-- Number of counters of a block (R703, R715). -/
def counterCount (block : Nat) : Nat :=
  ([0, 0, 1, 1, 8, 2, 2, 6, 2, 5, 17, 2, 2, 11, 2, 4, 2, 6, 2, 3, 5, 1, 0, 1, 0] : List Nat).getD block 0

/-- Key of a counter in State.counters. -/
def CtrId.key (c : CtrId) : Nat := c.1 * 4096 + c.2

/-- A counter's value. -/
def State.counter (s : State) (c : CtrId) : Nat := Table.getD s.counters c.key 0

/-- A counter rises by n and saturates at 2^64 - 1 (R713). -/
def State.bumpBy (s : State) (c : CtrId) (n : Nat) : State :=
  if n = 0 then s else
  { s with counters := Table.set s.counters c.key (min (s.counter c + n) (2 ^ 64 - 1)) }

/-- A counter rises by one (R713). -/
def State.bump (s : State) (c : CtrId) : State := s.bumpBy c 1

/-! ## Events -/

/-- MOD_ALERT_N is low while ALERT_EN is 1 and the event queue is not empty (R632), after a failed engine self-test (R644), a
missed start-up bound (R688) and a trip (R695). -/
def State.driveAlert (s : State) : State :=
  { s with pins := { s.pins with
      alertLow := (s.regs.alertEn && !s.events.isEmpty) || s.up.selfTestFailed || s.up.missedBound || s.pwr.tripped } }

/-- The place of an event among those of its cycle: its block ID, then its injection point, where its source has one (R629, R635). -/
def eventPlace (block reason detail : Nat) : Nat :=
  let point :=
    if block = Blk.hot then (if reason = Reason.checkValueFail then 8 + detail % 8 else detail % 8)
    else if block = Blk.warm then (if reason = Reason.checkValueFail then 1 else 0)
    else if block = Blk.tile then (if reason = Reason.tileResidueFault then 72 + detail % 72 else detail % 72)
    else if block = Blk.pwr || block = Blk.clk || block = Blk.chk then detail % 64
    else 0
  256 * block + point

/-- An event takes its place in the queue: last, but before those of its cycle with a higher block ID or injection point (R629). -/
def queueEvent (es : List Event) (e : Event) : List Event :=
  let ahead := fun (x : Event) => !(x.cycle == e.cycle && decide (e.place < x.place))
  es.takeWhile ahead ++ e :: es.dropWhile ahead

/-- Queues an event of the ERR block; a full queue drops it (R629). In confidential mode DETAIL is 0 (R630). -/
def State.raise (s : State) (block reason detail : Nat) (injected : Bool := false) : State :=
  if s.events.length ≥ 512 then s.bump Ctr.evtLost else
  let e : Event :=
    { time := if s.clk.locked then s.clk.ptp else 20 * s.clk.rime
      block := block
      injected := injected
      rimeTime := !s.clk.locked
      reason := reason
      detail := if s.node.confidential then 0 else detail
      cycle := s.clk.rime
      place := eventPlace block reason detail }
  State.driveAlert { s with events := queueEvent s.events e }

/-- Changes the common registers of a block. -/
def State.modBlock (s : State) (block : Nat) (f : Block → Block) : State :=
  { s with blocks := modifyAt s.blocks (block - 1) f }

/-- The common registers of a block. -/
def State.blockAt (s : State) (block : Nat) : Block := s.blocks.getD (block - 1) {}

/-- An event that the health score counts: an injection or a watchdog (R440, R588). -/
def State.healthEvent (s : State) : State :=
  { s with recover := { s.recover with events := s.recover.events ++ [20 * s.clk.rime] } }

/-- A CORRECTED word of a block: counted only (R629, R633). -/
def State.wordCorrected (s : State) (block : Nat) : State :=
  (s.bump Ctr.wcCorrected).modBlock block fun b => { b with corrected := min (b.corrected + 1) 65535 }

/-- Hardware sets a bit of a block's ERR_SUM, and INJECTED where the fault was injected, in a cycle of Rime time (R18, R633). -/
def Block.note (b : Block) (now bit : Nat) (injected : Bool) : Block :=
  let old := if b.freshAt = now then b.fresh else []
  { b with
    uncorrected := b.uncorrected || bit == 31, poison := b.poison || bit == 30, checkFail := b.checkFail || bit == 29
    watchdog := b.watchdog || bit == 28, injected := b.injected || injected
    fresh := addOnce (if injected then addOnce old 27 else old) bit, freshAt := now }

/-- What writes of 1 leave of a block's ERR_SUM: a bit that hardware has set in the same cycle stays (R18, R633). -/
def Block.clearWritten (b : Block) (now w : Nat) : Block :=
  let stays := fun (k : Nat) => !Nat.testBit w k || (b.freshAt == now && b.fresh.contains k)
  { b with
    uncorrected := b.uncorrected && stays 31, poison := b.poison && stays 30, checkFail := b.checkFail && stays 29
    watchdog := b.watchdog && stays 28, injected := b.injected && stays 27 }

/-- An UNCORRECTABLE word seen in a block (R629, R633). -/
def State.wordUncorrectable (s : State) (block detail : Nat) (injected : Bool := false) : State :=
  let s := (s.bump Ctr.wcUncorrected).modBlock block fun b => b.note s.clk.rime 31 injected
  s.raise block Reason.wcUncorrectable detail injected

/-- A poisoned word consumed in a block (R616, R629, R633). -/
def State.poisonConsumedAt (s : State) (block detail : Nat) (injected : Bool := false) : State :=
  let s := (s.bump Ctr.poisonConsumed).modBlock block fun b => b.note s.clk.rime 30 injected
  s.raise block Reason.poisonConsumed detail injected

/-- A check value of a block's data failed: its CHECK_FAIL is set (R633). -/
def State.checkNoted (s : State) (block : Nat) (injected : Bool := false) : State :=
  s.modBlock block fun b => b.note s.clk.rime 29 injected

/-- A check by a firmware unit that failed and is no ordinary command refusal (R629, R633). -/
def State.checkFailed (s : State) (block detail : Nat) (injected : Bool := false) : State :=
  (s.checkNoted block injected).raise block Reason.checkValueFail detail injected

/-- A watchdog of a block fired, with the event that the rule names (R629, R633, R588). -/
def State.watchdogFired (s : State) (block reason detail : Nat) (injected : Bool := false) : State :=
  let s := s.modBlock block fun b => b.note s.clk.rime 28 injected
  let s := s.raise block reason detail injected
  if injected then s else s.healthEvent

/-! ## Free values (log entry 4) -/

/-- A free number below n, drawn afresh; 0 for n = 0. -/
def State.drawBelow (s : State) (n : Nat) : Nat × State :=
  (Config.choice s.drawn % n, { s with drawn := s.drawn + 1 })

/-- A free 64-bit value, drawn afresh. -/
def State.drawWord (s : State) : W64 × State := (Config.freeWord s.drawn, { s with drawn := s.drawn + 1 })

/-- Free bytes, drawn afresh. -/
def State.drawBytes (s : State) : List Byte × State := (Config.freeBytes s.drawn, { s with drawn := s.drawn + 1 })

/-! ## Injected faults (R634-R639) -/

/-- Whether a slot fires at a point now: armed, its delay run out, its target the point. -/
def InjSlot.hits (x : InjSlot) (now block point : Nat) : Bool :=
  x.busy && x.block == block && x.point == point && (x.live || now ≥ x.due)

/-- One firing of a slot; after COUNT firings it is free (R637). -/
def InjSlot.fire (x : InjSlot) : InjSlot :=
  if x.done + 1 ≥ x.count then { x with busy := false, live := false, done := x.done + 1 }
  else { x with live := true, done := x.done + 1 }

/-- A slot fires: counted, and an event of the health score (R637, R639). -/
def State.fireSlot (s : State) (i : Nat) : State :=
  let s := { s with regs := { s.regs with inj := setAt s.regs.inj i (s.regs.inj.getD i {}).fire } }
  (s.bump Ctr.injFired).healthEvent

/-- The kind that the lowest armed slot injects at a point, if any, and the state after its firing (R637, R639). -/
def State.injected (s : State) (block point : Nat) : Option Nat × State :=
  match s.regs.inj.findIdx? fun x => x.hits (20 * s.clk.rime) block point with
  | none => (none, s)
  | some i => (some (s.regs.inj.getD i {}).kind, s.fireSlot i)

/-- Whether a fault of a kind strikes at a check-value unit that belongs to firmware (R621, R634, R635). -/
def State.unitStruck (s : State) (unit kind : Nat) : Bool × State :=
  match s.regs.inj.findIdx? fun x => x.hits (20 * s.clk.rime) Blk.chk unit && x.kind == kind with
  | none => (false, s)
  | some i => (true, s.fireSlot i)

/-- Whether a fault strikes at a check that is a point of its own block and of its firmware unit (R621, R635). -/
def State.checkStruck (s : State) (block point unit : Nat) : Bool × State :=
  match s.injected block point with
  | (some _, s) => (true, s)
  | (none, s) => s.unitStruck unit 3

/-- An SRAM word read at an injection point: false where an injected fault makes it UNCORRECTABLE or poison, which the
reading unit then consumes (R612, R616, R634). -/
def State.sramRead (s : State) (block point detail : Nat) : Bool × State :=
  match s.injected block point with
  | (none, s) => (true, s)
  | (some 0, s) => (true, s.wordCorrected block)
  | (some 1, s) => (false, (s.wordUncorrectable block detail true).poisonConsumedAt block detail true)
  | (some _, s) => (false, s.poisonConsumedAt block detail true)

end Sys2Proof.Machine
end

