-- ==== Sys2Proof/Machine/Fp.lean ====
section
/-! DEFINITION. Exact arithmetic and rounding: dyadic numbers, RNE (R23), and the binary formats of R22 and R104.
A format's codes of non-negative numbers, in ascending order, are consecutive, so a rounded magnitude is a code. -/
namespace Sys2Proof.Machine

/-- The exact number m * 2^e. -/
structure Dy where
  m : Int
  e : Int
deriving DecidableEq, Repr

/-- Exact sum. -/
def Dy.add (a b : Dy) : Dy :=
  let e := min a.e b.e
  ⟨a.m * 2 ^ (a.e - e).toNat + b.m * 2 ^ (b.e - e).toNat, e⟩

/-- Exact product. -/
def Dy.mul (a b : Dy) : Dy := ⟨a.m * b.m, a.e + b.e⟩

/-- The integer n. -/
def Dy.ofInt (n : Int) : Dy := ⟨n, 0⟩

/-- Exact sum of a list. -/
def Dy.sum (l : List Dy) : Dy := l.foldl Dy.add ⟨0, 0⟩

/-- Numerator and denominator of the magnitude. -/
def Dy.frac (a : Dy) : Nat × Nat := (a.m.natAbs * 2 ^ a.e.toNat, 2 ^ (-a.e).toNat)

/-- floor(a * 2^k). -/
def Dy.floorShift (a : Dy) (k : Int) : Int :=
  let e := a.e + k
  if e ≥ 0 then a.m * 2 ^ e.toNat else a.m / (2 ^ (-e).toNat : Nat)

/-- a ≤ b. -/
def Dy.le (a b : Dy) : Bool :=
  let e := min a.e b.e
  a.m * 2 ^ (a.e - e).toNat ≤ b.m * 2 ^ (b.e - e).toNat

/-! ## Rounding (R23) -/

/-- n / d rounded to the nearest integer, ties to even. -/
def rneDiv (n d : Nat) : Nat :=
  let q := n / d
  let r := n % d
  if 2 * r < d then q else if 2 * r > d then q + 1 else q + q % 2

/-- floor(log2(n / d)) of a positive quotient. -/
def floorLog2 (n d : Nat) : Int :=
  let l : Int := (n.log2 : Int) - (d.log2 : Int)
  if d * 2 ^ l.toNat ≤ n * 2 ^ (-l).toNat then l else l - 1

/-- The code of the magnitude n / d rounded to a format of mb mantissa bits whose smallest subnormal is 2^emin. It
may lie above the format's largest finite code. -/
def roundMag (mb : Nat) (emin : Int) (n d : Nat) : Nat :=
  if n = 0 then 0 else
  let k := max (floorLog2 n d - mb) emin
  (k - emin).toNat * 2 ^ mb + rneDiv (n * 2 ^ (-k).toNat) (d * 2 ^ k.toNat)

/-- The number a non-negative code stands for. -/
def codeMag (mb : Nat) (emin : Int) (code : Nat) : Dy :=
  let e := code / 2 ^ mb
  if e = 0 then ⟨code, emin⟩ else ⟨2 ^ mb + code % 2 ^ mb, emin + e - 1⟩

/-- floor(sqrt n). -/
def isqrt (n : Nat) : Nat :=
  (List.range (n.log2 / 2 + 1)).reverse.foldl (fun acc i =>
    if (acc + 2 ^ i) * (acc + 2 ^ i) ≤ n then acc + 2 ^ i else acc) 0

/-! ## FP32 and BF16 codes -/

/-- FP32 infinity, magnitude code. -/
def fp32Inf : Nat := 0x7F800000
/-- The quiet NaN of the score pipeline. -/
def fp32Nan : Nat := 0x7FC00000

/-- The FP32 code of a signed quotient, rounded once: an exact zero gives +0, an overflow an infinity (R200). -/
def roundFp32 (neg : Bool) (n d : Nat) : Nat :=
  if n = 0 then 0 else
  min (roundMag 23 (-149) n d) fp32Inf + (if neg then 0x80000000 else 0)

/-- The BF16 code of a signed quotient, rounded once; an overflow gives an infinity code. -/
def roundBf16 (neg : Bool) (n d : Nat) : Nat :=
  if n = 0 then 0 else
  min (roundMag 7 (-133) n d) 0x7F80 + (if neg then 0x8000 else 0)

/-- The FP32 code of an exact number. -/
def Dy.toFp32 (a : Dy) : Nat := roundFp32 (a.m < 0) a.frac.1 a.frac.2

/-- The BF16 code of an exact number. -/
def Dy.toBf16 (a : Dy) : Nat := roundBf16 (a.m < 0) a.frac.1 a.frac.2

/-- Sign of an FP32 code. -/
def fp32Neg (x : Nat) : Bool := x ≥ 0x80000000
/-- Whether an FP32 code is a NaN. -/
def fp32IsNan (x : Nat) : Bool := x % 0x80000000 > fp32Inf
/-- Whether an FP32 code is an infinity. -/
def fp32IsInf (x : Nat) : Bool := x % 0x80000000 == fp32Inf
/-- Whether an FP32 code is neither NaN nor infinity. -/
def fp32Finite (x : Nat) : Bool := x % 0x80000000 < fp32Inf

/-- The exact number of a finite FP32 code. -/
def fp32Val (x : Nat) : Dy :=
  let a := codeMag 23 (-149) (x % 0x80000000)
  if fp32Neg x then ⟨-a.m, a.e⟩ else a

/-- Whether a BF16 code is finite. -/
def bf16Finite (x : Nat) : Bool := x % 0x8000 < 0x7F80
/-- The exact number of a BF16 code; a free one where the code is not finite. -/
def bf16Val (x : Nat) : Dy :=
  if !bf16Finite x then ⟨Config.nonfinite x, -133⟩ else
  let a := codeMag 7 (-133) (x % 0x8000)
  if x ≥ 0x8000 then ⟨-a.m, a.e⟩ else a

/-- RNE(x * y) on FP32 codes (R200). -/
def fp32Mul (x y : Nat) : Nat :=
  if fp32IsNan x || fp32IsNan y then fp32Nan
  else if fp32IsInf x || fp32IsInf y then
    if x % 0x80000000 = 0 || y % 0x80000000 = 0 then fp32Nan
    else fp32Inf + (if fp32Neg x != fp32Neg y then 0x80000000 else 0)
  else ((fp32Val x).mul (fp32Val y)).toFp32

/-- RNE(x + a) of an FP32 code and an exact number (R200). -/
def fp32AddExact (x : Nat) (a : Dy) : Nat :=
  if fp32IsNan x || fp32IsInf x then x else ((fp32Val x).add a).toFp32

/-- RNE(x + y) on FP32 codes (R200). -/
def fp32Add (x y : Nat) : Nat :=
  if fp32IsNan x || fp32IsNan y then fp32Nan
  else if fp32IsInf y then (if fp32IsInf x && x != y then fp32Nan else y)
  else fp32AddExact x (fp32Val y)

/-- RNE(x / y) on FP32 codes with y finite and not zero. -/
def fp32Div (x y : Nat) : Nat :=
  if fp32IsNan x || fp32IsNan y then fp32Nan
  else if fp32IsInf x then fp32Inf + (if fp32Neg x != fp32Neg y then 0x80000000 else 0)
  else
    let a := (fp32Val x).frac
    let b := (fp32Val y).frac
    roundFp32 (fp32Neg x != fp32Neg y) (a.1 * b.2) (a.2 * b.1)

/-- x ≤ y of FP32 codes that are not NaN. -/
def fp32Le (x y : Nat) : Bool :=
  let key := fun (z : Nat) => if fp32Neg z then -((z % 0x80000000 : Nat) : Int) else (z : Int)
  decide (key x ≤ key y)

/-- The larger of two FP32 codes that are not NaN. Of +0 and −0 it is the second operand: the manual names none (DESIGN
CHOICE, log entry 75). -/
def fp32Max (x y : Nat) : Nat := if fp32Le x y then y else x
/-- The smaller of two FP32 codes that are not NaN. Of +0 and −0 it is the first operand (DESIGN CHOICE, log entry 75). -/
def fp32Min (x y : Nat) : Nat := if fp32Le x y then x else y

/-- FP32 code of a square root, rounded once (R132). -/
def sqrtFp32 (x : Dy) : Nat :=
  let f := x.frac
  if f.1 = 0 then 0 else
  let k := max (floorLog2 f.1 f.2 / 2 - 23) (-149)
  let n := f.1 * 4 ^ (-k).toNat
  let d := f.2 * 4 ^ k.toNat
  let q := isqrt (n / d)
  let q := if 4 * n < (2 * q + 1) * (2 * q + 1) * d then q
    else if 4 * n > (2 * q + 1) * (2 * q + 1) * d then q + 1 else q + q % 2
  min ((k + 149).toNat * 2 ^ 23 + q) fp32Inf

/-- Little-endian FP32 code of 4 bytes at an offset. -/
def fp32At (bs : List Byte) (off : Nat) : Nat := fieldAt bs off 4

end Sys2Proof.Machine
end

