-- ==== Sys2Proof/Machine/Formats.lean ====
section
/-! DEFINITION. Layouts and stored formats: sizes (R58, R104-R113), freeze (R116-R122), thaw (R123, R126), the page
tail, the summary and the seal (R130-R134). -/
namespace Sys2Proof.Machine

/-! ## Formats (R104) -/

/-- A stored format: element width, mantissa bits, exponent of the smallest subnormal, largest finite code, largest
exponent, and whether blocks of 32 carry an E8M0 scale. -/
structure Fmt where
  bits : Nat
  mb : Nat
  emin : Int
  maxCode : Nat
  emax : Int
  mx : Bool
deriving DecidableEq, Repr

/-- The format of a code of R104. -/
def fmtOf (code : Nat) : Option Fmt :=
  match code with
  | 0 => some ⟨16, 7, -133, 0x7F7F, 127, false⟩
  | 1 => some ⟨8, 3, -9, 0x7E, 8, false⟩
  | 2 => some ⟨8, 2, -16, 0x7B, 15, false⟩
  | 3 => some ⟨8, 3, -9, 0x7E, 8, true⟩
  | 4 => some ⟨8, 2, -16, 0x7B, 15, true⟩
  | 5 => some ⟨6, 2, -4, 0x1F, 4, true⟩
  | 6 => some ⟨6, 3, -3, 0x1F, 2, true⟩
  | 7 => some ⟨4, 1, -1, 0x7, 2, true⟩
  | _ => none

/-- The format of a code, BF16 where the code is undefined. -/
def fmtD (code : Nat) : Fmt := (fmtOf code).getD ⟨16, 7, -133, 0x7F7F, 127, false⟩

/-- Bytes of a field of n elements (R106). -/
def Fmt.bytes (f : Fmt) (n : Nat) : Nat := n * f.bits / 8 + (if f.mx then n / 32 else 0)

/-! ## Layouts (R58) -/

/-- T, the tokens per page. -/
def Layout.tokens (l : Layout) : Nat := 16 * 2 ^ l.tpp
/-- Elements of a key: E_q of R192. -/
def Layout.keyLen (l : Layout) : Nat := if l.latent then l.latentRank + l.ropeDims else l.headDim
/-- Value elements: E_v of R197. -/
def Layout.valueLen (l : Layout) : Nat := if l.latent then l.latentRank else l.headDim
/-- Bytes of a key row or of a latent row (R109, R110). -/
def Layout.keyRow (l : Layout) : Nat :=
  if l.latent then (fmtD l.keyFormat).bytes l.latentRank + (fmtD l.keyFormat).bytes l.ropeDims
  else (fmtD l.keyFormat).bytes l.headDim
/-- Bytes of a value row; none in a latent layout. -/
def Layout.valueRow (l : Layout) : Nat := if l.latent then 0 else (fmtD l.valueFormat).bytes l.headDim
/-- Data bytes of a page (R59). -/
def Layout.pageBytes (l : Layout) : Nat := l.tokens * (l.keyRow + l.valueRow)
/-- Offset of a key or latent row in its frame (R109, R110). -/
def Layout.keyAt (l : Layout) (p : Nat) : Nat := p * l.keyRow
/-- Offset of a value row in its frame (R109). -/
def Layout.valueAt (l : Layout) (p : Nat) : Nat := l.tokens * l.keyRow + p * l.valueRow
/-- SUMMARY_LEN (R131). -/
def Layout.summaryLen (l : Layout) : Nat := if l.cairn then l.keyLen else 0
/-- Payload bytes of one layer of one token (R113). -/
def Layout.tokenBytes (l : Layout) : Nat :=
  if l.latent then 2 * (l.latentRank + l.ropeDims) else l.kvHeads * 4 * l.headDim

/-- The 16 bytes of a layout record (R58). -/
def Layout.encode (l : Layout) : List Byte :=
  le 1 l.tpp ++ le 1 l.kvHeads ++ le 2 l.headDim ++ le 1 l.keyFormat ++ le 1 l.valueFormat ++
  le 2 ((if l.latent then 1 else 0) + (if l.cairn then 2 else 0)) ++ le 2 l.latentRank ++ le 2 l.ropeDims ++
  le 2 l.layers ++ zeros 2

/-- The layout a record spells, without its checks. -/
def Layout.decode (b : List Byte) : Layout :=
  { tpp := fieldAt b 0 1, kvHeads := fieldAt b 1 1, headDim := fieldAt b 2 2, keyFormat := fieldAt b 4 1
    valueFormat := fieldAt b 5 1, latent := bit (fieldAt b 6 2) 0, cairn := bit (fieldAt b 6 2) 1
    latentRank := fieldAt b 8 2, ropeDims := fieldAt b 10 2, layers := fieldAt b 12 2 }

/-- The record checks that give LAYOUT_FORMAT (R58, R104, R105, R429). -/
def Layout.recordOk (b : List Byte) : Bool :=
  let l := Layout.decode b
  let mul32 := fun n => n % 32 == 0
  b.length == 16 && l.tpp ≤ 3 && fieldAt b 6 2 < 4 && zeroAt b 14 2 &&
  (fmtOf l.keyFormat).isSome && (l.latent || (fmtOf l.valueFormat).isSome) &&
  1 ≤ l.layers && l.layers ≤ 256 &&
  (if l.latent then
    l.kvHeads == 1 && l.headDim == 0 && 1 ≤ l.latentRank && l.latentRank ≤ 1024 && l.ropeDims ≤ 128 &&
    (!(fmtD l.keyFormat).mx || (mul32 l.latentRank && mul32 l.ropeDims))
  else
    1 ≤ l.kvHeads && l.kvHeads ≤ 64 && 1 ≤ l.headDim && l.headDim ≤ 256 && l.latentRank == 0 && l.ropeDims == 0 &&
    ((!(fmtD l.keyFormat).mx && !(fmtD l.valueFormat).mx) || mul32 l.headDim))

/-! ## Freeze -/

/-- The code of an exact value in a format, clamped to the largest finite value, with no negative zero (R116, R118,
R121). -/
def freezeCode (f : Fmt) (v : Dy) : Nat :=
  let c := min (roundMag f.mb f.emin v.frac.1 v.frac.2) f.maxCode
  if v.m < 0 && c != 0 then c + 2 ^ (f.bits - 1) else c

/-- Whether an FP8 element is saturated (R119). -/
def saturates (f : Fmt) (v : Dy) : Bool :=
  let top := codeMag f.mb f.emin f.maxCode
  !f.mx && f.bits == 8 && !(Dy.le ⟨v.m.natAbs, v.e⟩ top)

/-- The scale exponent of a block (R120). -/
def blockExp (f : Fmt) (vs : List Dy) : Int :=
  let m := vs.foldl (fun acc v => if Dy.le acc ⟨v.m.natAbs, v.e⟩ then ⟨v.m.natAbs, v.e⟩ else acc) (⟨0, 0⟩ : Dy)
  if m.m = 0 then 0 else max (floorLog2 m.frac.1 m.frac.2 - f.emax) (-127)

/-- Splits a list into pieces of n. -/
def groupsOf {α : Type} (n : Nat) (l : List α) : List (List α) :=
  (List.range (ceilDiv l.length n)).map fun k => (l.drop (n * k)).take n

/-- Packs element codes from the least significant bit upward (R107). -/
def packCodes (width : Nat) (codes : List Nat) : List Byte :=
  le (codes.length * width / 8) (codes.foldr (fun c acc => c + 2 ^ width * acc) 0)

/-- The element codes of n elements in a field's code bytes (R107). -/
def unpackCodes (width n : Nat) (bs : List Byte) : List Nat :=
  let v := leNat (bs.take (n * width / 8))
  (List.range n).map fun j => v / 2 ^ (width * j) % 2 ^ width

/-- The stored bytes of a field of BF16 elements (R106, R117-R121). -/
def freezeField (code : Nat) (elems : List Nat) : List Byte :=
  let f := fmtD code
  let vs := elems.map bf16Val
  if code = 0 then packCodes 16 (elems.map fun c => if c = 0x8000 then 0 else c)
  else if f.mx then
    let blocks := groupsOf 32 vs
    let exps := blocks.map (blockExp f)
    let codes := (List.zipWith (fun b x => b.map fun v => freezeCode f ⟨v.m, v.e - x⟩) blocks exps).flatten
    packCodes f.bits codes ++ exps.map fun x => BitVec.ofNat 8 (x + 127).toNat
  else packCodes f.bits (vs.map (freezeCode f))

/-- Saturated elements of a field (R119). -/
def freezeSats (code : Nat) (elems : List Nat) : Nat :=
  (elems.filter fun c => saturates (fmtD code) (bf16Val c)).length

/-- BF16 elements of a byte string. -/
def bf16s (bs : List Byte) : List Nat := (chunks 2 bs).map leNat

/-- The stored key (or latent) row of a token's elements. -/
def Layout.freezeKey (l : Layout) (elems : List Nat) : List Byte :=
  if l.latent then freezeField l.keyFormat (elems.take l.latentRank) ++ freezeField l.keyFormat (elems.drop l.latentRank)
  else freezeField l.keyFormat elems

/-! ## Thaw -/

/-- The exact value of an element code under a scale exponent; none for a code that R126 names (R123). -/
def thawCode (f : Fmt) (x : Int) (code : Nat) : Option Dy :=
  let mag := code % 2 ^ (f.bits - 1)
  if f.bits = 16 then some (bf16Val code) else
  if mag > f.maxCode then none else
  let v := codeMag f.mb f.emin mag
  some ⟨if code ≥ 2 ^ (f.bits - 1) then -v.m else v.m, v.e + x⟩

/-- The exact values of a field of n elements (R123); none where a code or a scale is a format fault (R126). -/
def thawField (code n : Nat) (bs : List Byte) : List (Option Dy) :=
  let f := fmtD code
  let codes := unpackCodes f.bits n bs
  let scales := bs.drop (n * f.bits / 8)
  (List.range n).map fun j =>
    if f.mx then
      let sc := (scales.getD (j / 32) 255).toNat
      if sc = 255 then none else thawCode f ((sc : Int) - 127) (codes.getD j 0)
    else thawCode f 0 (codes.getD j 0)

/-- The key of a row: latent field then rope field in a latent layout (R110, R123). -/
def Layout.thawKey (l : Layout) (row : List Byte) : List (Option Dy) :=
  if l.latent then
    let a := (fmtD l.keyFormat).bytes l.latentRank
    thawField l.keyFormat l.latentRank (row.take a) ++ thawField l.keyFormat l.ropeDims (row.drop a)
  else thawField l.keyFormat l.headDim row

/-- All values of a list, or none. -/
def allSome {α : Type} (l : List (Option α)) : Option (List α) :=
  match l with
  | [] => some []
  | none :: _ => none
  | some x :: rest => (allSome rest).map (x :: ·)

/-! ## The page tail (R130) -/

/-- The header of a tail, offsets 0 to 63. -/
def tailHeader (cid layoutIdx flags index first layer head fill : Nat) (l : Layout) (norm sat : Nat) : List Byte :=
  le 6 cid ++ le 1 layoutIdx ++ le 1 flags ++ le 4 index ++ le 4 first ++ le 2 layer ++ le 1 head ++ le 1 fill ++
  le 1 l.keyFormat ++ le 1 (if l.latent then 0 else l.valueFormat) ++ le 2 l.summaryLen ++ le 4 norm ++ le 2 sat ++
  zeros 34

/-- The summary of R132: mean of each key element over the filled positions, rounded once to BF16; no negative zero is
stored (R116). -/
def summaryOf (fill len : Nat) (keys : List (List Dy)) : List Nat :=
  (List.range len).map fun j =>
    let t := Dy.sum (keys.map fun k => k.getD j ⟨0, 0⟩)
    let r := roundBf16 (t.m < 0) t.frac.1 (t.frac.2 * fill)
    if r = 0x8000 then 0 else r

/-- KEY_NORM_MAX of R132. -/
def normMax (keys : List (List Dy)) : Nat :=
  (keys.map fun k => sqrtFp32 (Dy.sum (k.map fun v => v.mul v))).foldl max 0

/-- The sealed tail and data of a frame: rows at FILL and above zeroed, header, segments and summary written, and SEAL
over bytes 0 to 65,527 (R132-R134). `first` is FIRST_TOKEN, `frame` the frame's 65,536 bytes before sealing. A stored key
code that R126 calls a format fault counts as 0 in the summary and the norm, and is neither counted nor reported here (DESIGN
CHOICE, log entry 75). -/
def sealFrameAt (l : Layout) (cid layoutIdx index first layer head fill sat : Nat) (frame : List Byte) : List Byte :=
  let keyPlane := frame.take (fill * l.keyRow) ++ zeros ((l.tokens - fill) * l.keyRow)
  let valPlane := slice frame (l.tokens * l.keyRow) (fill * l.valueRow) ++ zeros ((l.tokens - fill) * l.valueRow)
  let data := keyPlane ++ valPlane ++ zeros (Config.dataBytes - l.pageBytes)
  let segs := slice frame (Config.dataBytes + 64) (2 * fill) ++ zeros (256 - 2 * fill)
  let keys := (List.range fill).map fun p =>
    (l.thawKey (slice frame (l.keyAt p) l.keyRow)).map fun v => v.getD ⟨0, 0⟩
  let summary := if l.cairn then summaryOf fill l.keyLen keys else []
  let norm := if l.cairn then normMax keys else 0
  let hdr := tailHeader cid layoutIdx 3 index first layer head fill l norm (min sat 65535)
  let body := hdr ++ segs ++ (summary.map (le 2)).flatten
  let whole := data ++ body ++ zeros (4088 - body.length)
  whole ++ le 8 (crc64 whole)

/-- The sealed frame of a conversation's page: FIRST_TOKEN is the page index times T (R131). -/
def sealFrame (l : Layout) (cid layoutIdx index layer head fill sat : Nat) (frame : List Byte) : List Byte :=
  sealFrameAt l cid layoutIdx index (index * l.tokens) layer head fill sat frame

/-- The sealed frame of a page of a drift block: CID 0, and FIRST_TOKEN counted from the block's first position
(R332). -/
def sealBlockFrame (l : Layout) (layoutIdx first index layer head fill sat : Nat) (frame : List Byte) : List Byte :=
  sealFrameAt l 0 layoutIdx index first layer head fill sat frame

/-- Whether bytes end in their own CRC-32C. -/
def crcSealed (b : List Byte) : Bool := b.length ≥ 20 && leNat (b.drop (b.length - 4)) == crc32c (b.take (b.length - 4))

/-- Whether a frame's SEAL verifies (R133, R137). -/
def sealOk (frame : List Byte) : Bool :=
  frame.length == Config.frameBytes && fieldAt frame 65528 8 == crc64 (frame.take 65528)

end Sys2Proof.Machine
end

