-- ==== Sys2Proof/Machine/Score.lean ====
section
/-! DEFINITION. Score arithmetic: query rows (R191-R197), raw and scaled scores (R199-R201), the modifier
micro-program (R203-R213), exp2 (R216), tanh (R217), values (R218) and what one descriptor adds to each row (R219). -/
namespace Sys2Proof.Machine

/-! ## exp2 (R216) -/

/-- EXP2_T[i] = round(2^(i/1024) * 2^40): the largest n with n - 1/2 at most that value, found bit by bit from
(2n - 1)^1024 ≤ 2^(41 * 1024 + i). -/
def exp2T (i : Nat) : Nat :=
  (List.range 42).reverse.foldl (fun acc k =>
    if (2 * (acc + 2 ^ k) - 1) ^ 1024 ≤ 2 ^ (41 * 1024 + i) then acc + 2 ^ k else acc) 0

/-- round(ln 2 * 2^32). -/
def ln2Q : Nat := 0xB17217F8

/-- A weight, or a breach of the anchor (R216). -/
inductive Weight where
  | breach
  | weight (p : Nat)
deriving DecidableEq, Repr

/-- The weight 2^e of an exact exponent e, as Q8.40 (R216). -/
def exp2Exact (e : Dy) : Weight :=
  let xf := e.floorShift 30
  if xf ≥ 8 * 2 ^ 30 then .breach
  else if xf < -41 * 2 ^ 30 then .weight 0
  else
    let n := xf / 2 ^ 30
    let f := (xf % 2 ^ 30).toNat
    let t := exp2T (f / 2 ^ 20)
    let u := (f % 2 ^ 20 * ln2Q) / 2 ^ 30
    let m := u + u * u / 2 ^ 33
    let pf := t + t * m / 2 ^ 32
    .weight (pf * 2 ^ n.toNat / 2 ^ (-n).toNat)

/-- The weight of a final score, an FP32 code that is not NaN, under an anchor (R216). -/
def exp2 (x : Nat) (a : Int) : Weight :=
  if x = fp32Inf then .breach
  else if x = fp32Inf + 0x80000000 then .weight 0
  else exp2Exact ((fp32Val x).add (Dy.ofInt (-a)))

/-! ## tanh (R217) -/

/-- exp(1/512) with 256 fraction bits, from its power series. -/
def expStep : Nat :=
  ((List.range 40).foldl (fun (acc : Nat × Nat) k => (acc.1 + acc.2, acc.2 / (512 * (k + 1)))) (0, 2 ^ 256)).1

/-- exp(j/512) with 256 fraction bits: the product of the squarings that the bits of j select. -/
def expQ (j : Nat) : Nat :=
  ((List.range 14).foldl (fun (acc : Nat × Nat) k =>
    (if j.testBit k then acc.1 * acc.2 / 2 ^ 256 else acc.1, acc.2 * acc.2 / 2 ^ 256)) (2 ^ 256, expStep)).1

/-- TANH_T[j] = round(tanh(j/1024) * 2^32), with tanh y = (e^2y - 1) / (e^2y + 1). -/
def tanhT (j : Nat) : Nat :=
  let e := expQ j
  (2 * (e - 2 ^ 256) * 2 ^ 32 + (e + 2 ^ 256)) / (2 * (e + 2 ^ 256))

/-- tanh_t of an FP32 code (R217). -/
def tanhFp32 (t : Nat) : Nat :=
  if fp32IsNan t then t else
  let sign := if fp32Neg t then 0x80000000 else 0
  if fp32IsInf t then 0x3F800000 + sign else
  let a := fp32Val (t % 0x80000000)
  if Dy.le ⟨9, 0⟩ a then 0x3F800000 + sign
  else if !(Dy.le ⟨1, -12⟩ a) then t
  else
    let af := (a.floorShift 40).toNat
    let r := af % 2 ^ 30
    let y := tanhT (af / 2 ^ 30)
    let g := 2 ^ 32 - y * y / 2 ^ 32
    let d1 := g * r / 2 ^ 40
    let d2 := y * d1 / 2 ^ 32 * r / 2 ^ 40
    roundFp32 false (min (y + d1 - d2) (2 ^ 32)) (2 ^ 32) + sign

/-! ## The modifier micro-program -/

/-- The program of a record (R203). -/
def Modifier.decode (b : List Byte) : Modifier :=
  let len := fieldAt b 0 1
  let mask := fieldAt b 2 2
  let nvec := ((List.range 16).filter mask.testBit).length
  let w32s := fun off n => (List.range n).map fun k => BitVec.ofNat 32 (fieldAt b (off + 4 * k) 4)
  { ops := (w32s 16 16).take len
    vectorMask := mask
    scalars := w32s 80 16
    vectors := (List.range nvec).map fun v => w32s (144 + 1024 * v) 256
    bias := if bit (fieldAt b 1 1) 0 then some (w32s (144 + 1024 * nvec) 256) else none
    tag := digest64 b }

/-- Constant k for a query head (R207). -/
def Modifier.const (m : Modifier) (k head : Nat) : Nat :=
  if m.vectorMask.testBit k then
    ((m.vectors.getD ((List.range k).filter m.vectorMask.testBit).length []).getD head 0).toNat
  else (m.scalars.getD k 0).toNat

/-- Fields of a micro-op word (R204). -/
def opCode (w : W32) : Nat := bits w.toNat 31 28
def opK (w : W32) : Nat := bits w.toNat 27 24
def opImm (w : W32) : Nat := bits w.toNat 23 0

/-- Whether an operation uses a constant, two constants (k and k + 1), or a vector at all (R205). -/
def opTakesK (op : Nat) : Bool := [1, 2, 3, 4, 10].contains op
def opTakesTwo (op : Nat) : Bool := op == 3 || op == 10

/-- The checks of one micro-op (R213). -/
def opOk (m : Modifier) (w : W32) : Bool :=
  let op := opCode w
  1 ≤ op && op ≤ 10 &&
  (opTakesK op || opK w == 0) &&
  (!opTakesTwo op || opK w ≤ 14) &&
  (op == 5 || (op == 6 && opImm w < 2 ^ 23) || (op == 9 && opImm w < 32) || opImm w == 0) &&
  (op != 9 || m.bias.isSome) &&
  (op != 10 || (List.range 256).all fun h => fp32Le (m.const (opK w) h) (m.const (opK w + 1) h))

/-- Whether a record may be loaded: the checks of R213 that give MODIFIER_FORMAT. -/
def Modifier.recordOk (b : List Byte) : Bool :=
  let m := Modifier.decode b
  let flags := fieldAt b 1 1
  let finite := fun (w : W32) => fp32Finite w.toNat
  144 ≤ b.length && fieldAt b 0 1 ≤ 16 && flags < 2 && zeroAt b 4 12 &&
  b.length == 144 + 1024 * (m.vectors.length + (if bit flags 0 then 1 else 0)) &&
  zeroAt b (16 + 4 * fieldAt b 0 1) (64 - 4 * fieldAt b 0 1) &&
  ((List.range 16).all fun k => !m.vectorMask.testBit k || m.scalars.getD k 0 == 0) &&
  m.scalars.all finite && m.vectors.all (·.all finite) && (m.bias.getD []).all finite &&
  m.ops.all (opOk m)

/-- Whether a program uses a vector constant (R208). -/
def Modifier.usesVector (m : Modifier) : Bool :=
  m.ops.any fun w =>
    opTakesK (opCode w) && (m.vectorMask.testBit (opK w) || (opTakesTwo (opCode w) && m.vectorMask.testBit (opK w + 1)))

/-- The score and flags of a position as the program runs (R206). -/
structure ModState where
  x : Nat
  window : Bool := false
  sink : Bool := false
  causal : Bool := false
  segment : Bool := false
deriving DecidableEq, Repr

/-- What a position shows to the program (R207, R209). -/
structure Place where
  head : Nat
  d : Int
  kpos : Nat
  kseg : Nat
  qseg : Nat
deriving DecidableEq, Repr

/-- One micro-op (R205). -/
def Modifier.stepOp (m : Modifier) (pl : Place) (st : ModState) (w : W32) : ModState :=
  let k := m.const (opK w) pl.head
  let k1 := m.const (opK w + 1) pl.head
  let wimm : Int := (opImm w % 2 ^ 23 : Nat)
  match opCode w with
  | 1 => { st with x := fp32Mul st.x k }
  | 2 => { st with x := fp32Add st.x k }
  | 3 => { st with x := fp32Mul k1 (tanhFp32 (fp32Mul st.x k)) }
  | 4 => { st with x := fp32AddExact st.x ((fp32Val k).mul (Dy.ofInt pl.d)) }
  | 5 => { st with window := st.window || (if bit (opImm w) 23 then decide (pl.d < -wimm) else decide (pl.d > wimm)) }
  | 6 => { st with sink := st.sink || decide ((pl.kpos : Int) < wimm) }
  | 7 => { st with causal := st.causal || decide (pl.d < 0) }
  | 8 => { st with segment := st.segment || pl.kseg != pl.qseg }
  | 9 =>
    let i := min (pl.d.natAbs / 2 ^ (opImm w % 32)) 127 + (if pl.d < 0 then 128 else 0)
    { st with x := fp32Add st.x (((m.bias.getD []).getD i 0).toNat) }
  | 10 => if fp32IsNan st.x then st else { st with x := fp32Min (fp32Max st.x k) k1 }
  | _ => st

/-- The program's outcome on a scaled score (R206). -/
def Modifier.run (m : Modifier) (pl : Place) (x : Nat) : ModState :=
  m.ops.foldl (m.stepOp pl) { x := x }

/-- Whether a position below VALID is masked (R210). -/
def ModState.masked (st : ModState) : Bool := st.causal || st.segment || (st.window && !st.sink)

/-- The raw score of a row and a key, rounded once (R199). -/
def rawScore (q k : List Dy) : Nat := (Dy.sum (List.zipWith Dy.mul q k)).toFp32

/-! ## Values (R218) -/

/-- The signed Q16.24 value of an exact number, and whether it saturated (R218). -/
def valueQ (v : Dy) : Int × Bool :=
  let mag : Dy := ⟨v.m.natAbs, v.e⟩
  let (n, sat) := if Dy.le ⟨1, 15⟩ mag then ((2 ^ 39 - 1 : Int), true) else (mag.floorShift 24, false)
  (if v.m < 0 then -n else n, sat)

/-! ## Query rows -/

/-- Bytes of a staged row: B_q of R197. -/
def rowBytes (fmt len : Nat) : Nat := (fmtD fmt).bytes len

/-- Whether a query format is allowed (R191). -/
def queryFormatOk (fmt len : Nat) : Bool := fmt == 0 || fmt == 1 || (fmt == 7 && len % 32 == 0)

/-- The exact elements of a staged row, or none for a non-finite element (R193). -/
def rowElems (fmt len : Nat) (row : List Byte) : Option (List Dy) :=
  if fmt = 0 && !(unpackCodes 16 len row).all bf16Finite then none else allSome (thawField fmt len row)

/-- One rotated element, rounded once to the query format; none on BF16 overflow (R194). -/
def rotateElem (fmt : Nat) (v : Dy) : Option Nat :=
  if fmt = 0 then
    let c := v.toBf16
    if bf16Finite c then some c else none
  else
    let c := min (roundMag 3 (-9) v.frac.1 v.frac.2) 0x7E
    some (if v.m < 0 then c + 0x80 else c)

/-- Rotates the last rd elements of a row by pairs (cos, sin) of FP32 codes (R194). -/
def rotateRow (fmt len rd : Nat) (split : Bool) (pairs : List (Nat × Nat)) (row : List Byte) : Option (List Byte) :=
  match rowElems fmt len row with
  | none => none
  | some es =>
    let base := len - rd
    let codes := unpackCodes (fmtD fmt).bits len row
    let ix := fun i => if split then (base + i, base + i + rd / 2) else (base + 2 * i, base + 2 * i + 1)
    let out := (List.range (rd / 2)).foldl (fun (acc : Option (List Nat)) i =>
      match acc with
      | none => none
      | some cs =>
        let (a, b) := ix i
        let (c, s) := pairs.getD i (0, 0)
        let ea := es.getD a ⟨0, 0⟩
        let eb := es.getD b ⟨0, 0⟩
        let c := fp32Val c
        let s := fp32Val s
        let neg := fun (v : Dy) => (⟨-v.m, v.e⟩ : Dy)
        match rotateElem fmt ((ea.mul c).add (neg (eb.mul s))), rotateElem fmt ((ea.mul s).add (eb.mul c)) with
        | some x, some y => some (setAt (setAt cs a x) b y)
        | _, _ => none) (some codes)
    out.map (packCodes (fmtD fmt).bits)

/-- The absorbed row of a BF16 row: element j is the exact sum over d of q[d] W[d][j], rounded once; none on overflow
(R195, R196). `w` gives the matrix entry. -/
def absorbRow (queryDim rank rope : Nat) (w : Nat → Nat → Dy) (row : List Byte) : Option (List Byte) :=
  match rowElems 0 (queryDim + rope) row with
  | none => none
  | some es =>
    let codes := (List.range rank).map fun j =>
      (Dy.sum ((List.range queryDim).map fun d => (es.getD d ⟨0, 0⟩).mul (w d j))).toBf16
    if codes.all bf16Finite then some (packCodes 16 codes ++ row.drop (2 * queryDim)) else none

/-- G_max and the row groups of R197: first and last row of each. -/
def rowGroups (fmt keyLen valueLen nRows : Nat) : List (Nat × Nat) :=
  let gMax := min 2048 (min (393216 / rowBytes fmt keyLen) (1179648 / (16 * valueLen + 16)))
  let g := ceilDiv nRows gMax
  (List.range g).map fun j => (j * nRows / g, (j + 1) * nRows / g - 1)

/-! ## One descriptor -/

/-- What scoring needs beside the page: the layout, the program, the scale, H, positions and segments of the query
tokens, and the anchor of each row of the KV head. -/
structure ScoreEnv where
  layout : Layout
  modifier : Modifier
  scale : Nat
  perHead : Nat
  qpos : List Nat
  qseg : List Nat
  anchor : Nat → Int

/-- The final score and mask of row n of a KV head at a page position (R199-R210). -/
def ScoreEnv.score (env : ScoreEnv) (head n kpos kseg : Nat) (q k : List Dy) : ModState :=
  let tok := n / env.perHead
  let pl : Place :=
    { head := head * env.perHead + n % env.perHead
      d := (env.qpos.getD tok 0 : Int) - kpos
      kpos := kpos, kseg := kseg, qseg := env.qseg.getD tok 0 }
  env.modifier.run pl (fp32Mul (rawScore q k) env.scale)

/-- A page position as thawed: token index, segment, key and value. -/
structure Position where
  kpos : Nat
  kseg : Nat
  key : List Dy
  value : List Dy

/-- What the summing pass finds at one position for one row. -/
inductive Hit where
  | masked
  | nan
  | breach (score : Nat)
  | add (p : Nat)
deriving DecidableEq, Repr

/-- The outcome of one position for row n (R210-R212, R216). -/
def ScoreEnv.hit (env : ScoreEnv) (head n : Nat) (q : List Dy) (pos : Position) : Hit :=
  let st := env.score head n pos.kpos pos.kseg q pos.key
  if st.masked then .masked
  else if fp32IsNan st.x then .nan
  else match exp2 st.x (env.anchor n) with
    | .breach => .breach st.x
    | .weight p => .add p

/-- The empty partial of E_v elements. -/
def Partial.zero (ev : Nat) : Partial := { n := List.replicate ev 0 }

/-- Adds one contribution to a partial (R218, R219). -/
def Partial.contribute (a : Partial) (p : Nat) (values : List (Int × Bool)) : Partial :=
  { a with
    n := List.zipWith (fun x v => x + p * v.1) a.n values
    l := a.l + p
    count := a.count + 1
    valueSat := a.valueSat || values.any (·.2) }

/-- One row over the positions of a descriptor (R219), and the NaN scores met. -/
def ScoreEnv.rowSum (env : ScoreEnv) (head n : Nat) (q : List Dy) (ps : List Position) : Partial × Nat × Option Nat :=
  ps.foldl (fun (acc : Partial × Nat × Option Nat) pos =>
    match env.hit head n q pos with
    | .masked => acc
    | .nan => ({ acc.1 with nanScore := true }, acc.2.1 + 1, acc.2.2)
    | .breach x => (acc.1, acc.2.1, some (match acc.2.2 with | none => x | some y => fp32Max x y))
    | .add p => (acc.1.contribute p (pos.value.map valueQ), acc.2.1, acc.2.2))
    (Partial.zero env.layout.valueLen, 0, none)

/-- The highest unmasked score of a row that is not a NaN; -infinity when there is none (R202, R246). -/
def ScoreEnv.rowMax (env : ScoreEnv) (head n : Nat) (q : List Dy) (ps : List Position) : Nat :=
  ps.foldl (fun acc pos =>
    let st := env.score head n pos.kpos pos.kseg q pos.key
    if st.masked || fp32IsNan st.x then acc else fp32Max acc st.x) (fp32Inf + 0x80000000)

/-- Saturated value elements of a descriptor: each position unmasked for at least one row of the group, once
(R218). -/
def ScoreEnv.valueSats (env : ScoreEnv) (head lo : Nat) (rows : List (List Dy)) (ps : List Position) : Nat :=
  ps.foldl (fun acc pos =>
    let used := (List.range rows.length).any fun i =>
      match env.hit head (lo + i) (rows.getD i []) pos with
      | .add _ => true
      | _ => false
    if used then acc + (pos.value.filter fun v => (valueQ v).2).length else acc) 0

/-- Adds two partials of a row (R250). -/
def Partial.add (a b : Partial) : Partial :=
  { n := List.zipWith (· + ·) a.n b.n
    l := a.l + b.l
    count := a.count + b.count
    valueSat := a.valueSat || b.valueSat
    nanScore := a.nanScore || b.nanScore }

/-- Adds the partials of two records, row by row (R250). -/
def addPartials (a b : List Partial) : List Partial := List.zipWith Partial.add a b

end Sys2Proof.Machine
end

