-- ==== Sys2Proof/Machine/Firn.lean ====
section
/-! DEFINITION. Result records: the header (R257), the bodies (R258-R262), combination (R249, R250, R269), and final
normalisation (R264-R267). -/
namespace Sys2Proof.Machine

/-- The header of a record, without BODY_LEN and CRC (R257). -/
structure FirnHdr where
  kind : Nat
  flags : Nat := 0
  source : Nat := 0
  mask : Nat := 0
  requestId : Nat := 0
  cid : Nat := 0
  layer : Nat := 0
  anchor : Int := 0
  snapshot : Nat := 0
  firstRow : Nat := 0
  rowCount : Nat := 0
  ev : Nat := 0
  participants : Nat := 1
  aux : Nat := 0
  modTag : Nat := 0
deriving DecidableEq, Repr

/-- The 64 header bytes of a record over a body (R257). -/
def FirnHdr.encode (h : FirnHdr) (body : List Byte) : List Byte :=
  let b := le 1 1 ++ le 1 h.kind ++ le 2 h.flags ++ le 2 h.source ++ le 2 h.mask ++ le 8 h.requestId ++ le 8 h.cid ++
    le 2 h.layer ++ le 2 (ofSigned 16 h.anchor) ++ le 4 h.snapshot ++ le 4 h.firstRow ++ le 4 h.rowCount ++ le 2 h.ev ++
    le 1 h.participants ++ le 1 0 ++ le 4 h.aux ++ le 4 body.length ++ le 8 h.modTag
  b ++ le 4 (crc32c (b ++ body))

/-- The header fields of a record's bytes. -/
def FirnHdr.decode (r : List Byte) : FirnHdr :=
  { kind := fieldAt r 1 1, flags := fieldAt r 2 2, source := fieldAt r 4 2, mask := fieldAt r 6 2
    requestId := fieldAt r 8 8, cid := fieldAt r 16 8, layer := fieldAt r 24 2
    anchor := toSigned 16 (fieldAt r 26 2), snapshot := fieldAt r 28 4, firstRow := fieldAt r 32 4
    rowCount := fieldAt r 36 4, ev := fieldAt r 40 2, participants := fieldAt r 42 1, aux := fieldAt r 44 4
    modTag := fieldAt r 52 8 }

/-- Whether the CRC of a record holds (R257). -/
def recordCrcOk (r : List Byte) : Bool := 64 ≤ r.length && fieldAt r 60 4 == crc32c (r.take 60 ++ r.drop 64)

/-- A record with bit 0 of its CRC inverted, where a fault strikes (R257, R634). -/
def struckRecord (struck : Bool) (r : List Byte) : List Byte := if struck then flipAt r 60 else r

/-- The CRC, length, version, PARTICIPANTS and reserved fields of a record (R257, R261). -/
def recordFrameOk (r : List Byte) : Bool :=
  recordCrcOk r && fieldAt r 0 1 == 1 && fieldAt r 43 1 == 0 && fieldAt r 2 2 < 16 && fieldAt r 4 2 < 1024 &&
  fieldAt r 22 2 == 0 && 1 ≤ fieldAt r 42 1 && fieldAt r 42 1 ≤ 16 &&
  fieldAt r 48 4 == r.length - 64

/-! ## FIRN bodies (R258-R261) -/

/-- Whether an integer fits w two's-complement bits. -/
def fitsBits (w : Nat) (i : Int) : Bool := -(2 ^ (w - 1) : Int) ≤ i && i ≤ 2 ^ (w - 1) - 1

/-- The width code of a row, at least the smallest that MIN_WIDTH allows (R259). -/
def widthCode (minWidth : Nat) (n : List Int) : Nat :=
  max minWidth (if n.all (fitsBits 64) then 0 else if n.all (fitsBits 96) then 1 else 2)

/-- Bytes of an element at a width code. -/
def widthBytes (code : Nat) : Nat := 8 + 4 * code

/-- The flag bits of a ROW_INFO byte (R260). -/
def rowFlags (a : Partial) : Nat :=
  (if a.valueSat then 4 else 0) + (if a.nanScore then 8 else 0) + (if a.count = 0 then 16 else 0) +
  (if a.count > 0 && a.l == 0 then 32 else 0)

/-- The body of a FIRN record; `anchors` is given when ANCHOR_VECTOR is 1 (R258). -/
def firnBody (minWidth : Nat) (anchors : Option (List Int)) (rows : List Partial) : List Byte :=
  pad16 (rows.map fun a => BitVec.ofNat 8 (rowFlags a + widthCode minWidth a.n)) ++
  (match anchors with
   | none => []
   | some as => pad16 ((as.map fun a => le 2 (ofSigned 16 a)).flatten)) ++
  (rows.map fun a => le 12 a.l ++ le 4 a.count).flatten ++
  (rows.map fun a =>
    let w := widthBytes (widthCode minWidth a.n)
    (a.n.map fun x => le w (ofSigned (8 * w) x)).flatten).flatten

/-- A FIRN record (R257, R258). -/
def firnRecord (h : FirnHdr) (minWidth : Nat) (anchors : Option (List Int)) (rows : List Partial) : List Byte :=
  let body := firnBody minWidth anchors rows
  h.encode body ++ body

/-- Anchors of a record's rows: the vector where it has one, else the header's for every row (R257). -/
def recordAnchors (r : List Byte) (h : FirnHdr) : List Int :=
  if bit h.flags 2 then
    (List.range h.rowCount).map fun k => toSigned 16 (fieldAt r (64 + roundUp h.rowCount 16 + 2 * k) 2)
  else List.replicate h.rowCount h.anchor

/-- The rows of a FIRN record's body, from each row's ROW_INFO, head offset and numerator offset. -/
def parseRows (r : List Byte) (ev heads : Nat) (infos : List Nat) (k off : Nat) : List Partial :=
  match infos with
  | [] => []
  | info :: rest =>
    let w := widthBytes (info % 4)
    { n := (List.range ev).map fun j => toSigned (8 * w) (fieldAt r (off + w * j) w)
      l := fieldAt r (heads + 16 * k) 12
      count := fieldAt r (heads + 16 * k + 12) 4
      valueSat := bit info 2
      nanScore := bit info 3 } :: parseRows r ev heads rest (k + 1) (off + w * ev)

/-- Offset of ROW_HEADS in a FIRN record. -/
def firnHeadsAt (h : FirnHdr) : Nat :=
  64 + roundUp h.rowCount 16 + (if bit h.flags 2 then roundUp (2 * h.rowCount) 16 else 0)

/-- A FIRN record's header, anchors and rows; none where R261 discards it. Padding after ROW_INFO and ANCHORS, and EMPTY or ZERO_WEIGHT
bits that disagree with COUNT and L, are not judged: R261 does not list them (DESIGN CHOICE, log entry 95). -/
def parseFirn (r : List Byte) : Option (FirnHdr × List Int × List Partial) :=
  let h := FirnHdr.decode r
  let infos := (slice r 64 h.rowCount).map BitVec.toNat
  let heads := firnHeadsAt h
  let nums := heads + 16 * h.rowCount
  let total := infos.foldl (fun acc i => acc + widthBytes (i % 4) * h.ev) nums
  if recordFrameOk r && h.kind == 1 && infos.length == h.rowCount && infos.all (fun i => i % 4 ≤ 2 && i < 64) &&
     h.aux == 0 && total == r.length && (!bit h.flags 2 || h.anchor == 0) then
    some (h, recordAnchors r h, parseRows r h.ev heads infos 0 nums)
  else none

/-- Whether the fields of R249 agree, overlap apart. -/
def combinableHdr (a b : FirnHdr) : Bool :=
  a.requestId == b.requestId && a.cid == b.cid && a.layer == b.layer && a.snapshot == b.snapshot &&
  a.modTag == b.modTag && a.firstRow == b.firstRow && a.rowCount == b.rowCount && a.ev == b.ev

/-- The record-level flags VALUE_SAT and NAN_SCORE of rows (R257). -/
def flagsOf (rows : List Partial) : Nat :=
  (if rows.any (·.valueSat) then 1 else 0) + (if rows.any (·.nanScore) then 2 else 0)

/-! ## Normalisation (R264-R267) -/

/-- o32 of a numerator over a denominator, +0 where L is 0 (R264, R265, R267). -/
def normFp32 (n : Int) (l : Nat) : Nat := if l = 0 then 0 else roundFp32 (n < 0) n.natAbs (l * 2 ^ 24)

/-- o16 from o32 (R264). -/
def normBf16 (o32 : Nat) : Nat := (fp32Val o32).toBf16

/-- The body of a NORM_BF16 (kind 2) or NORM_FP32 (kind 3) record (R262). -/
def normBody (kind : Nat) (rows : List Partial) : List Byte :=
  pad16 (rows.map fun a => BitVec.ofNat 8 (rowFlags a)) ++
  (rows.map fun a => (a.n.map fun x =>
    let o := normFp32 x a.l
    if kind = 2 then le 2 (normBf16 o) else le 4 o).flatten).flatten

/-! ## Compact rows (R268-R270) -/

/-- A compact row of a participant's own partial (R268). -/
def compactRow (anchor : Int) (a : Partial) : W32 × W32 × List W32 :=
  (BitVec.ofNat 32 (Dy.ofInt anchor).toFp32, BitVec.ofNat 32 (roundFp32 false a.l (2 ^ 40)),
   a.n.map fun x => BitVec.ofNat 32 (normFp32 x a.l))

/-- 2^(m1 - m) of two FP32 reference codes that hold integers, as an exact number. -/
def pow2Diff (m1 m : Nat) : Dy := ⟨1, ((fp32Val m1).floorShift 0) - ((fp32Val m).floorShift 0)⟩

/-- The combination of two compact rows (R269). -/
def combineCompact (a b : W32 × W32 × List W32) : W32 × W32 × List W32 :=
  let m := fp32Max a.1.toNat b.1.toNat
  let a1 := ((fp32Val a.2.1.toNat).mul (pow2Diff a.1.toNat m)).toFp32
  let a2 := ((fp32Val b.2.1.toNat).mul (pow2Diff b.1.toNat m)).toFp32
  let s := fp32Add a1 a2
  (BitVec.ofNat 32 m, BitVec.ofNat 32 s,
   List.zipWith (fun o1 o2 =>
     BitVec.ofNat 32 (if s = 0 then 0 else
       fp32Div (fp32Add (fp32Mul o1.toNat a1) (fp32Mul o2.toNat a2)) s)) a.2.2 b.2.2)

/-- The body of a COMPACT record: ROW_INFO, then REF, SUM and outputs of each row (R262). -/
def compactBody (infos : List Nat) (rows : List (W32 × W32 × List W32)) : List Byte :=
  pad16 (infos.map (BitVec.ofNat 8)) ++
  (rows.map fun r => le 4 r.1.toNat ++ le 4 r.2.1.toNat ++ (r.2.2.map fun o => le 4 o.toNat).flatten).flatten

/-- The body of a SCORE_MAX record (R262). -/
def scoreMaxBody (maxima : List W32) : List Byte := (maxima.map fun m => le 4 m.toNat).flatten

end Sys2Proof.Machine
end

