-- ==== Sys2Proof/Machine/Operands.lean ====
section
/-! DEFINITION. The operand forms of a command: the header bytes (R363), the header checks (R364, R365), the pool
hash (R50, R51), the legality table of R394 to R402, and the items that several payloads share (R403). -/
namespace Sys2Proof
open Machine

/-! ## The header -/

/-- Header bytes 0 to 59 (R363). -/
def Hdr.body (h : Hdr) : List Byte :=
  le 1 h.version.toNat ++ le 1 h.hdrWords.toNat ++ le 2 h.opcode.toNat ++ le 2 h.flags.toNat ++ le 1 h.status.toNat ++
  le 1 h.rsv7.toNat ++ le 8 h.requestId.toNat ++ le 8 h.targetId.toNat ++ le 2 h.layer.toNat ++
  le 2 h.deadlineUs.toNat ++ le 4 h.payloadLen.toNat ++ le 4 h.qpSeq.toNat ++ le 4 h.tenantEpoch.toNat ++
  le 8 h.param0.toNat ++ le 8 h.param1.toNat ++ le 2 h.reason.toNat ++ le 2 h.rsv58.toNat

/-- The 64 header bytes (R363). -/
def Hdr.bytes (h : Hdr) : List Byte := h.body ++ le 4 h.hdrCrc.toNat

/-- HDR_CRC is the CRC-32C of bytes 0 to 59 (R363). -/
def Hdr.crcOk (h : Hdr) : Bool := crc32c h.body == h.hdrCrc.toNat

/-- The header with its CRC set (R363). -/
def Hdr.signed (h : Hdr) : Hdr := { h with hdrCrc := BitVec.ofNat 32 (crc32c h.body) }

/-- The header of 64 bytes. -/
def Hdr.decode (b : List Byte) : Hdr :=
  { version := BitVec.ofNat 8 (fieldAt b 0 1), hdrWords := BitVec.ofNat 8 (fieldAt b 1 1)
    opcode := BitVec.ofNat 16 (fieldAt b 2 2), flags := BitVec.ofNat 16 (fieldAt b 4 2)
    status := BitVec.ofNat 8 (fieldAt b 6 1), rsv7 := BitVec.ofNat 8 (fieldAt b 7 1)
    requestId := BitVec.ofNat 64 (fieldAt b 8 8), targetId := BitVec.ofNat 64 (fieldAt b 16 8)
    layer := BitVec.ofNat 16 (fieldAt b 24 2), deadlineUs := BitVec.ofNat 16 (fieldAt b 26 2)
    payloadLen := BitVec.ofNat 32 (fieldAt b 28 4), qpSeq := BitVec.ofNat 32 (fieldAt b 32 4)
    tenantEpoch := BitVec.ofNat 32 (fieldAt b 36 4), param0 := BitVec.ofNat 64 (fieldAt b 40 8)
    param1 := BitVec.ofNat 64 (fieldAt b 48 8), reason := BitVec.ofNat 16 (fieldAt b 56 2)
    rsv58 := BitVec.ofNat 16 (fieldAt b 58 2), hdrCrc := BitVec.ofNat 32 (fieldAt b 60 4) }

/-- Flag bits (R364). -/
def Hdr.forward (h : Hdr) : Bool := h.flags.toNat.testBit 1
def Hdr.noKeep (h : Hdr) : Bool := h.flags.toNat.testBit 2

/-- The form checks of R365 that do not depend on the opcode. -/
def Hdr.formOk (h : Hdr) : Bool :=
  h.version == 1 && h.hdrWords == 16 && h.rsv7 == 0 && h.rsv58 == 0 && h.flags.toNat < 8 &&
  h.status == 0 && h.reason == 0 && !h.flags.toNat.testBit 0

/-- TARGET_ID[47:0]. -/
def Hdr.cid (h : Hdr) : Nat := h.targetId.toNat % 2 ^ 48
/-- PARAM0 and PARAM1 as numbers. -/
def Hdr.p0 (h : Hdr) : Nat := h.param0.toNat
def Hdr.p1 (h : Hdr) : Nat := h.param1.toNat

end Sys2Proof

namespace Sys2Proof.Machine

/-- The fingerprint of a command (R381). -/
def fingerprint (h : Hdr) (payload : List Byte) : W64 :=
  let b := h.body
  BitVec.ofNat 64 (crc64 (slice b 0 4 ++ slice b 16 10 ++ slice b 28 4 ++ slice b 40 16 ++ payload))

/-! ## The pool hash -/

/-- The fold of a CID (R50). -/
def cidFold (cid : Nat) : Nat :=
  Nat.xor (Nat.xor (cid % 65536) (cid / 2 ^ 16 % 65536)) (cid / 2 ^ 32 % 65536)

/-- The hash value of a 16-bit fold (R50). -/
def foldHash (f : Nat) : Nat := Nat.xor f (f / 256) % 4

/-- The hash value of a CID (R50). -/
def cidHash (cid : Nat) : Nat := foldHash (cidFold cid)

/-- The hash value of a Region ID (R51). -/
def regionHash (id : Nat) : Nat := foldHash (Nat.xor (cidFold (id % 2 ^ 48)) (id / 2 ^ 48 % 65536))

/-! ## Legality of an opcode (R394 to R402) -/

/-- Where an opcode is accepted from (R398). -/
inductive Origin where
  | any | manager | node
deriving DecidableEq, Repr

/-- The node states in which an opcode is legal (R395). -/
inductive LegalIn where
  | all | cfg | cfgSvc | svc | new | svcFenced | cfgSvcFenced
deriving DecidableEq, Repr

/-- Whether a node state is in a set of R395. -/
def LegalIn.holds (l : LegalIn) (n : NodeState) : Bool :=
  match l, n with
  | .all, .configurable => true
  | .all, .serving => true
  | .all, .degraded => true
  | .all, .fenced => true
  | .cfg, .configurable => true
  | .cfgSvc, .configurable => true
  | .cfgSvc, .serving => true
  | .cfgSvc, .degraded => true
  | .svc, .serving => true
  | .svc, .degraded => true
  | .new, .serving => true
  | .svcFenced, .serving => true
  | .svcFenced, .degraded => true
  | .svcFenced, .fenced => true
  | .cfgSvcFenced, .configurable => true
  | .cfgSvcFenced, .serving => true
  | .cfgSvcFenced, .degraded => true
  | .cfgSvcFenced, .fenced => true
  | _, _ => false

/-- Which shepherd core takes a command (R26 to R28): that of a conversation's owner, that of the hash of TARGET_ID[47:0], that of
a Region ID, or the lowest in service. -/
inductive PoolRule where
  | byCid | byHash | byRegion | lowest
deriving DecidableEq, Repr

/-- An opcode: its code, legality and reply bound (R394), the pool that takes it, the checks of its header fields
(R365), whether it needs role CACHE (R400), and whether NO_KEEP is allowed (R365). -/
structure OpSpec where
  code : Nat
  legal : LegalIn
  tenantFree : Bool
  origin : Origin
  /-- default deadline in µs; none for a fixed bound (R402) -/
  defaultUs : Option Nat
  pool : PoolRule
  hdrOk : Hdr → Bool
  cacheOnly : Bool := false
  keepOk : Bool := false

/-- Nothing in TARGET_ID, LAYER, PARAM0 and PARAM1. -/
def hdrNone (h : Hdr) : Bool := h.targetId == 0 && h.layer == 0 && h.param0 == 0 && h.param1 == 0
/-- A CID in TARGET_ID[47:0], and nothing in LAYER. -/
def hdrCid (h : Hdr) : Bool := h.targetId.toNat < 2 ^ 48 && h.layer == 0
/-- A CID alone. -/
def hdrCidOnly (h : Hdr) : Bool := hdrCid h && h.param0 == 0 && h.param1 == 0
/-- TARGET_ID in its low bits and LAYER, and nothing in PARAM0 and PARAM1 (R277, R324). -/
def hdrLayer (n : Nat) (h : Hdr) : Bool := h.targetId.toNat < 2 ^ n && h.param0 == 0 && h.param1 == 0
/-- PARAM0 below a bound and nothing else. -/
def hdrP0 (n : Nat) (h : Hdr) : Bool := h.targetId == 0 && h.layer == 0 && h.p0 < n && h.param1 == 0
/-- A region in TARGET_ID, PARAM0 below a bound, PARAM1 zero. -/
def hdrRegion (n : Nat) (h : Hdr) : Bool := h.layer == 0 && h.p0 < n && h.param1 == 0

/-- The defined opcodes (R394). -/
def opTable : List OpSpec := [
  ⟨0x0101, .all, true, .any, some 50, .lowest, hdrNone, false, false⟩,
  ⟨0x0102, .cfg, true, .manager, none, .lowest, hdrNone, false, false⟩,
  ⟨0x0103, .cfgSvc, true, .manager, none, .lowest, hdrNone, false, false⟩,
  ⟨0x0104, .cfg, true, .manager, none, .lowest, hdrNone, false, false⟩,
  ⟨0x0105, .svc, true, .manager, none, .lowest,
    fun h => h.targetId == 0 && h.layer == 0 && h.param1 == 0 && h.p0 < 65536 && bits h.p0 7 4 == 0, false, false⟩,
  ⟨0x0106, .svc, true, .manager, none, .lowest, hdrP0 4, false, false⟩,
  ⟨0x0107, .all, true, .any, some 50, .lowest,
    fun h => h.targetId.toNat < 2 ^ 24 && h.layer == 0 && h.p0 < 8 && h.param1 == 0, false, false⟩,
  ⟨0x0108, .all, true, .manager, none, .lowest,
    fun h => h.targetId.toNat < 2 ^ 24 && h.layer == 0 && h.p0 < 2 ^ 32 && h.p1 < 2 ^ 32, false, false⟩] ++ [
  ⟨0x0201, .new, false, .any, some 50, .byCid, hdrCidOnly, true, false⟩,
  ⟨0x0202, .svc, false, .any, none, .byCid, hdrCidOnly, false, false⟩,
  ⟨0x0203, .svc, false, .any, some 50, .byCid, hdrCidOnly, false, false⟩,
  ⟨0x0204, .svc, false, .any, some 50, .byCid, fun h => hdrCid h && h.p0 < 2 ^ 32 && h.param1 == 0, false, false⟩,
  ⟨0x0205, .new, false, .any, some 50, .byCid, fun h => hdrCid h && h.p0 < 2 ^ 48 && h.p1 < 2 ^ 32, true, false⟩,
  ⟨0x0206, .svc, false, .any, some 50, .byCid, hdrCidOnly, false, false⟩,
  ⟨0x0207, .svc, false, .any, some 50, .byCid, fun h => hdrCid h && h.p1 < 2 ^ 33, false, false⟩,
  ⟨0x0208, .svc, false, .any, some 50, .byCid, hdrCidOnly, false, false⟩,
  ⟨0x0209, .svc, false, .any, some 500, .byCid, fun h => hdrCid h && h.p0 < 1024 && h.p1 < 2 ^ 32, false, false⟩,
  ⟨0x020A, .svc, false, .node, some 200, .byCid, fun h => hdrCid h && h.param0 == 0 && h.p1 < 2 ^ 32, true, false⟩,
  ⟨0x020B, .svc, false, .node, some 200, .byCid, fun h => hdrCid h && h.param0 == 0 && h.p1 < 2 ^ 32, false, false⟩,
  ⟨0x020C, .svc, false, .any, some 50, .byCid, fun h => hdrCid h && h.p0 < 2 && h.param1 == 0, false, false⟩] ++ [
  ⟨0x0301, .svc, false, .any, some 50, .byCid, hdrLayer 48, false, true⟩,
  ⟨0x0302, .svc, false, .any, some 50, .byCid, hdrLayer 48, false, true⟩,
  ⟨0x0303, .new, false, .any, none, .byHash, hdrLayer 16, true, false⟩,
  ⟨0x0304, .svc, false, .any, some 50, .byCid, hdrLayer 48, false, true⟩,
  ⟨0x0305, .all, false, .any, some 50, .byHash, fun h => h.layer == 0 && h.param1 == 0, false, false⟩,
  ⟨0x0306, .all, false, .any, some 50, .byHash, fun h => h.layer == 0 && h.param1 == 0, false, false⟩,
  ⟨0x0307, .cfgSvc, false, .any, some 50, .lowest,
    fun h => h.targetId.toNat < 64 && h.layer == 0 && h.param0 == 0 && h.param1 == 0, false, false⟩,
  ⟨0x0308, .cfgSvc, false, .any, some 50, .lowest,
    fun h => h.targetId.toNat < 64 && h.layer == 0 && h.param0 == 0 && h.param1 == 0, false, false⟩] ++ [
  ⟨0x0401, .svc, false, .any, some 50, .byRegion, hdrRegion 1, false, false⟩,
  ⟨0x0402, .svc, false, .any, some 50, .byRegion, hdrRegion 4, false, false⟩,
  ⟨0x0403, .svc, false, .any, some 1000, .byRegion, hdrRegion (2 ^ 32), false, false⟩,
  ⟨0x0404, .svc, false, .any, some 10000, .byRegion, hdrRegion 1, false, false⟩,
  ⟨0x0405, .svc, false, .any, some 50, .byRegion, hdrRegion (2 ^ 48), false, false⟩,
  ⟨0x0406, .svc, false, .any, some 50, .byRegion, hdrRegion (2 ^ 48), false, false⟩,
  ⟨0x0407, .svc, false, .any, some 1000, .byRegion, fun h => h.layer == 0, false, false⟩,
  ⟨0x0408, .svc, false, .any, some 1000, .byRegion, fun h => h.layer == 0, false, false⟩,
  ⟨0x0409, .svc, false, .any, some 1000, .byRegion, fun h => h.layer == 0, false, false⟩,
  ⟨0x040A, .svc, false, .any, some 50, .byRegion, fun h => h.layer == 0 && h.param1 == 0, false, false⟩,
  ⟨0x040B, .svc, false, .any, some 50, .byRegion, hdrRegion 1, false, false⟩,
  ⟨0x040C, .svc, false, .any, some 1000, .byRegion, hdrNone, false, false⟩] ++ [
  ⟨0x0501, .cfg, true, .manager, none, .lowest, hdrP0 1024, false, false⟩,
  ⟨0x0502, .svc, false, .manager, none, .lowest, hdrP0 1024, false, false⟩,
  ⟨0x0503, .all, true, .any, some 50, .lowest, hdrNone, false, false⟩,
  ⟨0x0504, .svcFenced, true, .manager, none, .lowest,
    fun h => h.targetId == 0 && h.layer == 0 && h.param0 == 1 && h.param1 == 0, false, false⟩,
  ⟨0x0505, .all, true, .node, some 50, .lowest, fun h => hdrCid h && h.param0 == 0 && h.p1 < 2 ^ 32, false, false⟩] ++ [
  ⟨0x0601, .all, true, .any, none, .lowest, hdrNone, false, false⟩,
  ⟨0x0602, .cfgSvc, true, .manager, none, .lowest, hdrNone, false, false⟩,
  ⟨0x0603, .cfgSvcFenced, true, .manager, none, .lowest, hdrNone, false, false⟩,
  ⟨0x0604, .all, true, .manager, none, .lowest, fun h => h.targetId == 0 && h.layer == 0, false, false⟩,
  ⟨0x0605, .cfgSvc, true, .manager, none, .lowest, hdrNone, false, false⟩,
  ⟨0x0606, .cfgSvc, false, .any, none, .lowest, fun h => h.layer == 0 && h.param0 == 0 && h.param1 == 0, false, false⟩] ++ [
  ⟨0x0701, .all, false, .manager, some 50, .lowest,
    fun h => h.targetId.toNat < 65536 && h.layer == 0 && h.p0 < 2 ^ 32 && bits h.p0 15 8 == 0 && h.param1 == 0,
    false, false⟩,
  ⟨0x0702, .all, true, .any, some 100, .lowest,
    fun h => h.targetId.toNat < 256 && h.layer == 0 && h.param0 == 0 && h.param1 == 0, false, false⟩,
  ⟨0x0703, .all, false, .manager, some 100, .lowest, hdrP0 4, false, false⟩]

/-- The entry of an opcode (R394). -/
def opSpec (code : Nat) : Option OpSpec := opTable.find? fun o => o.code == code

/-- A result item: target address, remote key and length (R403). -/
structure ResultItem where
  addr : W64
  key : W32
  len : Nat
deriving DecidableEq, Repr

/-- The result item at an offset of a payload (R403). -/
def resultItemAt (b : List Byte) (off : Nat) : ResultItem :=
  { addr := BitVec.ofNat 64 (fieldAt b off 8), key := BitVec.ofNat 32 (fieldAt b (off + 8) 4), len := fieldAt b (off + 12) 4 }

end Sys2Proof.Machine
end

