-- ==== Sys2Proof/Machine/Packet.lean ====
section
/-! DEFINITION. The headers of the RoCEv2 packets that the node sends: Ethernet, IP, UDP and InfiniBand transport headers
in the byte order of their standards (R9), ECN-capable under ECT(0), with the UDP source port of the QP (R450) and without a
VLAN tag (R497). Fields whose values the manual leaves to those standards are those of log entry 72. -/
namespace Sys2Proof.Machine

/-- The w lowest bytes of a number, the highest first: network byte order (R9). -/
def be (w n : Nat) : List Byte := (le w n).reverse

/-- Where a packet goes and how it is marked. -/
structure Route where
  srcMac : Nat
  dstMac : Nat
  src : BitVec 128
  dst : BitVec 128
  dscp : Nat
  qp : Nat
  remoteQpn : Nat
deriving DecidableEq, Repr

/-- Whether an address is an IPv4-mapped one (R446, R454). -/
def isMapped (a : BitVec 128) : Bool := a.toNat / 2 ^ 32 == 0xFFFF

/-- The DSCP of a packet and ECT(0) as the traffic-class octet (R450, R497). -/
def trafficClass (dscp : Nat) : Nat := dscp % 64 * 4 + 2

/-- The Ethernet header, with no VLAN tag (R497). -/
def ethHeader (r : Route) : List Byte := be 6 r.dstMac ++ be 6 r.srcMac ++ be 2 (if isMapped r.dst then 0x0800 else 0x86DD)

/-- The IP header over n bytes: IPv4 where the remote address is a mapped one, else IPv6 (R446). -/
def ipHeader (r : Route) (n : Nat) : List Byte :=
  if isMapped r.dst then
    be 1 0x45 ++ be 1 (trafficClass r.dscp) ++ be 2 (20 + n) ++ be 2 (Config.ipField 0) ++ be 2 0x4000 ++ be 1 (Config.ipField 1) ++
    be 1 17 ++ be 2 (Config.ipField 2) ++ be 4 (r.src.toNat % 2 ^ 32) ++ be 4 (r.dst.toNat % 2 ^ 32)
  else
    be 4 (6 * 2 ^ 28 + trafficClass r.dscp * 2 ^ 20 + Config.ipField 3 % 2 ^ 20) ++ be 2 n ++ be 1 17 ++ be 1 (Config.ipField 1) ++
    be 16 r.src.toNat ++ be 16 r.dst.toNat

/-- The UDP source port of a QP (R450). -/
def udpSource (qp : Nat) : Nat := (0xC000 + qp) % 2 ^ 16

/-- The UDP header over n bytes: destination port 4791 (R446, R450). -/
def udpHeader (qp n : Nat) : List Byte := be 2 (udpSource qp) ++ be 2 4791 ++ be 2 (8 + n) ++ be 2 0

/-- The InfiniBand base transport header. -/
def bthHeader (opcode pad remoteQpn psn : Nat) (becn ask : Bool) : List Byte :=
  be 1 opcode ++ be 1 (pad * 16) ++ be 2 0xFFFF ++ be 1 (if becn then 0x40 else 0) ++ be 3 remoteQpn ++
  be 1 (if ask then 0x80 else 0) ++ be 3 psn

/-- The kinds of packet that the node sends, by the InfiniBand opcodes of their operations (R446, R489). -/
inductive PacketKind where
  | send | write (imm : Option W32) (addr : W64) (key : W32) | read | ack (syndrome : Nat) | cnp
deriving DecidableEq, Repr

/-- The BTH opcode of a packet of a message of one or more packets. -/
def bthOpcode (k : PacketKind) (first last : Bool) : Nat :=
  match k, first, last with
  | .send, true, true => 0x04
  | .send, true, false => 0x00
  | .send, false, false => 0x01
  | .send, false, true => 0x02
  | .write none _ _, true, true => 0x0A
  | .write (some _) _ _, true, true => 0x0B
  | .write _ _ _, true, false => 0x06
  | .write _ _ _, false, false => 0x07
  | .write none _ _, false, true => 0x08
  | .write (some _) _ _, false, true => 0x09
  | .read, true, true => 0x10
  | .read, true, false => 0x0D
  | .read, false, false => 0x0E
  | .read, false, true => 0x0F
  | .ack _, _, _ => 0x11
  | .cnp, _, _ => 0x81

/-- The acknowledgement header: syndrome and the responder's message number. -/
def aethHeader (syndrome : Nat) : List Byte := be 1 syndrome ++ be 3 (Config.ipField 4)

/-- The headers after the BTH: address and key of a write's first packet with the length of the whole, its immediate in the
last, and the acknowledgement header of responses. -/
def extHeader (k : PacketKind) (first last : Bool) (total : Nat) : List Byte :=
  match k with
  | .write imm addr key =>
    (if first then be 8 addr.toNat ++ be 4 key.toNat ++ be 4 total else []) ++
    (match imm with
      | some i => if last then be 4 i.toNat else []
      | none => [])
  | .read => if first || last then aethHeader 0x1F else []
  | .ack x => aethHeader x
  | .send | .cnp => []

/-- The syndrome of a NAK, by its kind. -/
def nakSyndrome (k : NakKind) : Nat :=
  match k with
  | .sequence => 0x60
  | .invalidRequest => 0x61
  | .remoteAccess => 0x62
  | .remoteOperational => 0x63

/-- All headers of a packet with n payload bytes, of a message of `total` bytes. The payload is padded to four bytes, and four
bytes of ICRC follow it. -/
def packetHeaders (r : Route) (k : PacketKind) (first last ask : Bool) (psn total n : Nat) : List Byte :=
  let pad := (4 - n % 4) % 4
  let ext := extHeader k first last total
  let below := 12 + ext.length + n + pad + 4
  ethHeader r ++ ipHeader r (8 + below) ++ udpHeader r.qp below ++
  bthHeader (bthOpcode k first last) pad r.remoteQpn psn (k == .cnp) ask ++ ext

/-- The bytes of IP, UDP and transport headers over which an ICRC is taken: those that change on the way count as ones. Positions are
from the IP header on (R449; log entry 72). -/
def icrcMasked (v4 : Bool) (hs : List Byte) : List Byte :=
  let n := if v4 then 20 else 40
  let ones := (if v4 then [1, 8, 10, 11] else [1, 2, 3, 7]) ++ [n + 6, n + 7, n + 12]
  let hs := ones.foldl (fun l i => setAt l i 0xFF) hs
  if v4 then hs else setAt hs 0 0x6F

/-- The ICRC of a packet: CRC-32 over eight bytes of ones, the masked headers, and the padded payload (R449; log entry 72). -/
def icrcOf (r : Route) (headers payload : List Byte) : Nat :=
  crc 32 0x04C11DB7 0xFFFFFFFF true true
    (List.replicate 8 0xFF ++ icrcMasked (isMapped r.dst) (headers.drop 14) ++ payload ++ zeros ((4 - payload.length % 4) % 4))

/-- The ICRC bytes of a packet; one that would carry poison leaves with its ICRC inverted (R449, R617). -/
def icrcBytes (r : Route) (bad : Bool) (headers payload : List Byte) : List Byte :=
  le 4 (if bad then Nat.xor (icrcOf r headers payload) 0xFFFFFFFF else icrcOf r headers payload)

/-! ## The management lane (R643, R649, R717) -/

/-- The seed of the identity key pair. -/
def identitySeed : List Byte := sha (ascii "LHD-FN40-ID" ++ Config.deviceSecret)
/-- The identity public key. -/
def identityKey : List Byte := Config.mlDsaPublic identitySeed
/-- The identity digest. -/
def identityDigest : List Byte := sha identityKey

/-- The lane's MAC address: 0x02, then bytes 0 to 4 of the identity digest (R649). -/
def laneMac : List Byte := le 1 2 ++ identityDigest.take 5

/-- The IPv6 link-local address formed from a MAC address: fe80::/64, and the MAC around 0xFFFE with bit 1 of its first byte inverted
(R649). -/
def linkLocal (mac : List Byte) : List Byte :=
  [0xFE, 0x80] ++ zeros 6 ++ (mac.take 1).map (fun b => b ^^^ 2) ++ slice mac 1 2 ++ [0xFF, 0xFE] ++ mac.drop 3

/-- The UDP port of the lane: 49,401 in RECOVERY_LISTEN, else 49,400 (R649, R717). -/
def lanePort (recovery : Bool) : Nat := if recovery then 49401 else 49400

/-- The headers of a datagram of n bytes on the lane: a HELLO goes to ff02::1, any other message to the host. The host's addresses and port,
and what the standards leave to the sender, are free values, drawn for each datagram by its number (R649, R717; log entry 72). -/
def laneHeaders (recovery hello : Bool) (number n : Nat) : List Byte :=
  let free := fun (k : Nat) => Config.ipField (16 + 8 * number + k)
  (if hello then [0x33, 0x33, 0, 0, 0, 1] else be 6 (free 0)) ++ laneMac ++ be 2 0x86DD ++
  be 4 (6 * 2 ^ 28 + free 1 % 2 ^ 28) ++ be 2 (8 + n) ++ be 1 17 ++ be 1 (free 2) ++ linkLocal laneMac ++
  (if hello then [0xFF, 0x02] ++ zeros 13 ++ [1] else be 8 (free 3) ++ be 8 (free 4)) ++
  be 2 (lanePort recovery) ++ be 2 (if hello then lanePort true else free 5) ++ be 2 (8 + n) ++ be 2 (free 6)

end Sys2Proof.Machine
end

