-- ==== Sys2Proof/Machine/WordCode.lean ====
section
/-! DEFINITION. The word code WC-256: a Reed-Solomon code over GF(2^8) with 32 data and 4 check symbols (R610-R612),
and poison (R615). A stored word is its 36 symbols: d_0 to d_31, then c_0 to c_3. -/
namespace Sys2Proof.Machine

/-- Multiplication by alpha = 0x02 modulo 0x11D (R610). -/
def gfDouble (a : Nat) : Nat := if a ≥ 128 then Nat.xor (2 * a) 0x11D else 2 * a

/-- Product in GF(2^8): the terms of b, lowest bit first (R610). -/
def gfMulBits (fuel a b : Nat) : Nat :=
  match fuel with
  | 0 => 0
  | fuel + 1 => Nat.xor (if b % 2 = 1 then a else 0) (gfMulBits fuel (gfDouble a) (b / 2))

/-- Product in GF(2^8) (R610). -/
def gfMul (a b : Nat) : Nat := gfMulBits 8 a b

/-- alpha^n. -/
def gfPow (n : Nat) : Nat := Nat.repeat gfDouble n 1

/-- One step of the division by g(x) = x^4 + 0x0F x^3 + 0x36 x^2 + 0x78 x + 0x40 (R610): the remainder (c_0 to c_3)
after the next higher-order symbol d has been taken in. -/
def wcShift (r : Nat × Nat × Nat × Nat) (d : Nat) : Nat × Nat × Nat × Nat :=
  let f := Nat.xor r.2.2.2 d
  (gfMul f 0x40, Nat.xor r.1 (gfMul f 0x78), Nat.xor r.2.1 (gfMul f 0x36), Nat.xor r.2.2.1 (gfMul f 0x0F))

/-- The check symbols c_0 to c_3 of 32 data symbols (R611). -/
def wcCheck (data : List Nat) : List Nat :=
  let r := data.reverse.foldl wcShift (0, 0, 0, 0)
  [r.1, r.2.1, r.2.2.1, r.2.2.2]

/-- The symbols of a stored word in the order of their positions: c_0 to c_3, then d_0 to d_31 (R611). -/
def wcPositions (word : List Nat) : List Nat := word.drop 32 ++ word.take 32

/-- The syndrome S_k = c(alpha^k), by Horner's rule from the highest position (R612). -/
def wcSyndrome (word : List Nat) (k : Nat) : Nat :=
  (wcPositions word).reverse.foldl (fun acc sym => Nat.xor (gfMul acc (gfPow k)) sym) 0

/-- The poison syndrome: 0, then 0xA5 (1 + a^k + a^2k + a^3k) for k = 1 to 3 (R615). -/
def poisonSyndrome : List Nat :=
  (List.range 4).map fun k =>
    gfMul 0xA5 (Nat.xor (Nat.xor 1 (gfPow k)) (Nat.xor (gfPow (2 * k)) (gfPow (3 * k))))

/-- What the decoder finds (R612). -/
inductive WordClass where
  | clean | poison | corrected (position value : Nat) | uncorrectable
deriving DecidableEq, Repr

/-- The outcome for four syndromes, in the order of R612. -/
def classifySyndromes (s0 s1 s2 s3 : Nat) : WordClass :=
  if s0 = 0 ∧ s1 = 0 ∧ s2 = 0 ∧ s3 = 0 then .clean
  else if [s0, s1, s2, s3] = poisonSyndrome then .poison
  else
    match (List.range 36).find? fun p =>
      s0 != 0 && s1 == gfMul s0 (gfPow p) && s2 == gfMul s1 (gfPow p) && s3 == gfMul s2 (gfPow p) with
    | some p => .corrected p s0
    | none => .uncorrectable

/-- The decoder's outcome for a stored word (R612). -/
def classifyWord (word : List Nat) : WordClass :=
  classifySyndromes (wcSyndrome word 0) (wcSyndrome word 1) (wcSyndrome word 2) (wcSyndrome word 3)

/-- The symbols of a 288-bit pattern. -/
def wordSymbols (w : BitVec 288) : List Nat := (List.range 36).map fun i => w.toNat / 2 ^ (8 * i) % 256

/-- The stored word of 32 data bytes, with an error pattern over it (R611). -/
def storedWord (data : List Byte) (flip : BitVec 288) : List Nat :=
  let d := data.map BitVec.toNat
  List.zipWith Nat.xor (d ++ wcCheck d) (wordSymbols flip)

/-- The error pattern of a poisoned word: each check symbol XORed with 0xA5 (R615). -/
def poisonPattern : BitVec 288 := BitVec.ofNat 288 (0xA5A5A5A5 * 2 ^ 256)
/-- The error pattern of SYM1: one symbol XORed with 0x01 (R634). Which symbol is not stated: d_0 (log entry 13). -/
def sym1Pattern : BitVec 288 := 1
/-- The error pattern of SYM2: two symbols XORed with 0x01 (R634): d_0 and d_1 (log entry 13). -/
def sym2Pattern : BitVec 288 := 0x101

/-- The pattern that an injection of kind SYM1, SYM2 or POISON lays over a word (R634). -/
def injectedPattern (kind : Nat) : BitVec 288 :=
  if kind = 0 then sym1Pattern else if kind = 1 then sym2Pattern else if kind = 2 then poisonPattern else 0

end Sys2Proof.Machine
end

