-- ==== Sys2Proof/Machine/Ops.lean ====
section
/-! DEFINITION. The named operations over the state: time, memory, frames, queue pairs, posted messages, replies and
records. Every meaning reads and writes these parts of the state through them. -/
namespace Sys2Proof.Machine

/-! ## Parts of the state -/

/-- Instant in ns of Rime time: one cycle is 20 ns (R683). -/
def State.now (s : State) : Nat := 20 * s.clk.rime

/-- The Rime and PTP counts advance by one cycle; in OFF nothing counts (R37, R683; log entry 1). -/
def State.passCycle (s : State) : State :=
  if s.pwr.state = .off then s else
  { s with clk := { s.clk with rime := s.clk.rime + 1, ptp := s.clk.ptp + 20 } }

/-- Changes a part of the state. -/
def State.modNet (s : State) (f : Net → Net) : State := { s with net := f s.net }
def State.modTiers (s : State) (f : Tiers → Tiers) : State := { s with tiers := f s.tiers }
def State.modAttn (s : State) (f : Attn → Attn) : State := { s with attn := f s.attn }
def State.modRegions (s : State) (f : Regions → Regions) : State := { s with regions := f s.regions }
def State.modRecover (s : State) (f : Recover → Recover) : State := { s with recover := f s.recover }
def State.modNode (s : State) (f : Node → Node) : State := { s with node := f s.node }
def State.modTrust (s : State) (f : Trust → Trust) : State := { s with trust := f s.trust }
def State.modRegs (s : State) (f : Regs → Regs) : State := { s with regs := f s.regs }
def State.modUp (s : State) (f : Startup → Startup) : State := { s with up := f s.up }
def State.modPwr (s : State) (f : Power → Power) : State := { s with pwr := f s.pwr }
def State.modClk (s : State) (f : Clocks → Clocks) : State := { s with clk := f s.clk }
/-- Changes a conversation's entry, where there is one. -/
def State.modConv (s : State) (cid : Nat) (f : Conv → Conv) : State := { s with convs := Table.modify s.convs cid f }
/-- Changes a page's directory entry, where there is one. -/
def State.modPage (s : State) (pid : Nat) (f : Page → Page) : State :=
  s.modTiers fun t => { t with pages := Table.modify t.pages pid f }
/-- Changes a queue pair, where the state holds an entry for it. -/
def State.modQp (s : State) (i : Nat) (f : Qp → Qp) : State :=
  s.modNet fun n => { n with qps := Table.modify n.qps i f }
/-- Changes a partner's entry. -/
def State.modPartner (s : State) (j : Nat) (f : Partner → Partner) : State :=
  s.modRecover fun r => { r with partners := Table.modify r.partners j f }

/-- A conversation's entry. -/
def State.conv (s : State) (cid : Nat) : Option Conv := Table.get s.convs cid
/-- A page's directory entry. -/
def State.page (s : State) (pid : Nat) : Option Page := Table.get s.tiers.pages pid
/-- A queue pair; one never set up is in RESET. -/
def State.qp (s : State) (i : Nat) : Qp := Table.getD s.net.qps i {}
/-- A layout slot. -/
def State.layout (s : State) (i : Nat) : Option Layout := Table.get s.attn.layouts i

/-- Node ID: the profile's, 0 before one is loaded (R405). -/
def State.nodeId (s : State) : Nat := (s.node.profile.map (·.nodeId)).getD 0

/-- This node's fabric entry. -/
def State.selfEntry (s : State) : Option FabricNode :=
  s.node.fabric.bind fun f => f.nodes.find? fun n => n.id == s.nodeId

/-- The TWIN of this node's table entry, unless it has been declared lost (R408, R552). -/
def State.firstTwin (s : State) : Option Nat :=
  (s.selfEntry.map (·.twin)).filter fun j => decide (j < 1024) && !s.recover.lostNodes.contains j

/-- The TWIN2 of this node's table entry, a partner under G3 alone, unless it has been declared lost (R408, R552). -/
def State.secondTwin (s : State) : Option Nat :=
  (s.selfEntry.map (·.twin2)).filter fun j =>
    decide (j < 1024) && (s.node.profile.map (·.grade)) == some 3 && !s.recover.lostNodes.contains j

/-- The fabric entry of a node. -/
def State.fabricNode (s : State) (j : Nat) : Option FabricNode :=
  s.node.fabric.bind fun f => f.nodes.find? fun n => n.id == j

/-- The tenant epoch; 0 while no tenant is in (R371). -/
def State.epoch (s : State) : Nat := (s.trust.tenant.map (·.epoch)).getD 0

/-- Node state codes (R399). -/
def NodeState.code : NodeState → Nat
  | .off => 0
  | .rooting => 1
  | .training => 2
  | .configurable => 3
  | .serving => 4
  | .degraded => 5
  | .fenced => 6
  | .recovery => 7

/-- Role codes (R399). -/
def Role.code : Role → Nat
  | .cache => 0
  | .spare => 1
  | .twinOnly => 2

/-- The role of a code; CACHE for the undefined code. -/
def Role.ofCode (n : Nat) : Role := if n = 1 then .spare else if n = 2 then .twinOnly else .cache

/-- Conversation state codes (R66). -/
def ConvState.code : ConvState → Nat
  | .free => 0
  | .opened => 1
  | .sealed => 2
  | .moving => 3
  | .lost => 4

/-- The word that every REFUSED_STATE reply carries in PARAM1 (R399). -/
def State.stateWord (s : State) : Nat := s.node.state.code + 256 * s.node.role.code

/-- Committed length of a conversation: the minimum over its layers (R66). -/
def Conv.length (c : Conv) : Nat :=
  match c.committed with
  | [] => 0
  | x :: rest => rest.foldl min x

/-- PARAM0 of R66. -/
def Conv.word (c : Conv) : Nat := c.state.code + 2 ^ 32 * c.length

/-! ## Memory: the frames' bytes (R55) -/

/-- What an unlisted address reads as (log entry 5). -/
def Memory.background : Byte := 0

/-- The canonical form: addresses strictly rising, and no entry equal to the background. -/
def Memory.wf (m : List Host.Cell) : Bool :=
  match m with
  | [] => true
  | [c] => c.2 != Memory.background
  | c :: d :: rest => c.2 != Memory.background && decide (c.1 < d.1) && Memory.wf (d :: rest)

/-- One byte. -/
def Memory.byte (m : List Host.Cell) (a : Nat) : Byte := (Table.get m a).getD Memory.background

/-- `n` bytes from an address on, out of cells at rising addresses of which none lies below it. -/
def Memory.fill (a n : Nat) (cells : List Host.Cell) : List Byte :=
  match n, cells with
  | 0, _ => []
  | n + 1, [] => Memory.background :: Memory.fill (a + 1) n []
  | n + 1, (k, b) :: rest =>
    if k = a then b :: Memory.fill (a + 1) n rest else Memory.background :: Memory.fill (a + 1) n ((k, b) :: rest)

/-- `n` bytes from an address on. -/
def Memory.read (m : List Host.Cell) (a n : Nat) : List Byte :=
  Memory.fill a n (m.filter fun c => decide (a ≤ c.1) && decide (c.1 < a + n))

/-- The cells of a byte string at an address, background bytes left out. -/
def Memory.cells (a : Nat) (bs : List Byte) : List Host.Cell :=
  match bs with
  | [] => []
  | b :: rest => if b = Memory.background then Memory.cells (a + 1) rest else (a, b) :: Memory.cells (a + 1) rest

/-- Writes a byte string at an address. -/
def Memory.write (m : List Host.Cell) (a : Nat) (bs : List Byte) : List Host.Cell :=
  m.filter (fun c => decide (c.1 < a)) ++ Memory.cells a bs ++ m.filter (fun c => decide (a + bs.length ≤ c.1))

/-- Address of a frame's byte 0: hot frames first, then warm frames (log entry 5). -/
def frameAddr (t : Tier) (f : Nat) : Nat :=
  match t with
  | .hot => Config.frameBytes * f
  | .warm => Config.frameBytes * (Config.hotFrames + f)

/-- `n` bytes of a frame from an offset. -/
def State.readFrame (s : State) (t : Tier) (f off n : Nat) : List Byte := Memory.read s.tiers.mem (frameAddr t f + off) n

/-- The class of a stored word by its error pattern; the code is linear, so the data do not matter (R612). -/
def flipClass (w : BitVec 288) : WordClass := classifyWord (wordSymbols w)

/-- The error patterns left after a write of n bytes at an address: a word written whole is a new codeword, and a word
written in part is read, corrected and written back, so that only a corrected pattern goes (R615, R616). -/
def flipsAfterWrite (fl : Table (BitVec 288)) (a n : Nat) : Table (BitVec 288) :=
  fl.filter fun p =>
    let lo := 32 * p.1
    if a ≤ lo && lo + 32 ≤ a + n then false
    else if lo < a + n && a < lo + 32 then
      match flipClass p.2 with
      | .corrected _ _ => false
      | _ => true
    else true

/-- Generation of a frame (R143). -/
def Tiers.frameGen (x : Tiers) (t : Tier) (f : Nat) : Nat :=
  match t with
  | .hot => Table.getD x.hotGen f 0
  | .warm => Table.getD x.warmGen f 0

/-- Generation of a frame (R143). -/
def State.frameGen (s : State) (t : Tier) (f : Nat) : Nat := s.tiers.frameGen t f

/-- The number of a block of a frame in the address space: its byte address / 4096. -/
def blockNo (t : Tier) (f b : Nat) : Nat := frameAddr t f / 4096 + b

/-- The leaves of a tier's counter tree that a frame has: its sixteen WRITE_COUNTs, then its FRAME_GEN (R657; log entry 73). -/
def leafAt (f k : Nat) : Nat := 17 * f + k

/-- Levels of inner nodes of a counter tree; those of the highest are on the die (R657; log entry 73). -/
def treeLevels : Nat := 6

/-- The key of node i of a level of a tier's tree in the table of update counters; the leaves are level 0. -/
def nodeKey (t : Tier) (level i : Nat) : Nat :=
  (i * 8 + level) * 2 + match t with
    | .hot => 0
    | .warm => 1

/-- A field of the metadata has changed: every node above it counts an update (R657). -/
def Protect.touch (p : Protect) (t : Tier) (leaf : Nat) : Protect :=
  { p with
    updates := (List.range treeLevels).foldl (fun (u : Table Nat) n =>
      let k := nodeKey t (n + 1) (leaf / 16 ^ (n + 1))
      Table.set u k (Table.getD u k 0 + 1)) p.updates }

/-- A write to a block: its WRITE_COUNT rises, and it stands under the frame's generation (R143, R655). -/
def Protect.noteWrite (p : Protect) (t : Tier) (f gen b : Nat) : Protect :=
  let k := blockNo t f b
  Protect.touch
    { p with writes := Table.set p.writes k (Table.getD p.writes k 0 + 1), gens := Table.set p.gens k gen } t (leafAt f b)

/-- The blocks of a frame that n bytes from an offset touch. -/
def blocksOf (off n : Nat) : List Nat :=
  if n = 0 then [] else (List.range ((off + n - 1) / 4096 + 1 - off / 4096)).map fun k => off / 4096 + k

/-- Writes bytes of a frame from an offset. -/
def State.writeFrame (s : State) (t : Tier) (f off : Nat) (bs : List Byte) : State :=
  s.modTiers fun x =>
    { x with
      mem := Memory.write x.mem (frameAddr t f + off) bs
      protect := (blocksOf off bs.length).foldl (fun p b => p.noteWrite t f (x.frameGen t f) b) x.protect
      flips := flipsAfterWrite x.flips (frameAddr t f + off) bs.length }

/-- Zeroes a frame. -/
def State.clearFrame (s : State) (t : Tier) (f : Nat) : State :=
  s.writeFrame t f 0 (zeros Config.frameBytes)

/-! ## Frames (R143, R154, R155) -/

/-- Uses of the frames of a tier. -/
def State.frames (s : State) (t : Tier) : Table FrameUse :=
  match t with
  | .hot => s.tiers.hot
  | .warm => s.tiers.warm

/-- Number of frames of a tier (R161). -/
def tierFrames (t : Tier) : Nat :=
  match t with
  | .hot => Config.hotFrames
  | .warm => Config.warmFrames

/-- Sets the use of a frame. -/
def State.useFrame (s : State) (t : Tier) (f : Nat) (u : FrameUse) : State :=
  s.modTiers fun x =>
    match t with
    | .hot => { x with hot := Table.set x.hot f u }
    | .warm => { x with warm := Table.set x.warm f u }

/-- The stacks whose hot frames may be allocated: those not drained (R412). Hot frame f lies on stack f mod 8 (log entry 13). -/
def State.openStacks (s : State) : List Nat :=
  (List.range 8).filter fun k => !(s.node.drains.any fun d => d.scope == 4 && d.unit == k)

/-- The frames of a tier that may be allocated, as numbers without gaps: frame f of stack k is number f/8 times the open
stacks plus the place of k among them. -/
def hotIndex (hbm : List Nat) (f : Nat) : Nat := f / 8 * hbm.length + (hbm.findIdx (· == f % 8))
def hotFrame (hbm : List Nat) (i : Nat) : Nat := i / hbm.length * 8 + hbm.getD (i % hbm.length) 0

/-- The uses of the frames that may be allocated, by those numbers. -/
def State.usedFrames (s : State) (t : Tier) : Table FrameUse :=
  match t with
  | .hot => (s.tiers.hot.filter fun p => s.openStacks.contains (p.1 % 8)).map fun p => (hotIndex s.openStacks p.1, p.2)
  | .warm => s.tiers.warm

/-- Frames of a tier that are not on a drained stack. -/
def State.openFrames (s : State) (t : Tier) : Nat :=
  match t with
  | .hot => Config.hotFrames / 8 * s.openStacks.length
  | .warm => Config.warmFrames

/-- Free frames of a tier: those with no use; a retired frame keeps its entry (R174). -/
def State.freeFrames (s : State) (t : Tier) : Nat := s.openFrames t - (s.usedFrames t).length

/-- The frame of a number. -/
def State.frameAt (s : State) (t : Tier) (i : Nat) : Nat :=
  match t with
  | .hot => hotFrame s.openStacks i
  | .warm => i

/-- Frames available for allocation (R154, R155). -/
def State.avail (s : State) (t : Tier) : Nat :=
  match t with
  | .hot => s.freeFrames .hot - s.regs.hotReserve
  | .warm => s.freeFrames .warm - s.regs.twinReserve

/-- The n-th number that is no key of a table with rising keys. -/
def nthFree {α : Type} (t : Table α) (n : Nat) : Nat := t.foldl (fun r p => if p.1 ≤ r then r + 1 else r) n

/-- Takes a free frame, which the manual does not name (log entry 4), and zeroes it (R111, R130, R515). -/
def State.takeFrame (s : State) (t : Tier) (u : FrameUse) : Nat × State :=
  let (k, s) := s.drawBelow (s.freeFrames t)
  let f := s.frameAt t (nthFree (s.usedFrames t) k)
  (f, (s.useFrame t f u).clearFrame t f)

/-- Open pages of promoted conversations that wait for a hot frame (R165, R572). -/
def State.hotWaiters (s : State) : Nat := (s.tiers.pages.filter fun p => p.2.awaitsHot).length

/-- Frames that an allocation may take: the available ones, hot frames for the pages of R572 before any other. -/
def State.allocatable (s : State) (t : Tier) : Nat :=
  match t with
  | .hot => s.avail .hot - s.hotWaiters
  | .warm => s.avail .warm

/-- Takes an available frame of a tier (R154, R155). -/
def State.allocFrame (s : State) (t : Tier) (u : FrameUse) : Option (Nat × State) :=
  if s.allocatable t = 0 then none else some (s.takeFrame t u)

/-- A frame of HOT_RESERVE is used: what remains of it falls (R154, R572; log entry 89). -/
def State.useReserve (s : State) (t : Tier) : State :=
  match t with
  | .hot => s.modRegs fun r => { r with hotReserve := r.hotReserve - 1 }
  | .warm => s

/-- Takes a frame down to zero free frames: promotion, from what remains of HOT_RESERVE first (R572), twin writes and resync
(R155). -/
def State.allocReserve (s : State) (t : Tier) (u : FrameUse) : Option (Nat × State) :=
  if s.freeFrames t = 0 then none else some ((s.useReserve t).takeFrame t u)

/-- Takes n available frames of a tier, or none (R601). -/
def State.allocFrames (s : State) (t : Tier) (u : FrameUse) (n : Nat) : Option (List Nat × State) :=
  if s.allocatable t < n then none else
  some ((List.range n).foldl (fun (acc : List Nat × State) _ =>
    let (f, s) := acc.2.takeFrame t u
    (acc.1 ++ [f], s)) ([], s))

/-- A frame returns to FREE and its generation rises (R143); a retired frame stays retired (R174). -/
def State.freeFrame (s : State) (t : Tier) (f : Nat) : State :=
  if Table.get (s.frames t) f = some .retired then s else
  s.modTiers fun x =>
    let x := { x with protect := x.protect.touch t (leafAt f 16) }
    match t with
    | .hot => { x with hot := Table.erase x.hot f, hotGen := Table.set x.hotGen f (Table.getD x.hotGen f 0 + 1) }
    | .warm => { x with warm := Table.erase x.warm f, warmGen := Table.set x.warmGen f (Table.getD x.warmGen f 0 + 1) }

/-- A frame that returned an unreadable read is retired and counted (R174). -/
def State.retireFrame (s : State) (t : Tier) (f : Nat) : State :=
  if Table.get (s.frames t) f = some .retired then s
  else (s.useFrame t f .retired).bump Ctr.framesRetired

/-- The age tick of Rime time (R152). -/
def State.ageTick (s : State) : Nat := s.now / (1000 * max 1 s.regs.ageTickUs) % 2 ^ 48

/-- The retry-after hint of R165 for a deficit, from the moves of the governing evictor in the last millisecond. -/
def State.hint (s : State) (t : Tier) (deficit : Nat) : Nat :=
  let times := match t with
    | .hot => s.tiers.hotMoves
    | .warm => s.tiers.warmMoves
  let moved := (times.filter fun x => x + 1000000 ≥ s.now).length
  if moved = 0 then 65535 else min 65535 (max 10 (ceilDiv (deficit * 1000) moved))

/-! ## Ports and queue pairs -/

/-- Number of ports and rate of a port in Mb/s by PORT_MODE (R406, R490). -/
def State.portCount (s : State) : Nat :=
  match (s.node.profile.map (·.portMode)).getD 0 with
  | 1 => 16
  | 2 => 4
  | _ => 8
def State.lineRate (s : State) : Nat :=
  match (s.node.profile.map (·.portMode)).getD 0 with
  | 1 => 400000
  | 2 => 1600000
  | _ => 800000

/-- A data port. -/
def State.port (s : State) (p : Nat) : Port := s.net.ports.getD p {}
/-- Changes a data port. -/
def State.modPort (s : State) (p : Nat) (f : Port → Port) : State :=
  s.modNet fun n => { n with ports := modifyAt n.ports p f }

/-- The port a QP sends on (R495): its own, or the next one in service, cyclically upward. -/
def State.portOf (s : State) (qp : Nat) : Nat :=
  let p := s.portCount
  let home := qp % p
  match (List.range p).find? fun k => (s.port ((home + k) % p)).link && !(s.port ((home + k) % p)).drained with
  | some k => (home + k) % p
  | none => home

/-- The NODE QP index by which this node reaches node j (R459). -/
def State.nodeQp (s : State) (j : Nat) : Nat := (s.selfEntry.map (·.qpBase)).getD 2 + j - 2

/-- The node at the other end of a NODE QP. -/
def State.peerOf (s : State) (qp : Nat) : Nat := qp + 2 - (s.selfEntry.map (·.qpBase)).getD 2

/-- Whether a QP sends and receives (R453). -/
def State.rts (s : State) (qp : Nat) : Bool := (s.qp qp).state == .rts

/-- Whether the QP to a node is up. -/
def State.linkUp (s : State) (j : Nat) : Bool := s.rts (s.nodeQp j) && (s.qp (s.nodeQp j)).kind == .node

/-- The egress class of a QP's messages: SERVICE for HOST and SPILL QPs, else the class of the message (R496). -/
def State.classOf (s : State) (qp cls : Nat) : Nat := if (s.qp qp).kind = .node then cls else (s.qp qp).service

/-- The 64 header bytes of a reply (R363). -/
def Reply.header (r : Reply) : List Byte :=
  Hdr.bytes (Hdr.signed
    { opcode := r.opcode, flags := if r.flagRepeat then 1 else 0, status := BitVec.ofNat 8 r.status
      requestId := r.requestId, targetId := r.targetId, layer := r.layer, qpSeq := r.qpSeq
      tenantEpoch := BitVec.ofNat 32 r.epoch, param0 := r.param0, param1 := r.param1
      reason := BitVec.ofNat 16 r.reason })

/-- The ticket of reply n of a ring of SLOTS slots: generation and slot (R372, R373). -/
def replyTicket (slots n : Nat) : Nat := (n / slots % 255 + 1) * 2 ^ 24 + n % slots

/-- The 128 bytes of a reply slot (R373). -/
def Reply.slotBytes (r : Reply) (slots n outstanding : Nat) : List Byte :=
  let b := r.header ++ le 8 n ++ le 4 r.result.length ++ le 4 outstanding ++ le 8 r.resultTarget.toNat ++ zeros 32
  b ++ le 4 (crc32c b) ++ le 4 (replyTicket slots n)

/-- Payload bytes of an operation on the wire. -/
def WireOp.size : WireOp → Nat
  | .send b => b.length
  | .write _ _ b _ => b.length
  | .readResponse b => b.length
  | .ack _ => 0
  | .nak _ _ => 0
  | .rnrNak _ _ => 0
  | .cnp => 16
  | .reply _ _ _ _ _ => 128
  | .datagram b => b.length
  | .vote b => b.length
  | .badIcrc n => n

/-- The bytes that an operation carries on a QP; a packet that would carry poison has none that the manual gives (R373, R489,
R617). -/
def WireOp.image (o : WireOp) (q : Qp) : List Byte :=
  match o with
  | .send b => b
  | .write _ _ b _ => b
  | .readResponse b => b
  | .ack _ => []
  | .nak _ _ => []
  | .rnrNak _ _ => []
  | .cnp => zeros 16
  | .reply r n out _ _ => r.slotBytes q.slots n out
  | .datagram b => b
  | .vote b => b
  | .badIcrc _ => []

/-- The packets that an operation becomes. A reply on a HOST QP is a write with immediate, whose immediate is its TICKET
(R374); on a NODE QP it is a SEND. The RNR timer of 10.24 µs has code 1 (R464). -/
def WireOp.packetKind (o : WireOp) (q : Qp) : PacketKind :=
  match o with
  | .send _ => .send
  | .write a k _ imm => .write imm a k
  | .readResponse _ => .read
  | .ack _ => .ack 0x1F
  | .nak _ k => .ack (nakSyndrome k)
  | .rnrNak _ _ => .ack 0x21
  | .cnp => .cnp
  | .reply _ n _ a k => if q.kind = .node then .send else .write (some (BitVec.ofNat 32 (replyTicket q.slots n))) a k
  | .datagram _ => .send
  | .vote _ => .send
  | .badIcrc _ => .read

/-- The PSN that an acknowledgement-type packet carries. -/
def WireOp.psn (o : WireOp) : Nat :=
  match o with
  | .ack n => n
  | .nak n _ => n
  | .rnrNak n _ => n
  | _ => 0

/-- Where the packets of a QP go, and their DSCP: that of the class on a NODE QP, else the QP's own (R454, R460, R497). -/
def State.route (s : State) (qp cls : Nat) : Route :=
  let q := s.qp qp
  { srcMac := (s.selfEntry.map (·.mac.toNat)).getD 0, dstMac := q.mac.toNat, src := (s.selfEntry.map (·.address)).getD 0
    dst := q.remoteAddr, dscp := if q.kind = .node then bits (s.regs.svc.getD cls 0).toNat 29 24 else q.dscp, qp := qp
    remoteQpn := q.remoteQpn }

/-- Instants of the last minute. -/
def State.lastMinute (s : State) (l : List Nat) : List Nat := l.filter fun t => t + 60000000000 > s.now

/-- A port without its link. -/
def Port.down (p : Port) : Port := { p with link := false, lost := p.lost || p.link }

/-- A port whose link is up; one that had lost it has retrained (R440). -/
def State.linkOn (s : State) (p : Port) : Port :=
  { p with link := true, lost := false, retrains := s.lastMinute p.retrains ++ (if p.lost then [s.now] else []) }

/-- Whether a trigger counter has reached its threshold (R469). -/
def Trigger.fired (t : Trigger) : Bool := decide (t.threshold ≤ t.count)
/-- An advance of a trigger counter; one beyond the threshold has no effect (R469). -/
def Trigger.advance (t : Trigger) : Trigger := { t with count := min t.threshold (t.count + 1) }
/-- A trigger counter is armed again (R470). -/
def Trigger.rearm (t : Trigger) : Trigger := { t with count := 0 }

/-- Hands a message to the egress scheduler (R494); a QP that is not in RTS sends nothing (R453). -/
def State.post (s : State) (qp cls : Nat) (ops : List WireOp) (tag : Tag := .none) (held : Bool := false)
    (drift : Option (Nat × Nat) := none) : State :=
  if s.rts qp then
    s.modNet fun n =>
      { n with
        egress := n.egress ++ [{ uid := n.nextMsg, qp := qp, cls := s.classOf qp cls, ops := ops
                                 bytes := (ops.map WireOp.size).sum, tag := tag, held := held, posted := s.now
                                 drift := drift }]
        nextMsg := n.nextMsg + 1 }
  else s

/-- Writes a record to a host in one write chain, which ends in an RDMA WRITE with immediate; the manual gives that immediate no
value (R446, R447; log entry 96). -/
def State.writeChain (s : State) (qp : Nat) (addr : W64) (key : W32) (bytes : List Byte) (tag : Tag) : State :=
  let (imm, s) := s.drawWord
  s.post qp 0 [.write addr key bytes (some (imm.setWidth 32))] tag

/-- Whether an operation's packets leave with their ICRC inverted (R617). -/
def WireOp.isBad (o : WireOp) : Bool :=
  match o with
  | .badIcrc _ => true
  | _ => false

/-- Hands an acknowledgement-type packet of a QP to the scheduler, ready to leave: it takes no PSN and no turn among messages. A NODE
QP sends it in class 7, which the manual does not say (R494, R496; log entry 55). -/
def State.sendControl (s : State) (qp : Nat) (op : WireOp) : State :=
  let cls := s.classOf qp 7
  let route := s.route qp cls
  let headers := packetHeaders route (op.packetKind (s.qp qp)) true true false op.psn op.size op.size
  s.modNet fun n =>
    { n with control := n.control ++ [{ port := s.portOf qp, qp := qp, cls := cls, msg := n.nextMsg
                                        bytes := op.size, last := true, ops := [op], headers := headers
                                        payload := op.image (s.qp qp), icrc := icrcBytes route false headers (op.image (s.qp qp))
                                        posted := s.now }] }

/-- A management datagram, in class 7 on the management lane (R649, R717, R722); the lane is port 16 of the wire list. -/
def State.sendDatagram (s : State) (bs : List Byte) : State :=
  s.modNet fun n =>
    { n with wire := n.wire ++ [{ port := 16, qp := 0, cls := 7, msg := n.nextMsg, bytes := bs.length, last := true
                                  ops := [.datagram bs]
                                  headers := laneHeaders (s.node.state == .recovery) (s.node.state == .recovery && fieldAt bs 0 1 == 1) n.wire.length bs.length
                                  payload := bs }] }

/-- The SEND of a command packet to a node on its NODE QP, under the next QP_SEQ and the node's epoch (R363, R368). -/
def State.sendCommand (s : State) (j cls : Nat) (h : Hdr) (payload : List Byte) (tag : Tag := .none) : State :=
  let q := s.nodeQp j
  if s.linkUp j then
    let h := ({ h with
      version := 1, hdrWords := 16, qpSeq := BitVec.ofNat 32 (s.qp q).sentSeq, payloadLen := BitVec.ofNat 32 payload.length
      tenantEpoch := BitVec.ofNat 32 s.epoch } : Hdr).signed
    (s.modQp q fun x => { x with sentSeq := (x.sentSeq + 1) % 2 ^ 32 }).post q cls [.send (h.bytes ++ payload)] tag
  else s

/-! ## Pools (R26 to R28, R50 to R54) -/

/-- Pools in service. -/
def State.poolUp (s : State) (p : Nat) : Bool := !s.recover.poolsFailed.contains p && !s.recover.poolsDrained.contains p

/-- The lowest-numbered pool in service (R28). -/
def State.lowestPool (s : State) : Nat := ((List.range 4).find? s.poolUp).getD 0

/-- The pool that POOL_MAP gives a hash value (R52). -/
def State.mappedPool (s : State) (h : Nat) : Nat := s.regs.poolMap.getD h h

/-- The pool that takes a conversation's commands: its entry's owner, else the mapped one (R26, R53). -/
def State.poolOfCid (s : State) (cid : Nat) : Nat :=
  match s.conv cid with
  | some c => c.pool
  | none => s.mappedPool (cidHash cid)

/-- The pool that takes a command (R26 to R28). -/
def State.poolFor (s : State) (r : PoolRule) (h : Hdr) : Nat :=
  match r with
  | .byCid => s.poolOfCid h.cid
  | .byHash => s.mappedPool (cidHash h.cid)
  | .byRegion => s.mappedPool (regionHash h.targetId.toNat)
  | .lowest => s.lowestPool

/-! ## Replies -/

/-- How a command ends: status, reason, parameters, result bytes and where they go. -/
structure Ans where
  status : Nat
  reason : Nat := 0
  p0 : Nat := 0
  p1 : Nat := 0
  result : List Byte := []
  item : ResultItem := ⟨0, 0, 0⟩
  /-- the result is one that R385 may keep -/
  keep : Bool := false
  /-- the reply's REPEAT flag (R364) -/
  again : Bool := false
  /-- PARAM1 is the append's, under REFUSED_STATE too (R377) -/
  ownParam1 : Bool := false
deriving DecidableEq, Repr

/-- OK with two parameters. -/
def Ans.ok (p0 : Nat := 0) (p1 : Nat := 0) : Ans := { status := Status.ok, p0 := p0, p1 := p1 }
def Ans.param (reason : Nat) : Ans := { status := Status.refusedParam, reason := reason }
def Ans.state (reason : Nat) (p0 : Nat := 0) : Ans := { status := Status.refusedState, reason := reason, p0 := p0 }
def Ans.denied (reason : Nat) : Ans := { status := Status.denied, reason := reason }
def Ans.throttled (reason hint : Nat) : Ans := { status := Status.throttled, reason := reason, p0 := hint }
def Ans.miss (reason : Nat) : Ans := { status := Status.deadlineMiss, reason := reason }
def Ans.retry (reason : Nat) : Ans := { status := Status.retryContext, reason := reason }

/-- Subscriber numbers: 0 to 4,095 of HOST QPs, FABRIC for NODE and SPILL QPs (R500), and the management lane (R719). -/
def fabricSubscriber : Nat := 4096
def laneSubscriber : Nat := 4097

/-- The subscriber of a source (R381, R719). -/
def State.subscriberOf (s : State) (src : Src) : Nat :=
  match src with
  | .qp i => if (s.qp i).kind = .host then (s.qp i).subscriber else fabricSubscriber
  | .lane _ => laneSubscriber

/-- The reply to a command (R363, R399); that of an append keeps its own PARAM1 (R377). -/
def State.replyOf (s : State) (ctx : CmdCtx) (a : Ans) : Reply :=
  { opcode := ctx.opcode, requestId := ctx.requestId, targetId := ctx.targetId, layer := ctx.layer, qpSeq := ctx.qpSeq
    epoch := s.epoch, status := a.status, reason := a.reason
    param0 := BitVec.ofNat 64 a.p0
    param1 := BitVec.ofNat 64 (if a.status = Status.refusedState && !a.ownParam1 then s.stateWord else a.p1)
    flagRepeat := a.again
    resultTarget := if a.result.isEmpty then 0 else a.item.addr
    resultKey := if a.result.isEmpty then 0 else a.item.key
    result := a.result }

/-- Whether an opcode's messages between nodes are CONTROL messages (R496). -/
def controlOpcode (op : Nat) : Bool := op == 0x0505 || op == 0x020A || op == 0x020B

/-- Class of the reply on a NODE QP: the class of the command it answers (R496). -/
def replyClass (op : Nat) : Nat := if controlOpcode op then 7 else if op = 0x0209 then 4 else 6

/-- Writes a reply on its QP: the result write, then the reply slot with its ticket (R374, R375), or the reply SEND of
a NODE QP. A QP that is not in RTS cannot deliver it: counted in RESULT_DROP (R479). -/
def State.deliverQp (s : State) (i : Nat) (r : Reply) : State :=
  let q := s.qp i
  if !s.rts i then s.bump Ctr.resultDrop else
  if q.kind = .node then s.post i (replyClass r.opcode.toNat) [.reply r 0 0 0 0] else
  let n := q.replySeq
  let s := s.modQp i fun x => { x with replySeq := x.replySeq + 1 }
  let slot := WireOp.reply r n q.outstanding (q.ringAddr + BitVec.ofNat 64 (128 * (n % q.slots))) q.ringKey
  s.post i q.service (if r.result.isEmpty then [slot] else [.write r.resultTarget r.resultKey r.result none, slot])

/-- Part of a management message of a reply, from an offset (R717, R720). -/
def mgmtMessage (ty xid off total next : Nat) (data : List Byte) : List Byte :=
  let b := le 1 ty ++ zeros 3 ++ le 4 xid ++ le 4 off ++ le 4 total ++ le 2 data.length ++ le 2 next ++ data
  b ++ le 4 (crc32c b)

/-- Sends the REPLY part of an exchange from its acknowledged offset (R720). -/
def State.sendReplyPart (s : State) (e : Exchange) : State :=
  s.sendDatagram (mgmtMessage 3 e.xid.toNat e.acked e.reply.length 0 (slice e.reply e.acked 8192))

/-- Starts a reply on the management lane (R720). -/
def State.deliverLane (s : State) (xid : W32) (r : Reply) : State :=
  match s.net.lane.find? fun e => e.xid == xid with
  | none => s
  | some e =>
    let e' : Exchange :=
      { e with running := false, reply := r.header ++ r.result, acked := 0, sentAt := s.now, tries := 0, heldUntil := none }
    (s.modNet fun n => { n with lane := n.lane.map fun x => if x.xid == xid then e' else x }).sendReplyPart e'

/-- Whether a command's reply can be delivered now: its QP is in RTS, on the connection on which the command came (R295,
R479). -/
def State.deliverable (s : State) (ctx : CmdCtx) : Bool :=
  match ctx.src with
  | .qp i => s.rts i && ctx.conn == (s.qp i).conn
  | .lane _ => true

/-- Gives a command's reply to its source; one that cannot be delivered is discarded and counted (R479). -/
def State.deliver (s : State) (ctx : CmdCtx) (r : Reply) : State :=
  match ctx.src with
  | .qp i => if s.deliverable ctx then s.deliverQp i r else s.bump Ctr.resultDrop
  | .lane xid => s.deliverLane xid r

/-- A command of a QP ends: OUTSTANDING falls (R373) and its place in the command buffer is free (R603). -/
def State.release (s : State) (ctx : CmdCtx) : State :=
  match ctx.src with
  | .qp i =>
    let s := s.modQp i fun q => { q with outstanding := q.outstanding - 1 }
    s.modNet fun n =>
      if (s.qp i).kind = .node then { n with bufNode := n.bufNode - ctx.bufBytes }
      else { n with bufHost := n.bufHost - ctx.bufBytes }
  | .lane _ => s

/-! ## Records (R382 to R389) -/

/-- Whether a record is of a subscriber and REQUEST_ID. -/
def Record.isOf (r : Record) (sub : Nat) (id : W64) : Bool := r.subscriber == sub && r.requestId == id

/-- The record of a subscriber and REQUEST_ID. -/
def State.record (s : State) (sub : Nat) (id : W64) : Option Record := s.net.records.find? fun r => r.isOf sub id

/-- Sets the record of a subscriber and REQUEST_ID, in its place where it has one. -/
def State.setRecord (s : State) (r : Record) : State :=
  s.modNet fun n =>
    { n with
      records := if n.records.any (fun x => x.isOf r.subscriber r.requestId) then
          n.records.map fun x => if x.isOf r.subscriber r.requestId then r else x
        else n.records ++ [r] }

/-- Sets the record of a command that ends now: it is the last of the list, so that the ended records stand in the order of their ends,
the oldest first (R384, R385). -/
def State.endLast (s : State) (r : Record) : State :=
  s.modNet fun n => { n with records := (n.records.filter fun x => !x.isOf r.subscriber r.requestId) ++ [r] }

/-- Removes a record altogether (R382: a command that did not end OK). -/
def State.dropRecord (s : State) (sub : Nat) (id : W64) : State :=
  s.modNet fun n => { n with records := n.records.filter fun x => !x.isOf sub id }

/-- Frees the hot frames of a kept result. -/
def State.freeKept (s : State) (r : Record) : State :=
  let s := r.keptFrames.foldl (fun s f => s.freeFrame .hot f) s
  s.modTiers fun t => { t with kept := t.kept - r.keptFrames.length }

/-- A record ends its life as released or expired; its REQUEST_ID is told so when asked (R387). -/
def State.closeRecord (s : State) (r : Record) (st : RecordState) : State :=
  (s.freeKept r).setRecord { r with state := st, reply := none, kept := [], keptFrames := [] }

/-- The oldest record that satisfies a condition. -/
def State.oldestRecord (s : State) (f : Record → Bool) : Option Record := s.net.records.find? f

/-- Drops the oldest kept results, each counted in RESULT_EVICT, until `frames` more fit the limit and the available
hot frames (R385). -/
def State.makeKeepRoom (s : State) (frames fuel : Nat) : State :=
  match fuel with
  | 0 => s
  | fuel + 1 =>
    if s.tiers.kept + frames ≤ s.regs.resultFrames ∧ frames ≤ s.allocatable .hot then s else
    match s.oldestRecord fun r => !r.kept.isEmpty with
    | none => s
    | some r => State.makeKeepRoom ((s.closeRecord r .expired).bump Ctr.resultEvict) frames fuel

/-- Writes a kept result into its frames, 64 KiB in each (R385). -/
def State.keepWrite (s : State) (fs : List Nat) (n : Nat) (bs : List Byte) : State :=
  (List.range n).foldl (fun s k => s.writeFrame .hot (fs.getD k 0) 0 (slice bs (Config.frameBytes * k) Config.frameBytes)) s

/-- Keeps a result in n hot frames, or not at all (R385). -/
def State.keepIn (s : State) (r : Record) (bs : List Byte) (n : Nat) : State :=
  if s.tiers.kept + n ≤ s.regs.resultFrames then
    match s.allocFrames .hot .result n with
    | none => (s.closeRecord r .expired).bump Ctr.resultEvict
    | some (fs, s) =>
      ((s.keepWrite fs n bs).modTiers fun t => { t with kept := t.kept + n }).setRecord { r with kept := bs, keptFrames := fs }
  else (s.closeRecord r .expired).bump Ctr.resultEvict

/-- Keeps a result, after older ones have made room for it (R385). -/
def State.keepResult (s : State) (r : Record) (bs : List Byte) : State :=
  (s.makeKeepRoom (ceilDiv bs.length Config.frameBytes) s.net.records.length).keepIn r bs (ceilDiv bs.length Config.frameBytes)

/-- The end of a command at its record (R382, R385): an OK record keeps the reply, any other is dropped. -/
def State.endRecord (s : State) (ctx : CmdCtx) (a : Ans) (r : Reply) (x : Trailer) (delivered : Bool) : State :=
  if !ctx.recorded then s else
  match s.record ctx.subscriber ctx.requestId with
  | none => s
  | some rc =>
    if a.status = Status.ok then
      let rc := { rc with state := .ended, reply := some { r with result := [] }, trailer := x,
                            keepUntil := s.now + 1000000 * s.regs.keepMs, delivered := delivered,
                            resultDelivered := delivered && !a.result.isEmpty }
      let s := s.endLast rc
      if a.keep && !ctx.noKeep then s.keepResult rc a.result else s
    else s.dropRecord ctx.subscriber ctx.requestId

/-- The trailer of a command's reply: REPLY_SEQ, OUTSTANDING and TICKET of its ring, where it is delivered (R372, R373). -/
def State.trailerOf (s : State) (ctx : CmdCtx) (r : Reply) : Trailer :=
  match ctx.src with
  | .qp i =>
    let q := s.qp i
    if q.kind = .node || !s.deliverable ctx then { resultBytes := r.result.length, resultTarget := r.resultTarget } else
    { replySeq := q.replySeq, resultBytes := r.result.length, outstanding := q.outstanding, resultTarget := r.resultTarget
      ticket := replyTicket q.slots q.replySeq }
  | .lane _ => { resultBytes := r.result.length }

/-- Ends a command with its one reply (R369, R598). -/
def State.finish (s : State) (ctx : CmdCtx) (a : Ans) : State :=
  if ctx.answered then s else
  let s := s.release ctx
  let r := s.replyOf ctx a
  let ok := s.deliverable ctx
  let x := s.trailerOf ctx r
  (s.deliver ctx r).endRecord ctx a r x ok

/-- A reply that waits for another node's acknowledgement is given at the command's deadline instead, and what the
command began goes on (R367, R439, R598). -/
def State.lateReply (s : State) (w : Nat) (x : Waiting) : State :=
  let s := s.finish x.ctx (Ans.miss (if x.ctx.opcode = 0x0501 then Reason.twinUnreachable else Reason.deadlinePassed))
  s.modNet fun n =>
    { n with
      waiting := if x.ctx.opcode = 0x0501 then Table.erase n.waiting w
        else Table.set n.waiting w { x with ctx := { x.ctx with answered := true } } }

/-- The replies whose deadline has come are given. -/
def State.lateReplies (s : State) : State :=
  (s.net.waiting.filter fun (x : Nat × Waiting) =>
    decide (0 < x.2.ctx.deadline) && decide (x.2.ctx.deadline ≤ s.now) && !x.2.ctx.answered).foldl
      (fun s x => s.lateReply x.1 x.2) s

/-- A result may be delivered where its item leaves room for it (R403, R720). -/
def itemFits (src : Src) (it : ResultItem) (n : Nat) : Bool :=
  n ≤ it.len &&
  match src with
  | .qp _ => true
  | .lane _ => it.addr == 0 && it.key == 0

/-- Ends a command with a result record for a result item, or RESULT_SPACE (R403). -/
def State.finishResult (s : State) (ctx : CmdCtx) (it : ResultItem) (a : Ans) (bs : List Byte) : State :=
  if itemFits ctx.src it bs.length then s.finish ctx { a with result := bs, item := it }
  else s.finish ctx (Ans.param Reason.resultSpace)

/-! ## Twin records (R556, R558) -/

/-- One extent of a move image (R428). -/
def extentBytes (node first last : Nat) : List Byte := le 2 node ++ zeros 2 ++ le 4 first ++ le 4 last ++ zeros 4

/-- Pages of a conversation's longest layer. -/
def State.convPages (s : State) (c : Conv) : Nat :=
  match s.layout c.layout with
  | none => 0
  | some l => ceilDiv (c.committed.foldl max 0) l.tokens

/-- The move image of a conversation (R428); its first extent names the home. -/
def State.moveImage (s : State) (c : Conv) (st : ConvState) (epoch : Nat) : List Byte :=
  let l := (s.layout c.layout).getD (Layout.decode [])
  let own : Extent := { node := c.home, first := 0, last := s.convPages c }
  let exts := own :: c.extents
  l.encode ++ le 1 st.code ++ le 1 exts.length ++ le 2 c.attached.length ++ le 4 epoch ++ zeros 40 ++
  (c.committed.map (le 4)).flatten ++ (exts.map fun e => extentBytes e.node e.first e.last).flatten ++
  (c.attached.map fun h => le 8 h.toNat).flatten

/-- Appends of a conversation that have passed its gate, by layer. -/
def Conv.passedOf (c : Conv) (layer : Nat) : Nat :=
  (c.passed.filter fun a => a.layer ≤ layer && layer < a.layer + a.layerCount).length

/-- The appends of a layer that have passed the gate and whose rows precede a record: those before the first whose rows are held behind
a resync copy (R461, R557; log entry 76). -/
def Conv.sentOf (c : Conv) (held : List Nat) (layer : Nat) : List Append :=
  (c.passed.filter fun a => decide (a.layer ≤ layer) && decide (layer < a.layer + a.layerCount)).takeWhile fun a => !held.contains a.uid

/-- The twinned lengths that a record gives (R557). -/
def Conv.twinnedLengths (c : Conv) (held : List Nat) : List Nat :=
  (List.range c.committed.length).map fun i => c.committed.getD i 0 + (c.sentOf held i).length

/-- The CRC that place k of a layer's 64 holds: that of the token whose number is k modulo 64; 0 for none (log entry 14). -/
def crcAt (l : List (Nat × W32)) (k : Nat) : Nat := ((l.find? fun x => x.1 % 64 == k).map fun x => x.2.toNat).getD 0

/-- The CRCs of a layer's last 64 tokens below its twinned length, the latest first. -/
def Conv.twinnedCrcs (c : Conv) (held : List Nat) (layer : Nat) : List (Nat × W32) :=
  (c.crcs.getD layer [] ++ (c.sentOf held layer).map fun a => (a.token, a.crc)).reverse

/-- The appends whose rows are held behind a resync copy. -/
def State.heldRows (s : State) : List Nat :=
  s.net.egress.filterMap fun m =>
    match m.tag with
    | .append _ u => if m.held then some u else none
    | _ => none

/-- The twin record: the move image with the twinned lengths, then 64 CRCs a layer (R556). -/
def State.twinRecordBytes (s : State) (c : Conv) : List Byte :=
  let st := match c.state, c.move with
    | .moving, some m => m.former
    | st, _ => st
  s.moveImage { c with committed := c.twinnedLengths s.heldRows } st c.epoch ++
  ((List.range c.crcs.length).map fun l => ((List.range 64).map fun k => le 4 (crcAt (c.twinnedCrcs s.heldRows l) k)).flatten).flatten

/-- The twin immediate (R555). -/
def twinImm (kind frame : Nat) : W32 := BitVec.ofNat 32 (kind * 2 ^ 28 + frame)

/-- A twin write to a node: class 4, into its twin window (R554, R555). -/
def State.twinWrite (s : State) (j kind frame : Nat) (parts : List (Nat × List Byte)) (tag : Tag) (held : Bool := false) : State :=
  match parts.getLast? with
  | none => s
  | some last =>
    let w := fun (p : Nat × List Byte) imm => WireOp.write (BitVec.ofNat 64 (frame * 65536 + p.1)) 0 p.2 imm
    s.post (s.nodeQp j) 4 (parts.dropLast.map (fun p => w p none) ++ [w last (some (twinImm kind frame))]) tag held

/-- Tells a partner the twin frames of pages that are gone: they return to the grant once it has acknowledged this. A KIND 3
write at 3 times 2^48: the number of each frame (R559; log entry 14). -/
def State.tellFreed (s : State) (j : Nat) : State :=
  let fs := (((Table.get s.recover.partners j).map (·.freed)).getD []).filterMap fun x => if x.2 then none else some x.1
  if fs.isEmpty || !s.linkUp j then s else
  (s.post (s.nodeQp j) 4 [.write (BitVec.ofNat 64 (3 * 2 ^ 48)) 0 (fs.map (le 4)).flatten (some (twinImm 3 0))] (.freed j fs)).modPartner j
    fun p => { p with freed := p.freed.map fun x => (x.1, true) }

/-- Writes the twin record of a conversation to its twin, and with it frees the copies of the pages that are gone (R558, R559). The
record's place in the twin window is named by the CID (log entry 14). -/
def State.twinRecord (s : State) (cid : Nat) (c : Conv) (tag : Tag) : State :=
  match c.twin with
  | none => s
  | some j => (s.post (s.nodeQp j) 4 [.write (BitVec.ofNat 64 cid) 0 (s.twinRecordBytes c) (some (twinImm 3 0))] tag).tellFreed j

/-- Tells the twin the CRC of an append ahead of its rows, so that the record holds the CRCs that R76 keeps (R556,
R573): a KIND 3 write of token, first layer, layer count and CRC (log entry 14). -/
def State.twinCrc (s : State) (c : Conv) (a : Append) : State :=
  match c.twin with
  | none => s
  | some j =>
    s.post (s.nodeQp j) 4
      [.write (BitVec.ofNat 64 a.cid) 0 (le 4 a.token ++ le 2 a.layer ++ le 2 a.layerCount ++ le 4 a.crc.toNat) (some (twinImm 3 0))]

/-- Keeps a command's answer until it may be given. -/
def State.keepAnswer (s : State) (cid : Nat) (ctx : CmdCtx) (a : Ans) : State :=
  s.modNet fun n =>
    { n with
      nextWait := n.nextWait + 1
      waiting := Table.set n.waiting n.nextWait
        { ctx := ctx, status := a.status, reason := a.reason, param0 := BitVec.ofNat 64 a.p0
          param1 := BitVec.ofNat 64 a.p1, result := a.result, item := (a.item.addr, a.item.key, a.item.len), cid := cid } }

/-- The answer that a waiting command was kept for. -/
def Waiting.answer (x : Waiting) : Ans :=
  { status := x.status, reason := x.reason, p0 := x.param0.toNat, p1 := x.param1.toNat, result := x.result
    item := ⟨x.item.1, x.item.2.1, x.item.2.2⟩ }

/-- Ends commands after the partner has acknowledged the conversation's twin record (R558), at once where the conversation has
no twin; without a link to the twin the replies wait for the commands' deadlines, a self-fence, or the loss of the partner. `c` is
the entry as the event left it. -/
def State.finishAll (s : State) (cid : Nat) (c : Conv) (l : List (CmdCtx × Ans)) : State :=
  match c.twin with
  | none => l.foldl (fun s x => s.finish x.1 x.2) s
  | some _ =>
    (l.foldl (fun s x => s.keepAnswer cid x.1 x.2) s).twinRecord cid c
      (if l.isEmpty then .none else .twinRecord (s.net.nextWait + l.length - 1))

/-- Ends one command so. -/
def State.finishTwinned (s : State) (cid : Nat) (c : Conv) (ctx : CmdCtx) (a : Ans) : State := s.finishAll cid c [(ctx, a)]

/-- The partner has acknowledged a twin record of a conversation: the replies kept until then, up to a number, are given (R558). -/
def State.releaseWaiting (s : State) (cid w : Nat) : State :=
  (s.net.waiting.filter fun x => x.2.cid == cid && x.2.onRecord && decide (x.1 ≤ w)).foldl (fun s x =>
    (s.modNet fun n => { n with waiting := Table.erase n.waiting x.1 }).finish x.2.ctx x.2.answer) s

end Sys2Proof.Machine
end

