-- ==== Sys2Proof/Machine/Guard.lean ====
section
/-! DEFINITION. Memory protection (R36, R143, R652, R654 to R658): the memory keys, what a block is stored as, its tag, a
frame's metadata record, the counter trees, and the check of a read. The state holds a block's bytes as a read gives them,
with the WRITE_COUNT and the FRAME_GEN of its last write; the ciphertext, the tags and the tree nodes are functions of
these (log entry 73). -/
namespace Sys2Proof.Machine

/-! ## Keys (R36, R652, R653) -/

/-- R_e of a rotation, as the memory keys take it; nothing before the first delivery (R36). -/
def State.memorySecret (s : State) : List Byte := Config.freshSecret s.trust.memoryKeys

/-- K1 ‖ K2, the GMAC key and the counter-tree key of the memory controllers (R652). -/
def State.memoryXts (s : State) : List Byte := sha512 (ascii "LHD-FN40-MEMX" ++ s.memorySecret)
def State.memoryGmac (s : State) : List Byte := sha (ascii "LHD-FN40-MEMG" ++ s.memorySecret)
def State.treeKey (s : State) : List Byte := sha (ascii "LHD-FN40-TREE" ++ s.memorySecret)

/-- Bellwether writes the keys of the present rotation into the memory controllers: the path is written only, and no register
or command reads what it carries (R36, R653). -/
def State.deliverKeys (s : State) : State := s.modTrust fun t => { t with memoryKeys := t.rotation }

/-! ## Blocks (R143, R654, R655) -/

/-- A byte string brought to a length: zeros after it, or its end cut. -/
def fitTo (n : Nat) (bs : List Byte) : List Byte := (bs ++ zeros n).take n

/-- The tweak T of a block (R654). -/
def blockTweak (t : Tier) (f b gen : Nat) : Nat :=
  b % 16 + 2 ^ 4 * (f % 2 ^ 24) + 2 ^ 28 * (match t with
    | .hot => 0
    | .warm => 1) + 2 ^ 32 * (gen % 2 ^ 32)

/-- WRITE_COUNT of a block (R655). -/
def State.writeCount (s : State) (t : Tier) (f b : Nat) : Nat := Table.getD s.tiers.protect.writes (blockNo t f b) 0

/-- FRAME_GEN of a block's last write. -/
def State.writtenGen (s : State) (t : Tier) (f b : Nat) : Nat := Table.getD s.tiers.protect.gens (blockNo t f b) 0

/-- What a block is stored as: its 4,096 bytes under AES-256-XTS with the tweak of its last write (R143, R654). -/
def State.storedBlock (s : State) (t : Tier) (f b : Nat) : List Byte :=
  fitTo 4096 (Config.xtsEncrypt s.memoryXts (blockTweak t f b (s.writtenGen t f b)) (s.readFrame t f (4096 * b) 4096))

/-- The 96-bit IV of a block's tag under a generation and a count: T[63:0], then WRITE_COUNT (R655). -/
def blockIv (t : Tier) (f b gen count : Nat) : Nat := blockTweak t f b gen % 2 ^ 64 + 2 ^ 64 * (count % 2 ^ 32)

/-- The tag that a block's metadata holds: that of its last write (R655). -/
def State.blockTag (s : State) (t : Tier) (f b : Nat) : List Byte :=
  fitTo 16 (Config.gmac s.memoryGmac (blockIv t f b (s.writtenGen t f b) (s.writeCount t f b)) (s.storedBlock t f b))

/-- The tag that a read expects: under the frame's generation and the block's count (R654, R655). -/
def State.expectedTag (s : State) (t : Tier) (f b : Nat) : List Byte :=
  fitTo 16 (Config.gmac s.memoryGmac (blockIv t f b (s.frameGen t f) (s.writeCount t f b)) (s.storedBlock t f b))

/-- Whether a block's tag verifies (R143, R655, R658). -/
def State.tagHolds (s : State) (t : Tier) (f b : Nat) : Bool :=
  s.writtenGen t f b == s.frameGen t f || s.blockTag t f b == s.expectedTag t f b

/-- The 384 bytes of a frame's metadata record: sixteen tags, sixteen WRITE_COUNTs, FRAME_GEN (R656). -/
def State.metadata (s : State) (t : Tier) (f : Nat) : List Byte :=
  ((List.range 16).map (s.blockTag t f)).flatten ++ ((List.range 16).map fun b => le 4 (s.writeCount t f b)).flatten ++
  le 4 (s.frameGen t f) ++ zeros 60

/-! ## Counter trees (R657) -/

/-- The value of a leaf: a WRITE_COUNT or a FRAME_GEN (R657). -/
def State.leaf (s : State) (t : Tier) (i : Nat) : Nat :=
  if i % 17 = 16 then s.frameGen t (i / 17) else s.writeCount t (i / 17) (i % 17)

/-- The update counter of a node of the tree: how often something beneath it has changed since the zeroing. A leaf, which
counts its own changes, is one itself. -/
def State.updates (s : State) (t : Tier) (level i : Nat) : Nat :=
  if level = 0 then s.leaf t i else Table.getD s.tiers.protect.updates (nodeKey t level i) 0

/-- The IV of a child's GMAC: its address, that is its level and number, and its update counter (R657). -/
def State.childIv (s : State) (t : Tier) (level i : Nat) : Nat := nodeKey t level i % 2 ^ 64 + 2 ^ 64 * (s.updates t level i % 2 ^ 32)

/-- The bytes of a node: a leaf's field, and for an inner node the GMAC over each of its sixteen children (R657). -/
def State.treeNode (s : State) (t : Tier) (level i : Nat) : List Byte :=
  match level with
  | 0 => le 4 (s.leaf t i)
  | n + 1 => ((List.range 16).map fun k => fitTo 16 (Config.gmac s.treeKey (s.childIv t n (16 * i + k)) (s.treeNode t n (16 * i + k)))).flatten

/-- The top nodes that Bellwether's SRAM holds: those of the highest level (R657). -/
def State.topNodes (s : State) (t : Tier) : List (List Byte) :=
  (List.range (ceilDiv (17 * tierFrames t) (16 ^ treeLevels))).map fun i => s.treeNode t treeLevels i

/-- Whether a node agrees with its children: it has counted each of their updates, so that each GMAC that it holds is that of the
child's present bytes (R657). -/
def State.nodeHolds (s : State) (t : Tier) (level i : Nat) : Bool :=
  s.updates t (level + 1) i == ((List.range 16).map fun k => s.updates t level (16 * i + k)).sum

/-- The nodes between a leaf and the die: level less 1, and number. -/
def pathOf (leaf : Nat) : List (Nat × Nat) := (List.range treeLevels).map fun n => (n, leaf / 16 ^ (n + 1))

/-- The reads of a frame's counters are verified up to the nodes on the die (R657). -/
def State.treeHolds (s : State) (t : Tier) (f : Nat) : Bool :=
  ((pathOf (leafAt f 16)).foldl addOnce (pathOf (leafAt f 0))).all fun n => s.nodeHolds t n.1 n.2

/-- Whether a frame's tags and counters verify (R658). -/
def State.frameHolds (s : State) (t : Tier) (f : Nat) : Bool :=
  (List.range 16).all (fun b => s.tagHolds t f b) && s.treeHolds t f

end Sys2Proof.Machine
end

