-- ==== Sys2Proof/Machine/Pages.lean ====
section
/-! DEFINITION. Pages: the directory (R55, R140-R153), opening and freezing (R33-R40, R116-R134), sealing, references
(R56, R145), reads (R174-R177, R612), twin frames (R554, R555), and the start of moves (R144-R151). -/
namespace Sys2Proof.Machine

/-! ## Twin frames (R555) -/

/-- Takes an unused granted frame of a partner. -/
def State.takeGrant (s : State) (j : Nat) : Option (Nat × State) :=
  match Table.get s.recover.partners j with
  | none => none
  | some p =>
    match p.grantsFree with
    | [] => none
    | f :: rest => some (f, s.modPartner j fun p => { p with grantsFree := rest })

/-- A twin frame that no page has used returns to the grant (R555). -/
def State.returnGrant (s : State) (j f : Nat) : State :=
  s.modPartner j fun p => { p with grantsFree := p.grantsFree ++ [f] }

/-- The granted frame that a twin write of rows, of a tail or of a resync copy names (R555). -/
def Msg.twinFrame (m : Msg) : Option Nat :=
  match m.ops.getLast? with
  | some (.write _ key _ (some imm)) =>
    if key = 0 && [1, 2, 4].contains (imm.toNat / 2 ^ 28) then some (imm.toNat % 2 ^ 24) else none
  | _ => none

/-- The twin frame of a page that is gone: the partner is told with the next twin record. Its resync copy and the rows held behind
that, if they have not begun to leave, are not sent (R555, R559). -/
def State.noteFreed (s : State) (j f : Nat) : State :=
  (s.modNet fun n =>
    { n with egress := n.egress.filter fun m =>
        !(m.qp == s.nodeQp j && m.twinFrame == some f && (m.held || m.cls == 2) && m.sent == 0 && m.psn.isNone) }).modPartner j
    fun p => { p with freed := p.freed ++ [(f, false)] }

/-! ## Descriptors that name a frame (R142) -/

/-- Descriptors that count as not consumed: a tile's failure sends all of a row group's descriptors again until its
partial has been emitted (R228), so they all name their frames until then. -/
def Work.open (w : Work) : List Descriptor := w.descs
/-- Descriptors that a tile has still to work. -/
def Work.left (w : Work) : List Descriptor := w.descs.drop w.done

/-- Whether some descriptor not yet consumed names a frame. -/
def State.named (s : State) (t : Tier) (f : Nat) : Bool :=
  let hit := fun (w : Work) => w.open.any fun d => d.tier == t && d.frame == f
  s.attn.tiles.any (fun x => x.queue.any hit) || s.attn.logicals.any (fun l => l.abandoned.any hit)

/-- A source frame left behind: FREE at once, or once its descriptors have been consumed (R142). -/
def State.leaveFrame (s : State) (t : Tier) (f : Nat) : State :=
  if Table.get (s.frames t) f = some .retired then s
  else if s.named t f then s.useFrame t f .leaving else s.freeFrame t f

/-- Frees a frame left behind when its last descriptor has been consumed (R142). -/
def State.settleFrame (s : State) (t : Tier) (f : Nat) : State :=
  if Table.get (s.frames t) f = some .leaving && !s.named t f then s.freeFrame t f else s

/-! ## The directory -/

/-- Frees a spill slot; its generation rises (R167). -/
def State.freeSpill (s : State) (x : SpillAt) : State :=
  s.modTiers fun t =>
    { t with targets := Table.modify t.targets x.target fun g =>
        { g with used := g.used.filter (· != x.slot)
                 generations := Table.set g.generations x.slot ((Table.getD g.generations x.slot 0 + 1) % 256) } }

/-- Whether a page's home is no frame: it lies in a spill slot, or lay in one that is gone (R140, R173). An eviction to the spill
tier leaves the page in its frame until the target acknowledges the image (R141). -/
def Page.outside (p : Page) : Bool := p.noFrame || p.state == .spilled || (p.spill.isSome && p.moveKind != some .evictWarm)

/-- A page is freed: its home, its entry, and with the next twin record its twin frame; a second twin, which is sent no records, is
told at once (R144, R555, R559). -/
def State.freePage (s : State) (pid : Nat) : State :=
  match s.page pid with
  | none => s
  | some p =>
    let s := if p.outside then s else s.leaveFrame p.tier p.frame
    let s := match p.spill with
      | some x => s.freeSpill x
      | none => s
    let s := match p.twinNode with
      | some j => s.noteFreed j p.twinFrame
      | none => s
    let s := match p.twin2Node with
      | some j => (s.noteFreed j p.twin2Frame).tellFreed j
      | none => s
    s.modTiers fun t => { t with pages := Table.erase t.pages pid }

/-- Frees a page that nothing refers to; a page in a move is freed at its switch point (R56, R145). -/
def State.reapPage (s : State) (pid : Nat) : State :=
  match s.page pid with
  | none => s
  | some p => if p.refs = 0 ∧ p.users = [] ∧ p.state ≠ .moving then s.freePage pid else s

/-- A move that ends early gives up what it holds: its target frame, or its spill slot; the page stays at its home (R140,
R151). -/
def State.dropTarget (s : State) (pid : Nat) : State :=
  match s.page pid with
  | none => s
  | some p =>
    if p.state ≠ .moving then s else
    let home := if p.outside then PageState.spilled else PageState.resident
    match p.moveKind, p.spill with
    | none, _ => s.modPage pid fun q => { q with state := home }
    | some .evictWarm, some x => (s.freeSpill x).modPage pid fun q => { q with state := home, moveKind := none, spill := none }
    | some .evictWarm, none => s.modPage pid fun q => { q with state := home, moveKind := none }
    | _, _ => (s.freeFrame p.targetTier p.targetFrame).modPage pid fun q => { q with state := home, moveKind := none }

/-- A conversation or version drops its reference to a page (R56, R144, R145). -/
def State.dropRef (s : State) (pid : Nat) : State := (s.modPage pid fun p => { p with refs := p.refs - 1 }).reapPage pid

/-- A conversation or version takes a reference. -/
def State.addRef (s : State) (pid : Nat) : State := s.modPage pid fun p => { p with refs := p.refs + 1 }

/-- A request drops its references to every page (R56). -/
def State.dropUser (s : State) (ctx : Nat) : State :=
  (s.tiers.pages.filter fun p => p.2.users.contains ctx).foldl
    (fun s p => (s.modPage p.1 fun x => { x with users := x.users.filter (· != ctx) }).reapPage p.1) s

/-- A page of a conversation by its place. -/
def Conv.pageAt (c : Conv) (k : PageKey) : Option Nat := (c.pages.find? fun p => p.1 == k).map (·.2)

/-- The tail header of an open page: FILL, flags, norm and SAT_COUNT are 0 while open (R130). -/
def openHeader (cid layoutIdx : Nat) (l : Layout) (k : PageKey) : List Byte :=
  tailHeader cid layoutIdx 0 k.index (k.index * l.tokens) k.layer k.head 0 l 0 0

/-- Enters a page in the directory: a fresh open page in a frame, its tail header written (R130, R144). -/
def State.enterPage (s : State) (cid layoutIdx : Nat) (l : Layout) (k : PageKey) (t : Tier) (f : Nat)
    (twin : Option (Nat × Nat)) : Nat × State :=
  let pid := s.tiers.nextPage
  let p : Page :=
    { cid := cid, layout := layoutIdx, key := k, tier := t, frame := f, touch := s.ageTick
      twinNode := twin.map (·.1), twinFrame := (twin.map (·.2)).getD 0 }
  let s := s.modTiers fun x => { x with pages := Table.set x.pages pid p, nextPage := pid + 1 }
  let s := s.useFrame t f (.page pid)
  (pid, s.writeFrame t f Config.dataBytes (openHeader cid layoutIdx l k))

/-- A fresh open page of a conversation in a hot frame, with a twin frame where the conversation has a twin (R135,
R144, R553-R555). -/
def State.openPage (s : State) (cid : Nat) (c : Conv) (l : Layout) (k : PageKey) : Option (Nat × State) :=
  match s.allocFrame .hot .leaving with
  | none => none
  | some (f, s) =>
    match c.twin with
    | none =>
      let (pid, s) := s.enterPage cid c.layout l k .hot f none
      some (pid, s.modConv cid fun c => { c with pages := c.pages ++ [(k, pid)] })
    | some j =>
      match s.takeGrant j with
      | none => none
      | some (g, s) =>
        let (pid, s) := s.enterPage cid c.layout l k .hot f (some (j, g))
        some (pid, s.modConv cid fun c => { c with pages := c.pages ++ [(k, pid)] })

/-! ## Reads -/

/-- What a read of a page's frame finds (R174, R612, R616). -/
inductive ReadClass where
  | good | poisoned | unreadable
deriving DecidableEq, Repr

/-- The hot stack, or warm controller, that an injection point of a read names: points 0 to 7 of HOT by frame number
mod 8, point 0 of WARM (R635; log entry 13). -/
def readPoint (t : Tier) (f : Nat) : Nat × Nat :=
  match t with
  | .hot => (Blk.hot, f % 8)
  | .warm => (Blk.warm, 0)

/-- The block of a tier. -/
def tierBlock (t : Tier) : Nat :=
  match t with
  | .hot => Blk.hot
  | .warm => Blk.warm

/-- The GMAC and counter-tree checks of a frame's blocks: an injected fault fails one; else they hold where the tags are those
of the frame's generation and counts, and the tree agrees with its leaves (R635, R655, R657, R658). -/
def State.checkTags (s : State) (t : Tier) (f : Nat) : Bool × State :=
  let (tag, s) := s.injected (tierBlock t) (match t with
    | .hot => 8 + f % 8
    | .warm => 1)
  if tag.isSome then (false, s.checkFailed (tierBlock t) f true) else
  let (tree, s) := match t with
    | .warm => (none, s)
    | .hot => s.injected Blk.hot 16
  if tree.isSome then (false, s.checkFailed Blk.hot f true)
  else if s.frameHolds t f then (true, s)
  else (false, s.checkFailed (tierBlock t) f false)

/-- Reads every word of a frame: an injected fault strikes its first word; corrected words are counted; an
UNCORRECTABLE word is reported, written onward as poison, and makes the read unreadable; a poisoned word is consumed
(R174, R612, R616, R634). -/
def State.checkWords (s : State) (t : Tier) (f : Nat) : ReadClass × State :=
  let base := frameAddr t f / 32
  let (inj, s) := s.injected (readPoint t f).1 (readPoint t f).2
  let s := match inj with
    | some k => s.modTiers fun x => { x with flips := Table.set x.flips base (injectedPattern k) }
    | none => s
  let words := s.tiers.flips.filter fun p => base ≤ p.1 && p.1 < base + 2048
  words.foldl (fun (acc : ReadClass × State) w =>
    match flipClass w.2 with
    | .clean => acc
    | .corrected _ _ => (acc.1, acc.2.wordCorrected (tierBlock t))
    | .poison => (if acc.1 = .unreadable then .unreadable else .poisoned, acc.2.poisonConsumedAt (tierBlock t) f inj.isSome)
    | .uncorrectable =>
      let s := (acc.2.wordUncorrectable (tierBlock t) f inj.isSome).modBlock (tierBlock t) fun b =>
        b.note acc.2.clk.rime 30 inj.isSome
      (.unreadable, s.modTiers fun x => { x with flips := Table.set x.flips w.1 poisonPattern })) (.good, s)

/-- A read of a frame: its words, then its tags (R612, R614, R658). -/
def State.checkFrame (s : State) (t : Tier) (f : Nat) : ReadClass × State :=
  match s.checkWords t f with
  | (.good, s) =>
    match s.checkTags t f with
    | (true, s) => (.good, s)
    | (false, s) => (.unreadable, s)
  | r => r

/-! ## Sealing (R40, R132-R134, R136) -/

/-- The key under which the saturated elements of a row are told to the twin: layer, KV head and token (R119; log entry 14). -/
def satKey (layer head token : Nat) : Nat := (layer * 256 + head) * 2 ^ 32 + token

/-- Tells the twin the saturated elements of a page's rows: SAT_COUNT is to be the same function of the rows at
whichever node seals or holds the page (R119, R138). A KIND 3 write at the CID plus 2^48: layer, head, page index, tokens
per page, then the count of each row (log entry 14). -/
def State.twinSats (s : State) (pid : Nat) : State :=
  match s.page pid with
  | none => s
  | some p =>
    match p.twinNode, s.layout p.layout with
    | some j, some l =>
      s.post (s.nodeQp j) 4
        [.write (BitVec.ofNat 64 (2 ^ 48 + p.cid)) 0
          (le 2 p.key.layer ++ le 1 p.key.head ++ zeros 1 ++ le 4 p.key.index ++ le 2 l.tokens ++
            ((List.range l.tokens).map fun k => le 2 (Table.getD p.sats k 0)).flatten) (some (twinImm 3 0))]
    | _, _ => s

/-- Whether some row of a page has saturated elements. -/
def Page.saturated (p : Page) : Bool := p.sats.any fun x => x.2 != 0

/-- Saturated elements of the rows below FILL (R119). -/
def Page.satBelow (p : Page) (fill : Nat) : Nat := (p.sats.filter fun x => x.1 < fill).foldl (fun n x => n + x.2) 0

/-- The zeroed rows and segment entries of a page at FILL and above (R134). -/
def Layout.zeroRows (l : Layout) (fill : Nat) : List (Nat × List Byte) :=
  if l.tokens ≤ fill then [] else
  [(l.keyAt fill, zeros ((l.tokens - fill) * l.keyRow))] ++
  (if l.latent then [] else [(l.valueAt fill, zeros ((l.tokens - fill) * l.valueRow))])

/-- Sends a page's tail to its twin, the rows that sealing has zeroed before it, so that the copy's SEAL holds. Like a row it is held
behind a resync copy that has not been acknowledged (R100, R134, R136, R555: KIND 2; log entry 76). -/
def State.twinTail (s : State) (pid : Nat) (tag : Tag) : State :=
  match s.page pid with
  | none => s
  | some p =>
    match p.twinNode with
    | none => s
    | some j =>
      let zeroed := ((s.layout p.layout).map fun l => l.zeroRows p.fill).getD []
      s.twinWrite j 2 p.twinFrame (zeroed ++ [(Config.dataBytes, s.readFrame p.tier p.frame Config.dataBytes 4096)]) tag
        (s.recover.resyncLeft.contains pid)

/-- The tag of the twin writes that an append waits for. -/
def waitTag (w : Option (Nat × Nat)) : Tag :=
  match w with
  | none => .none
  | some (cid, uid) => .append cid uid

/-- Seals a page at a fill count and sends its tail to the twin (R134, R136). Its rows are read first: where they cannot be read the
frame is retired, the page is to be repaired, and it is sealed when the repair has ended (R174, R175). -/
def State.sealPage (s : State) (pid fill : Nat) (w : Option (Nat × Nat) := none) : State :=
  match s.page pid with
  | none => s
  | some p =>
    match s.layout p.layout with
    | none => s
    | some l =>
      let later := fun (s : State) => s.modPage pid fun p => { p with queued := some .repair, sealDue := some (fill, w) }
      match s.checkFrame p.tier p.frame with
      | (.unreadable, s) => later (s.retireFrame p.tier p.frame)
      | (.poisoned, s) => later s
      | (.good, s) =>
        let old := s.readFrame p.tier p.frame 0 Config.frameBytes
        let new := sealFrame l p.cid p.layout p.key.index p.key.layer p.key.head fill (p.satBelow fill) old
        ((s.writeFrame p.tier p.frame 0 new).modPage pid fun p => { p with isSealed := true, fill := fill, sealDue := none }).twinTail pid
          (waitTag w)

/-- The tail of an open page but for its segments: header, summary and SEAL (R130). -/
def openTail (cid layoutIdx : Nat) (l : Layout) (k : PageKey) : List (Nat × List Byte) :=
  [(Config.dataBytes + 320, zeros (4096 - 320)), (Config.dataBytes, openHeader cid layoutIdx l k)]

/-- Opens a page again whose filling append was discarded, here and at its twin: the tail is that of an open page (R39, R138; log
entry 15). -/
def State.unsealPage (s : State) (pid : Nat) : State :=
  match s.page pid with
  | none => s
  | some p =>
    match s.layout p.layout with
    | none => s
    | some l =>
      let parts := openTail p.cid p.layout l p.key
      let s := (parts.foldl (fun s x => s.writeFrame p.tier p.frame x.1 x.2) s).modPage pid fun p =>
        { p with isSealed := false, fill := 0, sealDue := none }
      match p.twinNode with
      | none => s
      | some j => s.twinWrite j 2 p.twinFrame parts .none (s.recover.resyncLeft.contains pid)

/-! ## Freezing one row (R39, R107-R121, R554) -/

/-- Writes the stored rows and the segment entry of a position, and sends them to the twin (R554). While the page's resync copy
has not been acknowledged they are held behind it: a row that overtook the copy would be overwritten (R100, R581; log
entry 76). Answers the number of twin writes posted. -/
def State.freezeRow (s : State) (pid : Nat) (l : Layout) (pos segment : Nat) (elems : List Nat) (fresh : Bool) (tag : Tag) :
    Nat × State :=
  match s.page pid with
  | none => (0, s)
  | some p =>
    let keyElems := elems.take l.keyLen
    let valElems := if l.latent then [] else elems.drop l.keyLen
    let key := l.freezeKey keyElems
    let val := if l.latent then [] else freezeField l.valueFormat valElems
    let sats := freezeSats l.keyFormat keyElems + (if l.latent then 0 else freezeSats l.valueFormat valElems)
    let segAt := Config.dataBytes + 64 + 2 * pos
    let s := s.bumpBy Ctr.freezeSat sats
    let s := s.writeFrame p.tier p.frame (l.keyAt pos) key
    let s := if l.latent then s else s.writeFrame p.tier p.frame (l.valueAt pos) val
    let s := s.writeFrame p.tier p.frame segAt (le 2 segment)
    let s := s.modPage pid fun p => { p with sats := Table.set p.sats pos sats, touch := s.ageTick }
    match p.twinNode with
    | none => (0, s)
    | some j =>
      let s := if sats = 0 && Table.getD p.sats pos 0 = 0 then s else s.twinSats pid
      let head := if fresh then [(Config.dataBytes, s.readFrame p.tier p.frame Config.dataBytes 64)] else []
      let rows := [(l.keyAt pos, key)] ++ (if l.latent then [] else [(l.valueAt pos, val)])
      (1, s.twinWrite j 1 p.twinFrame (head ++ [(segAt, le 2 segment)] ++ rows) tag (s.recover.resyncLeft.contains pid))

/-- Freezes one row and seals the page when its last position has been written (R40, R136). Answers the number of twin
writes that the append, known by CID and number, waits for. -/
def State.freezeToken (s : State) (pid : Nat) (l : Layout) (pos segment : Nat) (elems : List Nat) (fresh : Bool) (w : Nat × Nat) :
    Nat × State :=
  let (n, s) := s.freezeRow pid l pos segment elems fresh (waitTag (some w))
  if pos + 1 = l.tokens then (if ((s.page pid).bind (·.twinNode)).isSome then n + 1 else n, s.sealPage pid l.tokens (some w))
  else (n, s)

/-- Copies stored rows and segment entries of positions below n into another page, unchanged (R33, R88, R89). -/
def State.copyRows (s : State) (l : Layout) (t : Tier) (f : Nat) (dst n : Nat) (sats : Table Nat) : State :=
  match s.page dst with
  | none => s
  | some d =>
    let keys := s.readFrame t f 0 (n * l.keyRow)
    let vals := s.readFrame t f (l.tokens * l.keyRow) (n * l.valueRow)
    let segs := s.readFrame t f (Config.dataBytes + 64) (2 * n)
    let s := s.writeFrame d.tier d.frame 0 keys
    let s := s.writeFrame d.tier d.frame (l.tokens * l.keyRow) vals
    let s := s.writeFrame d.tier d.frame (Config.dataBytes + 64) segs
    s.modPage dst fun p => { p with sats := sats.filter fun x => x.1 < n }

/-- Sends a whole page's bytes to its twin frame: the copy that a fork, a truncation or a resync makes (R554, R581). -/
def State.twinWhole (s : State) (pid kind cls : Nat) (tag : Tag) : State :=
  match s.page pid with
  | none => s
  | some p =>
    match p.twinNode with
    | none => s
    | some j =>
      s.post (s.nodeQp j) cls
        [.write (BitVec.ofNat 64 (p.twinFrame * 65536)) 0 (s.readFrame p.tier p.frame 0 Config.frameBytes)
          (some (twinImm kind p.twinFrame))] tag

/-! ## Moves (R144-R151) -/

/-- Whether every row of a page has committed: a page that an uncommitted append has filled may yet be opened again, and an open
page keeps its hot frame (R39, R135). -/
def State.firm (s : State) (p : Page) : Bool :=
  match s.conv p.cid, s.layout p.layout with
  | some c, some l =>
    !(c.passed.any fun a => decide (a.layer ≤ p.key.layer) && decide (p.key.layer < a.layer + a.layerCount) &&
      a.token / l.tokens == p.key.index)
  | _, _ => true

/-- Whether an eviction may select a page (R147, R148). -/
def Page.evictable (p : Page) : Bool :=
  p.isSealed && p.pinnedBy.isEmpty && p.state == .resident && p.queued.isNone

/-- Queues a move behind the one in progress: it replaces a queued move of another kind and merges with one of the
same kind (R150). -/
def State.queueMove (s : State) (pid : Nat) (k : MoveKind) : State :=
  match s.page pid with
  | none => s
  | some p =>
    if p.queued = some k then s
    else (s.modPage pid fun p => { p with queued := some k }).bump Ctr.moveQueued

/-- Asks for a move of a page: queued behind a move in progress (R150), else wanted until its own event starts it. A repair that
is wanted is not displaced. -/
def State.wantMove (s : State) (pid : Nat) (k : MoveKind) : State :=
  match s.page pid with
  | none => s
  | some p =>
    if p.queued = some .repair && p.moveKind.isNone then s
    else if p.state = .moving then s.queueMove pid k
    else s.modPage pid fun p => { p with queued := some k }

/-- The spill target with the most free slots, the lowest number among equals, and its lowest free slot (R167). -/
def State.pickSpill (s : State) : Option (Nat × Nat) :=
  let best := s.tiers.targets.foldl (fun (acc : Option (Nat × Nat)) x =>
    let free := x.2.slots - x.2.used.length
    match acc with
    | none => if free = 0 then none else some (x.1, free)
    | some a => if free > a.2 then some (x.1, free) else some a) none
  best.bind fun b =>
    (Table.get s.tiers.targets b.1).map fun t => (b.1, nthFree (t.used.foldl (fun acc u => Table.set acc u ()) ([] : Table Unit)) 0)

/-- Starts the copy phase of a move towards a tier: a target frame of the tier is taken and the page is MOVING (R141,
R144, R157). -/
def State.startMove (s : State) (pid : Nat) (k : MoveKind) (t : Tier) : Option State :=
  match s.allocFrame t .leaving with
  | none => none
  | some (f, s) =>
    some (s.modPage pid fun p =>
      { p with state := .moving, moveKind := some k, targetTier := t, targetFrame := f, queued := none,
               moveStarted := s.now })

/-- A move in progress gives up its target for a repair that is to begin; the page stays MOVING (R144, R151). -/
def State.turnMove (s : State) (pid : Nat) : State :=
  if ((s.page pid).map (·.state)) = some .moving then (s.dropTarget pid).modPage pid fun p => { p with state := .moving } else s

/-- The conversation under which the holder of a page's copy finds it: that of its header, or one that shares it where that has
another page at the place now (R571; log entries 14 and 16). -/
def State.fetchCid (s : State) (pid : Nat) (p : Page) : Nat :=
  if ((s.conv p.cid).bind fun c => c.pageAt p.key) = some pid then p.cid
  else ((s.convs.find? fun c => c.2.pageAt p.key == some pid).map (·.1)).getD p.cid

/-- The message that asks the holder of a copy for it: CID, layer, page index, KV head and the reserved frame. The
manual gives it no format (log entry 16). -/
def repairFetchBytes (cid : Nat) (p : Page) (frame : Nat) : List Byte :=
  le 6 cid ++ le 2 p.key.layer ++ le 4 p.key.index ++ le 1 p.key.head ++ zeros 1 ++ le 4 frame

/-- Asks the holder of a page's copy for it, into a frame reserved for the copy (R175, R465): false where no holder can
be reached. A move in progress ends early, and what was queued behind it stays queued (R150, R151). Where no frame is
available the repair stays wanted until one is (R155, R175). -/
def State.startRepair (s : State) (pid : Nat) : Bool × State :=
  match s.page pid with
  | none => (false, s)
  | some p =>
    if p.moveKind = some .repair then (true, s) else
    match p.twinNode with
    | none => (false, s)
    | some j =>
      if !s.linkUp j then (false, s) else
      let s := s.turnMove pid
      let t := if p.outside then Tier.warm else p.tier
      match s.allocFrame t (.repairTarget pid) with
      | none => (true, s.modPage pid fun p => { p with queued := some .repair })
      | some (f, s) =>
        let s := s.modPage pid fun p =>
          { p with state := .moving, moveKind := some .repair, targetTier := t, targetFrame := f, moveStarted := s.now
                   queued := if p.queued = some .repair then none else p.queued }
        (true, s.post (s.nodeQp j) 2 [.send (repairFetchBytes (s.fetchCid pid p) p f)])

/-! ## Seals of copies, and thawing -/

/-- Verifies the SEAL of a frame that has come from outside the node's own memories, in the check-value unit of its stack; a failure is
counted and reported (R137, R621, R629). -/
def State.verifySeal (s : State) (f : Nat) (frame : List Byte) : Bool × State :=
  let (struck, s) := s.unitStruck (10 + f % 8) 3
  if sealOk frame && !struck then (true, s) else (false, (s.bump Ctr.sealCheckFail).checkFailed Blk.hot f struck)

/-- Reads a frame through the thaw unit numbered by bits [2:0] of the frame number: whether what it thaws holds no format fault. A
format fault counts as an uncorrectable read, and the frame of an unreadable read is retired (R123, R125, R126, R174, R616). -/
def State.readThaw (s : State) (t : Tier) (f : Nat) (ok : State → Bool) : Bool × State :=
  match s.checkFrame t f with
  | (.poisoned, s) => (false, s)
  | (.unreadable, s) => (false, s.retireFrame t f)
  | (.good, s) =>
    let (inj, s) := s.injected Blk.hot (17 + f % 8)
    if inj.isNone && ok s then (true, s)
    else (false, ((s.bump Ctr.thawFormatFault).wordUncorrectable Blk.hot f inj.isSome).retireFrame t f)

/-- The thawed positions of a page below VALID, or none at a format fault (R123, R126). -/
def State.thawPage (s : State) (l : Layout) (t : Tier) (f first valid : Nat) (values : Bool) : Option (List Position) :=
  allSome ((List.range valid).map fun p =>
    let key := allSome (l.thawKey (s.readFrame t f (l.keyAt p) l.keyRow))
    let val := if l.latent || !values then some []
      else allSome (thawField l.valueFormat l.headDim (s.readFrame t f (l.valueAt p) l.valueRow))
    match key, val with
    | some k, some v =>
      some { kpos := first + p, kseg := fieldAt (s.readFrame t f (Config.dataBytes + 64 + 2 * p) 2) 0 2
             key := k, value := if l.latent then k.take l.latentRank else v }
    | _, _ => none)

end Sys2Proof.Machine
end

