-- ==== Sys2Proof/Machine/Reqs.lean ====
section
/-! DEFINITION. Requests in progress: versions they hold (R538, R539), their end (R299, R300, R306), the spreading of
their rows and descriptors over tiles (R197, R220-R230), wakes (R185, R186), and the estimate of R304 and R305. -/
namespace Sys2Proof.Machine

/-! ## Published versions held (R531, R538, R539) -/

/-- Whether nothing holds a version any more (R539). -/
def Version.idle (v : Version) : Bool := v.conversations.isEmpty && v.subscribers.isEmpty && v.users.isEmpty

/-- Frees a version: its CAM entry, its NAMEs and its frames (R539). -/
def State.freeVersion (s : State) (h : Nat) : State :=
  match Table.get s.regions.versions h with
  | none => s
  | some v =>
    let s := s.modRegions fun r =>
      { r with versions := Table.erase r.versions h, names := r.names.filter fun n => n.2 != h }
    v.frames.foldl (fun s pid => s.dropRef pid) s

/-- A version retires when its attachment count and its references are both 0 (R539). -/
def State.reapVersion (s : State) (h : Nat) : State :=
  match Table.get s.regions.versions h with
  | none => s
  | some v => if v.idle && v.state != .loading then s.freeVersion h else s

/-- Changes a version. -/
def State.modVersion (s : State) (h : Nat) (f : Version → Version) : State :=
  s.modRegions fun r => { r with versions := Table.modify r.versions h f }

/-- A request takes a reference on a version (R538). -/
def State.useVersion (s : State) (ctx h : Nat) : State := s.modVersion h fun v => { v with users := addOnce v.users ctx }

/-- A request drops its references on versions (R538, R539). -/
def State.dropVersions (s : State) (ctx : Nat) (hs : List W64) : State :=
  hs.foldl (fun s h =>
    (s.modVersion h.toNat fun v => { v with users := v.users.filter (· != ctx) }).reapVersion h.toNat) s

/-! ## The end of a request -/

/-- A request context. -/
def State.req (s : State) (ctx : Nat) : Option Req := Table.get s.attn.reqs ctx

/-- Changes a request context. -/
def State.modReq (s : State) (ctx : Nat) (f : Req → Req) : State :=
  s.modAttn fun a => { a with reqs := Table.modify a.reqs ctx f }

/-- Removes a request's work from the tiles; its descriptors count as consumed, and the idle time of those tiles runs from
now (R142, R186, R245). -/
def State.dropWork (s : State) (drift : Bool) (ctx : Nat) : State :=
  let mine := fun (w : Work) => w.drift == drift && w.ctx == ctx
  let gone := (s.attn.tiles.flatMap fun t => t.queue.filter mine) ++
    (s.attn.logicals.flatMap fun l => l.abandoned.filter mine)
  let s := s.modAttn fun a =>
    { a with
      tiles := a.tiles.map fun t => if t.queue.any mine then { t with queue := t.queue.filter fun w => !mine w, idleSince := s.now } else t
      logicals := a.logicals.map fun l => { l with abandoned := l.abandoned.filter fun w => !mine w } }
  (gone.flatMap Work.open).foldl (fun s d => s.settleFrame d.tier d.frame) s

/-- Removes the untriggered messages of a request or pass (R471). -/
def State.cancelHeld (s : State) (f : Tag → Bool) : State :=
  s.modNet fun n => { n with egress := n.egress.filter fun m => !(m.held && f m.tag) }

/-- Releases a request's context, trigger counter, tiles, page and version references (R307, R470). -/
def State.releaseReq (s : State) (ctx : Nat) : State :=
  match s.req ctx with
  | none => s
  | some r =>
    let s := s.dropWork false ctx
    let s := s.modAttn fun a =>
      { a with reqs := Table.erase a.reqs ctx, triggersUsed := a.triggersUsed - (if r.trigger.isSome then 1 else 0) }
    let s := s.dropUser ctx
    (s.bumpBy Ctr.firnLate r.held.length |>.dropVersions ctx r.versions).cancelHeld fun t => t == .hostRecord ctx

/-- Whether a result mode is a home mode (R294). -/
def homeMode (mode : Nat) : Bool := mode == 0 || mode == 1 || mode == 2 || mode == 5

/-- The result item of a request (R279). -/
def Graze.item (g : Graze) : ResultItem := { addr := g.target, key := g.key, len := g.resultLen }

/-- The common header of a request's records (R257). -/
def State.recordHdr (s : State) (r : Req) (kind : Nat) : FirnHdr :=
  { kind := kind, source := s.nodeId, mask := 2 ^ r.participant, requestId := r.cmd.requestId.toNat, cid := r.cid
    layer := r.layer, snapshot := r.snapshot, participants := r.participants, modTag := r.modTag.toNat }

/-- The BREACH record of a request (R246, R262). -/
def State.breachRecord (s : State) (r : Req) (p0 : Nat) : List Byte :=
  let vector := r.graze.anchorForm = 1
  let flags := (if r.exact then 8 else 0) + (if vector then 4 else 0)
  let ev := ((s.layout r.layout).map (·.valueLen)).getD 0
  let anchor := if r.exact || vector then 0 else r.graze.anchor
  let h : FirnHdr := { s.recordHdr r 6 with
    mask := 0, firstRow := p0 / 2 ^ 32, aux := p0 % 2 ^ 32, flags := flags, ev := ev, anchor := anchor }
  h.encode []

/-- Ends a request with its one reply, from the home to the requester or from a participant to the home (R291, R300).
The estimate's release samples and the counters of R316 follow the home's end. -/
def State.endReq (s : State) (ctx : Nat) (a : Ans) : State :=
  match s.req ctx with
  | none => s
  | some r =>
    let s := s.releaseReq ctx
    let a := if a.status = Status.refusedState && a.p0 = 0 then { a with p0 := ((s.conv r.cid).map Conv.word).getD 0 } else a
    if r.isForward then s.finish r.cmd a else
    let s := if a.status = Status.ok then s.bump (if r.cairn then Ctr.cairnDone else Ctr.grazeDone)
      else if a.status = Status.deadlineMiss then s.bump Ctr.grazeMiss else s
    if a.status = Status.anchorBreach && homeMode r.graze.mode then
      s.finish r.cmd { a with result := s.breachRecord r a.p0, item := r.graze.item }
    else s.finish r.cmd a

/-- Whether the release of a request's result write waits in the queue of this cycle: it goes before a failure (R299; log entry
79). -/
def State.releaseWins (s : State) (ctx : Nat) : Bool :=
  ((s.req ctx).any (·.readyForResult)) && s.pending.contains (.resultRecordDone ctx)

/-- A failure ends a request, unless the release of its result write falls in the same cycle (R299). -/
def State.failReq (s : State) (ctx : Nat) (a : Ans) : State := if s.releaseWins ctx then s else s.endReq ctx a

/-- A failure of every request that satisfies a condition. -/
def State.endReqs (s : State) (f : Req → Bool) (a : Ans) : State :=
  (s.attn.reqs.filter fun p => f p.2).foldl (fun s p => s.failReq p.1 a) s

/-- The clock a request's deadline is read on: Rime time at the home, PTP time at a participant (R278, R289). -/
def State.reqNow (s : State) (r : Req) : Nat := if r.isForward then s.clk.ptp else s.now

/-! ## Tiles -/

/-- Whether a logical tile can take work: bound, or about to be bound to a spare (R227, R230). -/
def Logical.live (l : Logical) : Bool := l.valid || l.substitute.isSome

/-- A logical tile. -/
def State.logical (s : State) (n : Nat) : Logical := s.attn.logicals.getD n { phys := n }
/-- A physical tile. -/
def State.tile (s : State) (p : Nat) : Tile := s.attn.tiles.getD p {}
/-- Changes a physical tile. -/
def State.modTile (s : State) (p : Nat) (f : Tile → Tile) : State :=
  s.modAttn fun a => { a with tiles := modifyAt a.tiles p f }
/-- Changes a logical tile. -/
def State.modLogical (s : State) (n : Nat) (f : Logical → Logical) : State :=
  s.modAttn fun a => { a with logicals := modifyAt a.logicals n f }

/-- Wake latency of a power state in ns (R185). -/
def TilePower.wakeNs : TilePower → Nat
  | .run => 0
  | .clockStop => 40
  | .gated => 1600
  | .off => 0

/-- Orders a tile to wake for work (R185). -/
def State.wakeTile (s : State) (p : Nat) : State :=
  s.modTile p fun t =>
    match t.power with
    | .clockStop => { t with wakeDue := some (t.wakeDue.getD (s.now + 40)) }
    | .gated => { t with wakeDue := some (t.wakeDue.getD (s.now + 1600)) }
    | _ => t

/-- The lowest query store slot of a tile that no work in its queue has (R57; log entry 4). -/
def Tile.freeSlot (t : Tile) : Nat := ((List.range 256).find? fun k => !(t.queue.any fun w => w.qstore == k)).getD 0

/-- Queues work at a logical tile: at its physical tile, or held for the substitute that will be bound (R225, R228). -/
def State.queueWork (s : State) (n : Nat) (w : Work) : State :=
  let l := s.logical n
  if l.valid && l.substitute.isNone then
    (s.modTile l.phys fun t => { t with queue := t.queue ++ [{ w with qstore := t.freeSlot }] }).wakeTile l.phys
  else s.modLogical n fun l => { l with abandoned := l.abandoned ++ [w] }

/-- The row group of a pair whose first pass has ended stays staged at its tile, without descriptors, with its query slots and accumulator
bytes (R301). -/
def Work.stay (w : Work) : Work := { w with descs := [], sums := [], maxima := [], done := 0 }

/-- Whether a piece of work is the staged row group of a request's pair. -/
def Work.isStagedOf (x w : Work) : Bool := !x.drift && x.ctx == w.ctx && x.pair == w.pair && x.descs.isEmpty

/-- The work of a pass goes to a logical tile: into the row group that it holds staged for the pair, or as a new one (R224, R225,
R301). -/
def State.issueWork (s : State) (n : Nat) (w : Work) : State :=
  let l := s.logical n
  let into := fun (x : Work) => { x with descs := w.descs, arrival := w.arrival }
  if l.valid && l.substitute.isNone then
    match (s.tile l.phys).queue.findIdx? fun x => x.isStagedOf w with
    | none => s.queueWork n w
    | some i => (s.modTile l.phys fun t => { t with queue := modifyAt t.queue i into }).wakeTile l.phys
  else match l.abandoned.findIdx? fun x => x.isStagedOf w with
    | none => s.queueWork n w
    | some i => s.modLogical n fun l => { l with abandoned := modifyAt l.abandoned i into }

/-- Row groups of a request that no pass uses any more leave their tiles. -/
def State.dropGroups (s : State) (ctx : Nat) : State :=
  let keep := fun (w : Work) => !(!w.drift && w.ctx == ctx && w.descs.isEmpty)
  s.modAttn fun a =>
    { a with
      tiles := a.tiles.map fun t => { t with queue := t.queue.filter keep }
      logicals := a.logicals.map fun l => { l with abandoned := l.abandoned.filter keep } }

/-- The widened set width: the smallest of 8, 16, 32 and 64 at least P_r and at least WIDTH (R222). -/
def setWidth (width pairs : Nat) : Nat :=
  let n := max width pairs
  if n ≤ 8 then 8 else if n ≤ 16 then 16 else if n ≤ 32 then 32 else 64

/-- The logical tiles of pair j (R220, R222). -/
def pairTiles (base w pairs j : Nat) : List Nat :=
  ((List.range w).drop (j * w / pairs)).take ((j + 1) * w / pairs - j * w / pairs) |>.map fun m => (base + m) % 64

/-- The tile that position n of a pair's k tiles goes to: its own, or the next bound one cyclically (R230). -/
def redirect (live : Nat → Bool) (tiles : List Nat) (n : Nat) : Option Nat :=
  ((List.range tiles.length).map fun k => tiles.getD ((n + k) % tiles.length) 0).find? live

/-- The tiles that a pair's c descriptors go to (R223, R230). -/
def servedTiles (live : Nat → Bool) (tiles : List Nat) (c : Nat) : List Nat :=
  (List.range (min c tiles.length)).filterMap (redirect live tiles)

/-- The tiles of the pairs, each with its number of descriptors, where some tiles serve other pairs (R230). -/
def assignFrom (live : Nat → Bool) (used : List Nat) (pairs : List (List Nat × Nat)) : Option (List (List Nat)) :=
  match pairs with
  | [] => some []
  | (ts, c) :: rest =>
    if ts.any live then (assignFrom live used rest).map fun r => ((List.range ts.length).filterMap (redirect live ts)) :: r
    else if c = 0 then (assignFrom live used rest).map fun r => [] :: r
    else
      match (List.range 64).find? fun n => live n && !used.contains n with
      | none => none
      | some n => (assignFrom live (n :: used) rest).map fun r => [n] :: r

/-- The tiles that each pair's positions go to; none when a pair with descriptors finds no bound tile that serves no other
pair (R230). -/
def assignTiles (live : Nat → Bool) (sets : List (List Nat)) (counts : List Nat) : Option (List (List Nat)) :=
  let pairs := List.zip sets counts
  assignFrom live (pairs.flatMap fun x => servedTiles live x.1 x.2) pairs

/-- Descriptor number n of a pair goes to its tile n mod k: the work of each distinct tile (R223, R224). -/
def dealWork (tiles : List Nat) (mk : List Descriptor → Work) (ds : List Descriptor) : List (Nat × Work) :=
  let k := tiles.length
  let numbered := List.zip (List.range ds.length) ds
  (tiles.foldl addOnce []).filterMap fun t =>
    let mine := (numbered.filter fun x => tiles.getD (x.1 % k) 0 == t).map (·.2)
    match mine.getLast? with
    | none => none
    | some d => some (t, mk (mine.dropLast ++ [{ d with last := true }]))

/-! ## Pages of a request -/

/-- Pages of a request's own part below its snapshot, in page-index order for each KV head: the pages it has held a
reference on since its gate pass (R56, R290). -/
def State.reqPages (s : State) (ctx : Nat) (r : Req) (head : Nat) : List (PageKey × Nat) :=
  match Table.get s.attn.layouts r.layout with
  | some l =>
    let mine := s.tiers.pages.filter fun p =>
      p.2.users.contains ctx && p.2.key.layer == r.layer && p.2.key.head == head &&
      p.2.key.index * l.tokens < r.snapshot && r.pageFirst ≤ p.2.key.index && p.2.key.index < r.pageEnd
    let sorted := mine.foldl (fun (acc : Table (PageKey × Nat)) p => Table.set acc p.2.key.index (p.2.key, p.1)) []
    sorted.map (·.2)
  | none => []

/-- Whether a request's selection takes a page: every page but for a cairn request's summing pass (R309, R312). -/
def Req.takes (r : Req) (head index : Nat) : Bool :=
  !r.cairn || (r.candidates.getD head []).any fun c => c.1 == index

/-- The descriptor of a page as the directory stands (R57, R142). -/
def State.descriptor (s : State) (r : Req) (ctx : Nat) (l : Layout) (k : PageKey) (pid seq : Nat) : Option Descriptor :=
  (s.page pid).map fun p =>
    { pid := pid, tier := p.tier, frame := p.frame, frameGen := s.frameGen p.tier p.frame
      firstToken := k.index * l.tokens, index := k.index, layer := k.layer, head := k.head, layout := r.layout
      valid := min l.tokens (r.snapshot - k.index * l.tokens), isSealed := p.isSealed, last := false
      shared := p.version.isSome, ctx := ctx, seq := seq, issued := s.now }

/-- The 32 bytes of a page descriptor, with its query store slot and its pool; the context's index in the pool is its number
modulo 65,536 (R57; log entry 71). -/
def Descriptor.bytes (d : Descriptor) (qstore pool : Nat) : List Byte :=
  let tier := match d.tier with
    | .hot => 0
    | .warm => 1
  le 4 (tier * 2 ^ 30 + d.frame % 2 ^ 24) ++ le 4 d.frameGen ++ le 4 d.firstToken ++ le 4 d.index ++ le 2 d.layer ++ le 1 d.head ++
  le 1 d.layout ++ le 1 d.valid ++ le 1 (flagAt d.isSealed 0 + flagAt d.last 1 + flagAt d.shared 2) ++ le 1 qstore ++ zeros 1 ++
  le 4 (pool % 4 * 2 ^ 30 + d.ctx % 65536) ++ le 4 d.seq

/-- A descriptor is issued: the page's TOUCH is set, and a warm page is wanted hot under R146 (R146, R152). -/
def State.touchPage (s : State) (pid : Nat) : State :=
  match s.page pid with
  | none => s
  | some p =>
    let s := s.modPage pid fun p => { p with touch := s.ageTick }
    if p.tier = .warm && s.regs.promoteOnRead && s.avail .hot ≥ s.regs.hotEvictStart && p.state != .poisoned then s.wantMove pid .promote else s

/-- The pair list of a request: one KV head and one row group each (R198). -/
def Req.pairs (r : Req) (l : Layout) : List Group :=
  let rows := r.graze.tokens * r.graze.heads
  (List.range l.kvHeads).flatMap fun h =>
    (rowGroups r.rowFormat r.rowLen l.valueLen rows).map fun g => { head := h, lo := g.1, hi := g.2 }

/-! ## The estimate (R304, R305) -/

/-- Time of one page by R184, for a layout and the largest row group, in ns at the tile clock of 1.2 GHz. -/
def pageTimeNs (l : Layout) (rows : Nat) : Nat :=
  let rate := fun (code : Nat) => if code = 0 then 8192 else if code = 7 then 32768 else 16384
  let valueFormat := if l.latent then l.keyFormat else l.valueFormat
  let matrix := ceilDiv (rows * l.tokens * l.keyLen) (rate l.keyFormat) + ceilDiv (rows * l.tokens * l.valueLen) (rate valueFormat)
  let acc := rows * ceilDiv l.valueLen 128
  ceilDiv (max matrix acc * 5) 6

/-- The mean of samples, or a default. -/
def meanOr (xs : List Nat) (d : Nat) : Nat := if xs.isEmpty then d else xs.sum / xs.length

/-- What is left of a substitution under way for a logical tile: the wake and the known-answer test of 15 µs (R232,
R233). -/
def State.substLeft (s : State) (n : Nat) : Nat :=
  match (s.logical n).substitute with
  | none => 0
  | some p => (((s.tile p).wakeDue.getD s.now) - s.now) + 15000

/-- The logical tiles of a request's widened set (R220, R222). -/
def Req.tileSet (r : Req) (l : Layout) : List Nat :=
  (List.range (setWidth r.width (r.pairs l).length)).map fun m => (cidFold r.cid % 64 + m) % 64

/-- The longest wait for a substitution among the tiles of a request's set (R233). -/
def State.substNs (s : State) (r : Req) (l : Layout) : Nat := ((r.tileSet l).map s.substLeft).foldl max 0

/-- The parts of the estimate of R305 in ns: wake, pages queued, participants and release. With `again` the pages of a failed tile that
are issued again are among those queued (R233). Pages that the request itself has not queued yet, at its gate pass, are not (log entry
94). -/
def State.workNs (s : State) (r : Req) (l : Layout) (again : Bool) : Nat :=
  let wake := ((r.tileSet l).map fun n => (s.tile (s.logical n).phys).power.wakeNs).foldl max 0
  let queued := fun (n : Nat) =>
    ((s.tile (s.logical n).phys).queue ++ (if again then (s.logical n).abandoned else [])).map fun x => x.left.length
  let busiest := ((r.tileSet l).map fun n => (queued n).sum).foldl max 0
  let rows := ((r.pairs l).map fun g => g.hi + 1 - g.lo).foldl max 0
  let page := meanOr ((s.attn.pageTimes.filter fun x => x.1 == r.layout).map (·.2)) (pageTimeNs l rows)
  let others := (r.parts.filter fun p => p.node != s.nodeId).map fun p => meanOr (Table.getD s.attn.replyTimes p.node []) 10000
  let part := others.foldl max 0 * (if r.exact || r.cairn then 2 else 1)
  let release := if homeMode r.graze.mode then meanOr s.attn.releaseTimes 2000 else 0
  wake + busiest * page + part + release

/-- The estimate of the instant of release, as ns from now (R233, R305). -/
def State.estimateNs (s : State) (r : Req) (l : Layout) : Nat := s.workNs r l true + s.substNs r l

/-- Ends a request whose estimate exceeds its deadline: under R304, or under R233 where a substitution, with the work done again, alone
carries it past (R304). -/
def State.foresee (s : State) (ctx : Nat) : State :=
  match s.req ctx with
  | none => s
  | some r =>
    match Table.get s.attn.layouts r.layout with
    | none => s
    | some l =>
      if s.reqNow r + s.workNs r l false > r.deadline then s.failReq ctx (Ans.miss Reason.deadlineForeseen)
      else if s.reqNow r + s.estimateNs r l > r.deadline then s.failReq ctx (Ans.miss Reason.tileSubstitute)
      else s

/-- A substitution that carries a request past its deadline ends it (R233). -/
def State.foreseeSubst (s : State) (ctx : Nat) : State :=
  match s.req ctx with
  | none => s
  | some r =>
    match Table.get s.attn.layouts r.layout with
    | none => s
    | some l => if s.reqNow r + s.estimateNs r l > r.deadline then s.failReq ctx (Ans.miss Reason.tileSubstitute) else s

/-- ns that are left of a recall or repair under way, or of one that begins now, of a foreseen length (R179). -/
def State.moveLeft (s : State) (p : Page) (ns : Nat) : Nat :=
  if p.state = .moving && p.moveKind.isSome then p.moveStarted + ns - s.now else ns

/-- Time a recall of a page is foreseen to take: the mean of its target's last 64, or 4 ms (R179). -/
def State.recallNs (s : State) (p : Page) : Nat :=
  match p.spill with
  | none => 4000000
  | some x => meanOr ((Table.get s.tiers.targets x.target).map (·.recallTimes) |>.getD []) 4000000

/-- Why and how late a page is foreseen to be readable: the reason of R179 and the ns until then. A repair is taken to last
4 ms, as a recall without samples does: the manual gives no figure (DESIGN CHOICE, log entry 74). -/
def State.pageDelay (s : State) (p : Page) : Option (Nat × Nat) :=
  if p.queued = some .repair || (p.state = .moving && p.moveKind = some .repair) then
    some (Reason.twinRepair, s.moveLeft p 4000000)
  else if p.state = .spilled || (p.state = .moving && p.moveKind = some .refetch) then
    some (Reason.spillRecall, s.moveLeft p (s.recallNs p))
  else none

/-- A request waits for pages that cannot be read in place: each is counted once under its cause, recalls are wanted, and a request
that they would carry past its deadline ends at once (R178, R179). -/
def State.waitFor (s : State) (ctx : Nat) (pids : List Nat) : State :=
  pids.foldl (fun s pid =>
    match s.page pid, s.req ctx with
    | some p, some r =>
      if p.state = .poisoned then
        s.endReq ctx { status := Status.poisoned, reason := Reason.pagePoisoned }
      else match s.pageDelay p with
        | none => s
        | some (reason, ns) =>
          let s := if r.stalls.contains pid then s
            else s.bump (if reason = Reason.spillRecall then Ctr.stallRecall else Ctr.stallRepair)
          let s := if p.state = .spilled then s.wantMove pid .refetch else s
          if s.reqNow r + ns > r.deadline then s.endReq ctx (Ans.miss reason)
          else s.modReq ctx fun r => { r with stalls := addOnce r.stalls pid }
    | _, _ => s) s

/-- A request stalls: what stays of it after R179 makes its estimate anew (R304). -/
def State.stallReq (s : State) (ctx : Nat) (pids : List Nat) : State :=
  let before := (s.req ctx).map (·.stalls)
  let s := s.waitFor ctx pids
  if (s.req ctx).map (·.stalls) = before then s else s.foresee ctx

/-- A recall or a repair that begins later than it was foreseen, or takes the other's place: the requests that wait for its page are
judged again (R179). -/
def State.judgeStalls (s : State) (pid : Nat) : State :=
  (s.attn.reqs.filter fun p => p.2.stalls.contains pid).foldl (fun s p => s.stallReq p.1 [pid]) s

/-- Whether a page cannot be read in place now: it must be recalled or repaired first, or no good copy is left (R44, R174). -/
def Page.away (p : Page) : Bool :=
  p.state == .spilled || p.state == .poisoned || p.queued == some .repair ||
  (p.state == .moving && (p.moveKind == some .refetch || p.moveKind == some .repair))

/-- Pages of a request's pass that cannot be read in place (R44). -/
def State.passAway (s : State) (ctx : Nat) (r : Req) (l : Layout) : List Nat :=
  ((List.range l.kvHeads).flatMap fun h => ((s.reqPages ctx r h).filter fun p => r.takes h p.1.index).map (·.2)).filter fun pid =>
    ((s.page pid).map Page.away).getD false

/-- Issues the descriptors of a request's pass to its tiles (R56, R197-R230); a cairn request's first pass has none
(R310). A pair without descriptors serves no
tile. A page that has left the tiers since the gate pass is waited for first (R44). When no bound tile is free for a pair the
request ends TILES_UNBOUND. -/
def State.issueReq (s : State) (ctx : Nat) : State :=
  match s.req ctx with
  | none => s
  | some r =>
    if !r.stalls.isEmpty || r.pass == .cairnScore then s else
    match Table.get s.attn.layouts r.layout with
    | none => s
    | some l =>
      if !(s.passAway ctx r l).isEmpty then s.stallReq ctx (s.passAway ctx r l) else
      let groups := r.pairs l
      let pairs := groups.length
      let w := setWidth r.width pairs
      let base := cidFold r.cid % 64
      let sets := (List.range pairs).map (pairTiles base w pairs)
      let pagesOf := fun (j : Nat) =>
        let g := groups.getD j { head := 0, lo := 0, hi := 0 }
        (s.reqPages ctx r g.head).filter fun p => r.takes g.head p.1.index
      match assignTiles (fun n => (s.logical n).live) sets ((List.range pairs).map fun j => (pagesOf j).length) with
      | none => s.endReq ctx (Ans.state Reason.tilesUnbound)
      | some tiles =>
        let works := ((List.range pairs).map fun j =>
          let g := groups.getD j { head := 0, lo := 0, hi := 0 }
          let pages := pagesOf j
          let ds := (List.zip (List.range pages.length) pages).filterMap fun x =>
            s.descriptor r ctx l x.2.1 x.2.2 x.1
          dealWork (tiles.getD j []) (fun ds =>
            { ctx := ctx, drift := false, pair := j, group := g, descs := ds, arrival := s.now }) ds).flatten
        let touched := ((List.range l.kvHeads).flatMap fun h =>
          ((s.reqPages ctx r h).filter fun p => r.takes h p.1.index).map (·.2))
        let s := touched.foldl State.touchPage s
        let s := s.modReq ctx fun r =>
          { r with outstanding := works.length, ownDone := false, served := works.map fun w => (w.1, w.2.pair) }
        (works.foldl (fun s w => s.issueWork w.1 w.2) s).dropGroups ctx

end Sys2Proof.Machine
end

