-- ==== Sys2Proof/Machine/Wire.lean ====
section
/-! DEFINITION. A message on its way between the wire and the node: the user check-value units (R622 to R627), the node states in
which messages are taken (R395), and the faults that discard a packet (R449, R634). -/
namespace Sys2Proof.Machine

/-! ## Check-value units (R623, R625 to R627) -/

/-- Fields of CHK_CFG (R623). -/
def ChkUnit.en (u : ChkUnit) : Bool := bit u.cfg.toNat 31
def ChkUnit.append (u : ChkUnit) : Bool := bits u.cfg.toNat 30 29 == 1
def ChkUnit.hold (u : ChkUnit) : Bool := bits u.cfg.toNat 30 29 == 0
def ChkUnit.egress (u : ChkUnit) : Bool := bit u.cfg.toNat 28
def ChkUnit.alive (u : ChkUnit) : Bool := bit u.cfg.toNat 25
def ChkUnit.width (u : ChkUnit) : Nat := bits u.cfg.toNat 22 16
def ChkUnit.qp (u : ChkUnit) : Nat := bits u.cfg.toNat 13 0

/-- The check value of bytes under a unit (R620, R623). -/
def ChkUnit.value (u : ChkUnit) (bs : List Byte) : Nat :=
  crc u.width u.poly.toNat u.init.toNat (bit u.cfg.toNat 27) (bit u.cfg.toNat 26) bs

/-- Bytes that an APPEND unit adds (R626). -/
def ChkUnit.tailLen (u : ChkUnit) : Nat := (if u.alive then 4 else 0) + ceilDiv u.width 8

/-- Changes a check-value unit. -/
def State.modChk (s : State) (n : Nat) (f : ChkUnit → ChkUnit) : State :=
  s.modRegs fun r => { r with chk := Table.modify r.chk n f }

/-- HOLD units of a QP and direction store the value of a message's payload (R625). -/
def State.chkHold (s : State) (qp : Nat) (out : Bool) (bs : List Byte) : State :=
  (s.regs.chk.filter fun u => u.2.en && u.2.hold && u.2.egress == out && u.2.qp == qp).foldl
    (fun s u => s.modChk u.1 fun x => { x with result := BitVec.ofNat 64 (u.2.value bs) }) s

/-- The APPEND unit of a QP and direction. -/
def State.chkUnit (s : State) (qp : Nat) (out : Bool) : Option (Nat × ChkUnit) :=
  s.regs.chk.find? fun u => u.2.en && u.2.append && u.2.egress == out && u.2.qp == qp

/-- A SEND passes the units of its QP at ingress: what is left of it, or none where it is discarded (R625 to R627). -/
def State.chkIngress (s : State) (qp : Nat) (bs : List Byte) : Option (List Byte) × State :=
  let s := s.chkHold qp false bs
  match s.chkUnit qp false with
  | none => (some bs, s)
  | some (n, u) =>
    let (inj, s) := s.injected Blk.chk n
    let k := bs.length - u.tailLen
    let body := bs.take (k + if u.alive then 4 else 0)
    let got := leNat (bs.drop (k + if u.alive then 4 else 0))
    let got := if inj = some 3 then Nat.xor got 1 else got
    if bs.length < u.tailLen || got != u.value body then
      (none, ((s.bump Ctr.chkFail).checkNoted Blk.chk inj.isSome).raise Blk.chk Reason.chkStreamFail n inj.isSome)
    else if u.alive then
      let a := if inj = some 4 then (u.aliveExp - 1).toNat else fieldAt bs k 4
      let d := (a + 2 ^ 32 - u.aliveExp.toNat) % 2 ^ 32
      if d ≥ 2 ^ 31 then (none, s.bump Ctr.chkAliveRepeat)
      else
        let s := s.modChk n fun x => { x with aliveExp := BitVec.ofNat 32 (a + 1) }
        (some (bs.take k), if d = 0 then s else s.bump Ctr.chkAliveGap)
    else (some (bs.take k), s)

/-- A SEND leaves through the APPEND unit of its QP (R626). -/
def State.chkEgress (s : State) (qp : Nat) (bs : List Byte) : List Byte × State :=
  match s.chkUnit qp true with
  | none => (bs, s)
  | some (n, u) =>
    let body := if u.alive then bs ++ le 4 u.aliveExp.toNat else bs
    (body ++ le (ceilDiv u.width 8) (u.value body),
     if u.alive then s.modChk n fun x => { x with aliveExp := x.aliveExp + 1 } else s)

/-! ## A SEND arrives -/

/-- Node states in which command packets are taken (R395); after a trip none is (R695). -/
def State.takesCommands (s : State) : Bool :=
  s.pwr.state == .active && match s.node.state with
  | .configurable => true
  | .serving => true
  | .degraded => true
  | .fenced => true
  | _ => false

/-- FEC lanes of a port among the 32 of the NET block (R635). -/
def State.portLanes (s : State) (p : Nat) : List Nat :=
  let n := 32 / s.portCount
  (List.range n).map fun k => p * n + k

/-- The faults injected on the way of a packet from its lanes to the transport: an uncorrectable codeword, an
UNCORRECTABLE or poisoned flit, or a wrong ICRC discards it (R449, R613, R634, R635; log entry 13). -/
def State.wireOk (s : State) (i : Nat) : Bool × State :=
  let (fec, s) := (s.portLanes (s.portOf i)).foldl (fun (acc : Bool × State) lane =>
    let (k, s) := acc.2.injected Blk.net lane
    (acc.1 && k != some 1, s)) (true, s)
  let (flit, s) := s.sramRead Blk.fab (i % 64) i
  let (icrc, s) := s.injected Blk.rdma 0
  if icrc.isSome then (false, s.bump Ctr.icrcFail) else (fec && flit, s)

/-- What a packet's PSN is to the expected one (R477). -/
inductive PsnClass where
  | expected | duplicate | ahead
deriving DecidableEq, Repr
def psnClass (want got : Nat) : PsnClass :=
  let d : BitVec 24 := BitVec.ofNat 24 want - BitVec.ofNat 24 got
  if d = 0 then .expected else if d.toNat ≤ 2 ^ 23 then .duplicate else .ahead

/-! ## The receive buffers (R491) -/

/-- The command packet that a block command brings. -/
def commandOf (i : Instr) : Option Cmd :=
  match i with
  | .nodeQuery c => some c
  | .nodeProfileLoad c => some c
  | .fabricTableLoad c => some c
  | .nodeServe c => some c
  | .nodeDrain c => some c
  | .roleSet c => some c
  | .regRead c => some c
  | .regWrite c => some c
  | .blockEnable c => some c
  | .blockDisable c => some c
  | .convOpen c => some c
  | .convAppend c => some c
  | .convSeal c => some c
  | .convTruncate c => some c
  | .convFork c => some c
  | .convClose c => some c
  | .convPin c => some c
  | .convStat c => some c
  | .convMoveOffer c => some c
  | .convMoveAccept c => some c
  | .convMoveCommit c => some c
  | .convLease c => some c
  | .attnGraze c => some c
  | .attnGrazeExact c => some c
  | .attnCairn c => some c
  | .grazeForward c => some c
  | .continueForward c => some c
  | .attnDriftArm c => some c
  | .resultFetch c => some c
  | .resultRelease c => some c
  | .layoutDefine c => some c
  | .modifierLoad c => some c
  | .regionCreate c => some c
  | .regionRegister c => some c
  | .regionRevoke c => some c
  | .regionPublish c => some c
  | .regionAttach c => some c
  | .regionDetach c => some c
  | .nearFill c => some c
  | .nearCopy c => some c
  | .nearCompare c => some c
  | .nearReduce c => some c
  | .prefixLookup c => some c
  | .spillTargetAdd c => some c
  | .qpsEstablish c => some c
  | .qpsReset c => some c
  | .gclChange c => some c
  | .twinBind c => some c
  | .twinResync c => some c
  | .healthRead c => some c
  | .fence c => some c
  | .ownerProbe c => some c
  | .attest c => some c
  | .tenantBegin c => some c
  | .tenantEnd c => some c
  | .firmwareStage c => some c
  | .firmwareActivate c => some c
  | .setKeyUnwrap c => some c
  | .diagInject c => some c
  | .diagCounters c => some c
  | .diagTrace c => some c
  | .injArm c => some c
  | .injDisarm c => some c
  | .injBlockDisarm c => some c
  | .chkUnitEnable c => some c
  | .evtPop c => some c
  | _ => none

/-- The class of a command that comes on a NODE QP (R496). -/
def commandClass (code : Nat) : Nat :=
  if code = 0x0505 || code = 0x020A || code = 0x020B then 7 else if code = 0x0209 then 4 else 6

/-- A message that waits to be received: its QP, its class on a NODE QP (R496), and its bytes. -/
def incoming (i : Instr) : Option (Nat × Nat × Nat) :=
  match i with
  | .windowAppend p _ _ _ payload trailer => some (p.qp, 0, payload.length + trailer.length)
  | .landingRecordPlace p _ data => some (p.qp, 6, data.length)
  | .driftReadyRecv p m => some (p.qp, 7, m.length)
  | .driftBeatRecv p m => some (p.qp, 7, m.length)
  | .driftAbortRecv p m => some (p.qp, 7, m.length)
  | .recallLanding p _ image => some (p.qp, 0, image.length)
  | .stampRecv p m => some (p.qp, 4, m.length)
  | .repairFetch p _ _ _ _ _ => some (p.qp, 2, 16)
  | .repairCopyLand _ (some m) => some (m.qp, 2, m.data.length)
  | .rdmaWriteRecv m => some (m.qp, if m.key = 0 then 4 else 5, m.data.length)
  | .twinWriteRecv qp _ _ _ data => some (qp, 4, data.length)
  | i => (commandOf i).bind fun c =>
      match c.src with
      | .qp q => some (q, commandClass c.hdr.opcode.toNat, 64 + c.payload.length + c.tail.length)
      | .lane _ => none

/-- What the receive buffer of a priority of a port holds: the messages that wait in the queue (log entry 55). -/
def State.rxBytes (s : State) (port prio : Nat) : Nat :=
  ((s.pending.filterMap incoming).map fun x => if s.portOf x.1 == port && s.classOf x.1 x.2.1 == prio then x.2.2 else 0).sum

/-- A PFC frame that pauses a priority at the link partner, or releases it: an IEEE 802.1Qbb frame to 01-80-C2-00-00-01, with the longest
time or none (R9, R491; log entry 72). -/
def pfcBytes (srcMac prio : Nat) (pause : Bool) : List Byte :=
  be 6 0x0180C2000001 ++ be 6 srcMac ++ be 2 0x8808 ++ be 2 0x0101 ++ be 2 (2 ^ prio) ++
  ((List.range 8).map fun k => be 2 (if k = prio && pause then 0xFFFF else 0)).flatten ++ zeros 26

/-- Sends a PFC frame on a port: it is of no service (R491). -/
def State.sendPfc (s : State) (port prio : Nat) (pause : Bool) : State :=
  (s.modPort port fun p =>
    { p with rxPaused := if pause then addOnce p.rxPaused prio else p.rxPaused.filter (· != prio) }).modNet fun n =>
    { n with wire := n.wire ++ [{ port := port, qp := 0, cls := prio, msg := n.nextMsg, bytes := 46, last := true, ops := []
                                  headers := pfcBytes ((s.selfEntry.map (·.mac.toNat)).getD 0) prio pause }] }

/-- Under the profile's PFC bit the node pauses a priority whose receive buffer holds more than 1 MiB, and releases it below 512 KiB
(R491). -/
def State.pace (s : State) (port : Nat) : State :=
  if !((s.node.profile.map (·.pfc)).getD false) then s else
  (List.range 8).foldl (fun s prio =>
    let n := s.rxBytes port prio
    let now := (s.port port).rxPaused.contains prio
    if !now && decide (n > 2 ^ 20) then s.sendPfc port prio true
    else if now && decide (n < 2 ^ 19) then s.sendPfc port prio false else s) s

end Sys2Proof.Machine
end

