-- ==== Sys2Proof/Machine/Ends.lean ====
section
/-! DEFINITION. What ends when something fails: appends (R83, R377, R565), requests and drift passes (R299, R353 to
R359), pages and conversations (R175, R177, R584), spill targets (R173), queue pairs (R478 to R480), partners (R563 to
R567), and the node itself (R441, R564). -/
namespace Sys2Proof.Machine

/-! ## Appends (R69, R83, R377) -/

/-- Changes a region. -/
def State.modRegion (s : State) (id : W64) (f : Region → Region) : State :=
  s.modRegions fun r => { r with regions := Table.modify r.regions id.toNat f }

/-- A region the node holds. -/
def State.region (s : State) (id : W64) : Option Region := Table.get s.regions.regions id.toNat

/-- Releases the slot of a window append: its expected generation rises modulo 256 (R69). -/
def State.releaseSlot (s : State) (a : Append) : State :=
  match a.ctx with
  | some _ => s
  | none => s.modRegion a.window fun r =>
      { r with generations := Table.set r.generations a.slot ((Table.getD r.generations a.slot 0 + 1) % 256) }

/-- The command context that an append's reply copies (R377). -/
def Append.context (a : Append) : CmdCtx :=
  match a.ctx with
  | some c => { c with layer := BitVec.ofNat 16 a.layer }
  | none =>
    { src := .qp a.qp, subscriber := 0, opcode := 0x0202, requestId := BitVec.ofNat 64 (2 ^ 63 + a.ticket.toNat)
      targetId := BitVec.ofNat 64 a.cid, layer := BitVec.ofNat 16 a.layer, qpSeq := 0, arrival := a.arrival
      deadline := 0, conn := a.conn, recorded := false }

/-- Committed length of the layers of an append. -/
def Append.committed (a : Append) (c : Option Conv) : Nat :=
  match c with
  | none => 0
  | some c => c.committed.getD a.layer 0

/-- PARAM1 of an append's reply, refused or not (R377). -/
def Append.param1 (a : Append) : Nat := a.ticket.toNat + 2 ^ 32 * a.token

/-- PARAM0 of an append's reply where the refusing rule says nothing else (R377). -/
def Append.param0 (a : Append) (c : Option Conv) : Nat := a.committed c + 2 ^ 32 * a.layerCount

/-- Answers an append (R377). -/
def State.answerAppend (s : State) (a : Append) (ans : Ans) : State :=
  s.finish a.context { ans with p1 := a.param1, ownParam1 := true }

/-- Refuses an append: its slot is released and its reply written (R69, R377). REFUSED_STATE carries the form of R66,
THROTTLED its hint; PARAM0 is otherwise that of R377. -/
def State.refuseAppend (s : State) (a : Append) (ans : Ans) : State :=
  let c := s.conv a.cid
  let ans :=
    if ans.status = Status.throttled then ans
    else if ans.status = Status.refusedState then { ans with p0 := (c.map Conv.word).getD 0 }
    else { ans with p0 := a.param0 c }
  (s.releaseSlot a).answerAppend a ans

/-- Opens again the pages that only discarded appends had filled (R39; log entry 15). -/
def State.reopenPages (s : State) (cid : Nat) : State :=
  match s.conv cid with
  | none => s
  | some c =>
    match s.layout c.layout with
    | none => s
    | some l =>
      c.pages.foldl (fun s p =>
        match s.page p.2 with
        | none => s
        | some g =>
          let fill := if g.isSealed then g.fill else (g.sealDue.map (·.1)).getD 0
          if g.version.isNone && g.cid == cid && p.1.index * l.tokens + fill > c.committed.getD p.1.layer 0 + c.passedOf p.1.layer then
            (if g.isSealed then s.unsealPage p.2 else s.modPage p.2 fun g => { g with sealDue := none })
          else s) s

/-- Discards the appends of a conversation that satisfy a condition: each is counted, its slot released and its reply
written (R83, R377, R565). -/
def State.discardAppends (s : State) (cid : Nat) (f : Append → Bool) (ans : Ans) : State :=
  match s.conv cid with
  | none => s
  | some c =>
    let gone := (c.passed ++ c.held).filter f
    if gone.isEmpty then s else
    let s := s.modConv cid fun c =>
      { c with passed := c.passed.filter fun a => !f a, held := c.held.filter fun a => !f a }
    (gone.foldl (fun s a => (s.bump Ctr.appendTailDiscard).refuseAppend a ans) s).reopenPages cid

/-- Discards every uncommitted append of a conversation (R83). -/
def State.discardTail (s : State) (cid : Nat) : State :=
  s.discardAppends cid (fun _ => true) (Ans.state Reason.appendDiscarded)

/-- Ends the tail lease and discards the uncommitted appends (R83, R85). -/
def State.endLease (s : State) (cid : Nat) : State :=
  (s.modConv cid fun c =>
    { c with
      lease := none
      lostLease := match c.lease with
        | none => c.lostLease
        | some q => addOnce c.lostLease q }).discardTail cid

/-! ## Lost pages and conversations (R92, R175, R177, R584) -/

/-- A conversation becomes LOST: counted and reported once (R584). -/
def State.loseConv (s : State) (cid : Nat) : State :=
  match s.conv cid with
  | none => s
  | some c =>
    if c.state = .lost then s else
    ((s.modConv cid fun c => { c with state := .lost }).bump Ctr.convLost).raise Blk.twin Reason.convLost cid

/-- A page without a good copy: POISONED, with its event; the conversations that refer to it are LOST, or its published
version is poisoned; requests that wait for it end (R177). What its move held is given up, and a page that nothing refers to
is freed (R144, R145). -/
def State.poisonPage (s : State) (pid : Nat) : State :=
  match s.page pid with
  | none => s
  | some p =>
    let s := (s.dropTarget pid).modPage pid fun q => { q with state := .poisoned, moveKind := none, queued := none, noFrame := p.outside }
    let s := s.raise (tierBlock p.tier) Reason.pagePoisoned p.cid
    let s := match p.version with
      | some h => s.modVersion h.toNat fun v => { v with state := .poisoned }
      | none => (s.convs.filter fun (c : Nat × Conv) => c.2.pages.any fun x => x.2 == pid).foldl
        (fun (s : State) (c : Nat × Conv) => s.loseConv c.1) s
    (s.endReqs (fun r => r.stalls.contains pid || (match p.version with
        | some h => r.versions.contains h
        | none => false))
      { status := Status.poisoned, reason := Reason.pagePoisoned }).reapPage pid

/-- Repairs a page from its twin, else from the second twin of a G3 shared page, else it is POISONED (R175, R177); the requests that
wait for it are judged again (R179). A page that nothing refers to any more is freed instead (R145), and one that is POISONED stays
so (R144). -/
def State.repairOrPoison (s : State) (pid : Nat) : State :=
  if ((s.page pid).map fun p => p.refs == 0 && p.users.isEmpty).getD false then (s.dropTarget pid).freePage pid
  else if ((s.page pid).map (·.state)) = some .poisoned then s else
  let (ok, s) := s.startRepair pid
  if ok then s.judgeStalls pid else
  let second := ((s.page pid).bind (·.twin2Node)).isSome
  if second then
    let s := s.modPage pid fun p =>
      { p with twinNode := p.twin2Node, twinFrame := p.twin2Frame, twin2Node := none }
    let (ok, s) := s.startRepair pid
    if ok then s.judgeStalls pid else s.poisonPage pid
  else s.poisonPage pid

/-- Reads a page's frame: whether it is good. A frame that cannot be read is retired, and the page repaired or poisoned (R174 to
R177). -/
def State.soundPage (s : State) (pid : Nat) : Bool × State :=
  match s.page pid with
  | none => (false, s)
  | some p =>
    match s.checkFrame p.tier p.frame with
    | (.good, s) => (true, s)
    | (.poisoned, s) => (false, s.repairOrPoison pid)
    | (.unreadable, s) => (false, (s.retireFrame p.tier p.frame).repairOrPoison pid)

/-- The copy that a repair asked for cannot be had: the loss of that copy (R175, R177). -/
def State.repairFailed (s : State) (pid : Nat) : State :=
  ((s.turnMove pid).modPage pid fun p =>
    { p with twinNode := p.twin2Node, twinFrame := p.twin2Frame, twin2Node := none }).repairOrPoison pid

/-- A recall that failed or was late is abandoned, and the page repaired from its twin (R172). -/
def State.recallFailed (s : State) (pid : Nat) : State :=
  let s := (s.turnMove pid).bump Ctr.spillImageFail
  (s.modTiers fun t =>
    { t with targets := t.targets.map fun x => (x.1, { x.2 with recalls := x.2.recalls.filter fun y => y.2 != pid }) }).repairOrPoison pid

/-- A page whose spill target is removed: an image not yet acknowledged is abandoned and the page stays in its warm frame; a
page that lies there, or is being recalled from there, is repaired; a repair under way goes on (R173). -/
def State.leaveTarget (s : State) (pid : Nat) (p : Page) : State :=
  let gone := fun (s : State) => s.modPage pid fun q => { q with noFrame := true, spill := none }
  match p.state, p.moveKind with
  | .moving, some .evictWarm => (s.dropTarget pid).reapPage pid
  | .moving, some .refetch => (gone (s.turnMove pid)).repairOrPoison pid
  | .spilled, _ => (gone s).repairOrPoison pid
  | _, _ => gone s

/-- The spill targets of a QP that entered its error state are removed (R173). -/
def State.removeTargets (s : State) (qp : Nat) : State :=
  (s.tiers.targets.filter fun t => t.2.qp == qp).foldl (fun s t =>
    let s := (s.tiers.pages.filter fun p => (p.2.spill.map (·.target)) == some t.1).foldl (fun s p => s.leaveTarget p.1 p.2) s
    s.modTiers fun x => { x with targets := Table.erase x.targets t.1 }) s

/-! ## Drift passes (R353 to R359) -/

/-- What an abort says (R354). -/
structure Abort where
  ring : Nat
  origin : Nat
  originStatus : Nat := Status.collectiveAbort
  reason : Nat
  originReason : Nat := 0
  takeover : Nat
  step : Nat
  detail : W64 := 0
deriving DecidableEq, Repr

/-- The 64 bytes of an ABORT (R354). -/
def Abort.bytes (a : Abort) : List Byte :=
  le 2 a.ring ++ le 1 a.origin ++ le 1 a.originStatus ++ le 2 a.reason ++ le 2 a.originReason ++ le 8 a.takeover ++
  le 1 a.step ++ zeros 7 ++ le 8 a.detail.toNat ++ zeros 32

/-- The abort that an ABORT's bytes say; none for a malformed one, a status that R14 does not define among that. -/
def Abort.parse (b : List Byte) : Option Abort :=
  if b.length = 64 && zeroAt b 17 7 && zeroAt b 32 32 && fieldAt b 3 1 < 16 then
    some { ring := fieldAt b 0 2, origin := fieldAt b 2 1, originStatus := fieldAt b 3 1, reason := fieldAt b 4 2
           originReason := fieldAt b 6 2, takeover := fieldAt b 8 8, step := fieldAt b 16 1
           detail := BitVec.ofNat 64 (fieldAt b 24 8) }
  else none

/-- PARAM0 of an aborted arm's reply (R355). -/
def Abort.param0 (a : Abort) : Nat :=
  a.origin + 2 ^ 8 * a.originStatus + 2 ^ 16 * a.originReason + 2 ^ 32 * a.step

/-- A drift slot. -/
def State.drift (s : State) (slot : Nat) : Drift := s.drifts.getD slot {}
/-- Changes a drift slot. -/
def State.modDrift (s : State) (slot : Nat) (f : Drift → Drift) : State := { s with drifts := modifyAt s.drifts slot f }

/-- Members of a ring (R317). -/
def State.ringMembers (s : State) (ring : Nat) : List Nat :=
  ((s.node.fabric.bind fun f => f.rings.find? fun r => r.id == ring).map (·.members)).getD []

/-- Instants of a pass in PTP ns (R338). -/
def Drift.start (d : Drift) (step : Nat) : Nat := d.takeover + (d.durations.take step).sum
def Drift.release (d : Drift) : Nat := d.takeover + d.durations.sum + 60000

/-- The neighbours of a member (R317). -/
def Drift.succ (d : Drift) : Nat := (d.member + 1) % d.members
def Drift.pred (d : Drift) : Nat := (d.member + d.members - 1) % d.members

/-- What the member finds at the close of W_s (R341). -/
def Drift.late (d : Drift) : Option Nat :=
  if d.accumulated ≤ d.step then some Reason.driftComputeLate
  else if d.step + 2 ≤ d.members && !d.sent.contains d.step then some Reason.driftSendLate
  else if d.step + 2 ≤ d.members && !d.verified.contains d.step then some Reason.driftBlockLate
  else none

/-- Gate entries of a pass leave its port (R355, R508). -/
def State.dropDriftGates (s : State) (slot : Nat) : State :=
  let d := s.drift slot
  s.modPort d.port fun p => { p with drift := p.drift.filter fun e => e.2.2 != slot }

/-- Frees a key index: its generation rises modulo 256 (R486). -/
def State.freeKey (s : State) (k : Nat) : State :=
  s.modRegions fun r =>
    { r with keys := Table.erase r.keys k, keyGens := Table.set r.keyGens k ((Table.getD r.keyGens k 0 + 1) % 256) }

/-- The number under which a drift pass holds its absorb version, apart from the request contexts (R538). -/
def driftUser (slot : Nat) : Nat := 2 ^ 32 + slot

/-- Releases what a pass holds: its tiles' work, frames, gate entries, trigger counters, landing key and absorb version
(R334, R355). -/
def State.releaseDrift (s : State) (slot : Nat) : State :=
  let d := s.drift slot
  let s := s.dropWork true slot
  let s := d.frames.foldl (fun s f => s.freeFrame .hot f) s
  let s := s.dropDriftGates slot
  let s := s.modAttn fun a => { a with triggersUsed := a.triggersUsed - (d.members - 1) }
  let s := if d.absorb = 0 then s else s.dropVersions (driftUser slot) [d.absorb]
  s.freeKey d.ownKey

/-- Remembers an abort for 2 s, the last 64 of them (R359). -/
def State.rememberAbort (s : State) (a : Abort) : State :=
  let m : AbortMemo :=
    { ring := a.ring, takeover := a.takeover, reason := a.reason, param0 := BitVec.ofNat 64 a.param0, param1 := a.detail
      at_ := s.now }
  let l := s.aborts ++ [m]
  { s with aborts := l.drop (l.length - 64) }

/-- A drift message to a member of a ring, in class 7 (R496). -/
def State.sendMember (s : State) (d : Drift) (m : Nat) (bs : List Byte) : State :=
  match (s.ringMembers d.ring)[m]? with
  | none => s
  | some j => s.post (s.nodeQp j) 7 [.send bs]

/-- The messages of a pass that has stopped: its unsent block sends and result writes are cancelled; the rest of a block send that
has begun waits for a window of any armed pass, and a result write that has begun is of no slot any more; what has been acknowledged
counts for no later pass of the slot (R351, R355, R357, R508; log entry 77). -/
def State.cancelSends (s : State) (slot : Nat) : State :=
  let mine := fun (m : Msg) => m.drift.map (·.1) == some slot || m.tag == .driftResult slot
  let begun := fun (m : Msg) => if mine m then { m with drift := none, tag := .none } else m
  s.modNet fun n =>
    { n with
      egress := (n.egress.filter fun m => !(mine m && m.sent == 0 && m.psn.isNone)).map begun
      qps := Table.mapVals n.qps fun _ q => { q with unacked := q.unacked.map begun }
      acked := n.acked.filter (· != .driftResult slot) }

/-- Stops a pass under an abort: its unsent sends are cancelled, its work dropped, what it holds released, and its arm answered
(R355). The slot is ABORTED until then and IDLE from then on, in one step (R361; log entry 77). -/
def State.abortPass (s : State) (slot : Nat) (a : Abort) : State :=
  let d := s.drift slot
  let s := (s.modDrift slot fun d => { d with state := .aborted }).cancelSends slot
  let s := (s.releaseDrift slot).bump Ctr.driftAbort
  let s := s.modDrift slot fun _ => {}
  match d.cmd with
  | none => s
  | some ctx =>
    s.finish ctx { status := Status.collectiveAbort, reason := a.reason, p0 := a.param0, p1 := a.detail.toNat }

/-- Whether an abort at this instant prevails over the release of a pass: at T_rel it does, past it none does (R357). -/
def State.abortable (s : State) (d : Drift) : Bool := d.state != .idle && decide (s.clk.ptp ≤ d.release)

/-- The ABORT that a SEND on a QP brings, if the node takes it. -/
def State.abortOf (s : State) (qp psn : Nat) (bs : List Byte) : Option Abort :=
  if s.takesCommands && s.rts qp && (s.qp qp).kind == .node && psnClass (s.qp qp).rqPsn psn != .duplicate && (s.wireOk qp).1 then
    (((s.wireOk qp).2.chkIngress qp bs).1).bind Abort.parse
  else none

/-- The neighbour whose BEAT has been missing for 24 µs, on one side (R337). -/
def State.silentSide (s : State) (slot : Nat) (side : Side) : Option Nat :=
  let d := s.drift slot
  let (heard, last, m) := match side with
    | .predecessor => (d.readyPred, d.beatPred, d.pred)
    | .successor => (d.readySucc, d.beatSucc, d.succ)
  if s.abortable d && heard && decide (s.now ≥ last + 24000) then some m else none

/-- The member whose READY is missing at T0 - 20 µs: of several the one with the lowest index (R335, R353, R356). -/
def State.unready (s : State) (slot : Nat) : Option Nat :=
  let d := s.drift slot
  if (d.state == .armed || d.state == .ready) && decide (s.clk.ptp + 20000 ≥ d.takeover) then
    let ms := (if d.sentReady then [] else [d.member]) ++ (if d.readyPred then [] else [d.pred]) ++ (if d.readySucc then [] else [d.succ])
    ms.head?.map fun m => ms.foldl min m
  else none

/-- ORIGIN of the cause that a waiting command brings to a pass: an ABORT received, a neighbour's silence or missing READY, or a
step that is late at the close of its window. -/
def State.originOf (s : State) (slot : Nat) (d : Drift) (i : Instr) : Option Nat :=
  match i with
  | .driftAbortRecv p m => ((s.abortOf p.qp p.psn m).filter fun b => b.ring == d.ring && b.takeover == d.takeover).map (·.origin)
  | .driftBeatSilence n side => if n = slot then s.silentSide slot side else none
  | .driftReadyDeadline n => if n = slot then s.unready slot else none
  | .driftWindowClose n => if n = slot && d.state == .running && decide (s.clk.ptp + 500 ≥ d.start (d.step + 1)) && d.late.isSome then some d.member else none
  | _ => none

/-- Whether an abort of lower ORIGIN reaches the pass in the same cycle: one that waits in the queue (R356; log entry 79). -/
def State.lowerAbort (s : State) (slot origin : Nat) : Bool :=
  s.pending.any fun i => ((s.originOf slot (s.drift slot) i).map fun o => decide (o < origin)).getD false

/-- A member detects a cause: it sends the abort to every other member, and adopts it: it remembers it and stops. Where one of lower
ORIGIN reaches it in the same cycle, it adopts that one instead, and this one is counted (R354 to R356, R359). -/
def State.detectAbort (s : State) (slot reason : Nat) (origin : Option Nat := none)
    (originStatus : Nat := Status.collectiveAbort) (originReason : Nat := 0) (detail : W64 := 0) : State :=
  let d := s.drift slot
  if d.state = .idle then s else
  let a : Abort :=
    { ring := d.ring, origin := origin.getD d.member, originStatus := originStatus, reason := reason
      originReason := originReason, takeover := d.takeover, step := d.step, detail := detail }
  let s := ((List.range d.members).filter (· != d.member)).foldl (fun s m => s.sendMember d m a.bytes) s
  if s.lowerAbort slot a.origin then s.bump Ctr.driftAbortDup else (s.rememberAbort a).abortPass slot a

/-- Aborts every pass that satisfies a condition and is not past its release (R353, R357). -/
def State.abortPasses (s : State) (f : Drift → Bool) (reason : Nat) (originStatus : Nat := Status.collectiveAbort)
    (originReason : Nat := 0) : State :=
  (List.range 16).foldl (fun s slot =>
    let d := s.drift slot
    if s.abortable d && f d then s.detectAbort slot reason none originStatus originReason
    else s) s

/-! ## Contact with partners (R552 to R567) -/

/-- A partner's entry. -/
def State.partner (s : State) (j : Nat) : Option Partner := Table.get s.recover.partners j

/-- Whether a node keeps contact with this one: a partner, a node that it twins for, or its survivor (R561 to R563,
R583). -/
def Partner.watched (p : Partner) : Bool := !p.lost && (p.bound || p.standinFor || !p.given.isEmpty)

/-- A stamp (R561). -/
def State.stampBytes (s : State) (flags lost frames grant seq : Nat) (st : NodeState) : List Byte :=
  let b := le 2 s.nodeId ++ le 1 st.code ++ le 1 flags ++ le 2 s.recover.score ++ le 2 lost ++ le 8 seq ++
    le 4 ((s.node.fabric.map (·.version)).getD 0) ++ le 4 frames ++ le 4 grant ++ zeros 32
  b ++ le 4 (crc32c b)

/-- SOLE_COPY and SELF_FENCED as a stamp's flags (R561, R595). -/
def State.stampFlags (s : State) : Nat :=
  (if s.recover.soleCopy then 1 else 0) + (if s.recover.partners.any fun p => p.2.watched && p.2.silent then 2 else 0)

/-- Writes a stamp into this node's slot of another node's stamp area: a twin write with an immediate of 0 (R561). -/
def State.writeStamp (s : State) (j flags lost frames grant : Nat) (st : NodeState) : State :=
  let seq := ((s.partner j).map (·.seqSent)).getD 0 + 1
  let s := s.modPartner j fun p => { p with seqSent := seq }
  s.post (s.nodeQp j) 4
    [.write (BitVec.ofNat 64 (64 * s.nodeId)) 0 (s.stampBytes (s.stampFlags + flags) lost frames grant seq st) (some 0)]
    (.twin j)

/-- The conversations and extents whose twin copies a partner holds, LOST ones included. -/
def State.twinnedAt (s : State) (j : Nat) : List (Nat × Conv) := s.convs.filter fun c => c.2.twin == some j

/-- Ends the commands of a conversation that wait for its twin record (R565). -/
def State.endWaiting (s : State) (cid : Nat) (a : Ans) : State :=
  (s.net.waiting.filter fun w => w.2.cid == cid).foldl (fun s w =>
    (s.modNet fun n => { n with waiting := Table.erase n.waiting w.1 }).finish w.2.ctx a) s

/-- Self-fences a conversation or extent (R565). -/
def State.selfFence (s : State) (cid : Nat) : State :=
  match s.conv cid with
  | none => s
  | some c =>
    if c.state = .lost then s else
    let a := Ans.retry Reason.twinLost
    let s := s.modConv cid fun c => { c with selfFenced := true }
    let s := s.endReqs (fun r => r.cid == cid) a
    (s.endWaiting cid a).discardAppends cid (fun _ => true) a

/-- The 64 bytes of a fence vote (R567). -/
def State.voteBytes (s : State) (j cause lastContact : Nat) : List Byte :=
  let b := le 2 s.nodeId ++ le 2 j ++ le 2 cause ++ le 2 s.recover.score ++
    le 8 (s.clk.ptp - (s.now - lastContact)) ++ le 4 ((s.node.fabric.map (·.version)).getD 0) ++ zeros 40
  b ++ le 4 (crc32c b)

/-- HOST QPs in RTS whose remote address is a MANAGER of the fabric table (R567). -/
def State.managerQps (s : State) : List Nat :=
  let ms := (s.node.fabric.map (·.managers)).getD []
  (s.net.qps.filter fun q => q.2.kind == .host && q.2.state == .rts && ms.contains q.2.remoteAddr).map (·.1)

/-- Casts a fence vote, at most one per partner and guard window (R567, R589). -/
def State.castVote (s : State) (j cause : Nat) : State :=
  match s.partner j with
  | none => s
  | some p =>
    if p.voted then s.bump Ctr.voteHeld else
    let bs := s.voteBytes j cause p.lastContact
    let s := (s.modPartner j fun p => { p with voted := true }).bump Ctr.voteCast
    s.managerQps.foldl (fun s q => s.post q 0 [.vote bs]) (s.sendDatagram bs)

/-- A partner becomes silent: what it twins is self-fenced and a vote is cast (R563, R565, R567). -/
def State.silence (s : State) (j cause : Nat) : State :=
  match s.partner j with
  | none => s
  | some p =>
    if p.silent || !p.watched then s else
    let s := (s.modPartner j fun p => { p with silent := true }).bump Ctr.selfFence
    let s := (s.twinnedAt j).foldl (fun s c => s.selfFence c.1) s
    s.castVote j cause

/-- Contact returns: a silent partner not declared lost is silent no more, and its conversations' self-fence lifts
(R562, R566). -/
def State.contact (s : State) (j : Nat) : State :=
  match s.partner j with
  | none => s
  | some p =>
    let s := s.modPartner j fun p => { p with lastContact := s.now }
    if p.silent && !p.lost && !p.fencedStamp && s.linkUp j then
      let s := s.modPartner j fun p => { p with silent := false }
      { s with convs := Table.mapVals s.convs fun _ c => if c.twin == some j then { c with selfFenced := false } else c }
    else s

/-! ## Queue pairs in error (R478 to R480) -/

/-- Whether a participant can be reached: the QP to it is up, and it has not stamped FENCED (R307, R316, R564). -/
def State.peerUp (s : State) (j : Nat) : Bool := s.linkUp j && !((s.partner j).any (·.fencedStamp))

/-- The requests that wait on a lost participant, those whose first pass is in and whose CONTINUE is still to come included, or on the
node to which they have sent their own record, end (R307, R316, R480). -/
def State.loseParticipant (s : State) (j : Nat) : State :=
  let s := s.endReqs (fun r => !r.isForward && r.parts.any fun p =>
      p.node == j && ((!p.replied && !p.placed) || r.pass == .scoreOnly || r.pass == .cairnScore))
    (Ans.miss Reason.participantLost)
  s.endReqs (fun r => r.ownSent && r.ownAt == some j) (Ans.miss Reason.participantLost)

/-- A lost peer: forwards to it fail, those whose first pass is in and whose CONTINUE is still to come included, passes through it
abort, repairs from it fail, extent moves to it are given up, and a partner is silent (R307, R460, R480, R563, R743). -/
def State.losePeer (s : State) (j : Nat) : State :=
  let s := s.loseParticipant j
  let s := (List.range 16).foldl (fun s slot =>
    let d := s.drift slot
    if !s.abortable d then s else
    match (s.ringMembers d.ring).findIdx? (· == j) with
    | none => s
    | some m => s.detectAbort slot Reason.driftLink (some m)) s
  let s := (s.tiers.pages.filter fun p => p.2.moveKind == some .repair && p.2.twinNode == some j).foldl
    (fun s p => s.repairFailed p.1) s
  let s := { s with convs := Table.mapVals s.convs fun _ c =>
    { c with extentMoves := c.extentMoves.filter fun m => m.passed || m.dest != j } }
  (s.modPartner j fun p => { p with freed := p.freed.map fun x => (x.1, false) }).silence j Reason.voteSilent

/-- Consequences of a QP's error state for what waits on it (R173, R480). -/
def State.afterError (s : State) (i : Nat) : State :=
  match (s.qp i).kind with
  | .host => s
  | .spill => s.removeTargets i
  | .node => s.losePeer (s.peerOf i)

/-- Flushes a QP: posted, triggered and unacknowledged messages end, and admitted messages are gone (R478). -/
def State.flushQp (s : State) (i : Nat) : State :=
  let s := s.modNet fun n => { n with egress := n.egress.filter fun m => m.qp != i }
  let s := s.modQp i fun q => { q with unacked := [], timeoutAt := none, rnrUntil := none, admitted := none, reads := 0, readKeys := [], sqUna := q.sqPsn }
  s.modRegions fun r =>
    { r with revokes := r.revokes.map fun v => (v.1, { v.2 with waits := v.2.waits.filter (· != i) }) }

/-- A QP in RTS enters ERR: event, counter, reason, flush, and what follows (R478). A reply to what it has accepted, the result
write posted at a gate pass included, is flushed with it (R295, R479). -/
def State.qpError (s : State) (i reason : Nat) : State :=
  if s.rts i then
    let s := s.modQp i fun q => { q with state := .err, errorReason := reason, conn := q.conn + 1 }
    let s := (s.raise Blk.rdma reason i).bump Ctr.qpError
    (s.flushQp i).afterError i
  else s

/-- Answers a packet with a NAK; the QP enters ERR (R448, R466, R478). -/
def State.nakError (s : State) (i psn : Nat) (k : NakKind) : State :=
  let reason := match k with
    | .invalidRequest => Reason.invalidRequest
    | .remoteOperational => Reason.remoteOperational
    | _ => Reason.remoteAccess
  (s.sendControl i (.nak psn k)).qpError i reason

/-! ## A context pool fails (R386, R586) -/

/-- Ends what a pool has in progress: its requests and its drift passes (R353, R586). -/
def State.endPool (s : State) (p : Nat) : State :=
  let s := s.endReqs (fun r => r.pool == p) (Ans.retry Reason.poolFailed)
  s.abortPasses (fun d => (d.cmd.map (·.pool)) == some p) Reason.driftLocalFailure Status.retryContext Reason.poolFailed

/-- A context pool fails: what it had in progress ends, and its records and kept results are gone; its conversations wait
until another pool takes them (R386, R585, R586). -/
def State.failPool (s : State) (p : Nat) : State :=
  if p ≥ 4 || s.recover.poolsFailed.contains p then s else
  let s := (s.modRecover fun r => { r with poolsFailed := r.poolsFailed ++ [p] }).endPool p
  let gone := s.net.records.filter fun r => r.pool == p
  let s := gone.foldl (fun s r => s.freeKept r) s
  s.modNet fun n => { n with records := n.records.filter fun r => r.pool != p }

/-! ## The node is fenced (R441, R564) -/

/-- The node enters FENCED: a stamp to each partner first, then the state; armed passes abort, and a NODE drain and a NODE_SERVE that
waits for the blocks end, since the node leaves FENCED only through MOD_RESET_N (R441, R564). Its requests end, as
they do where it self-fences: a partner that has the stamp may promote at once, and no result over a snapshot that the new
home may cut is delivered (R102, R569; log entry 76). -/
def State.enterFenced (s : State) : State :=
  if s.node.state = .fenced then s else
  let s := (s.recover.partners.filter fun p => p.2.watched).foldl (fun s p => s.writeStamp p.1 0 0 0 0 .fenced) s
  let s := (s.modNode fun n => { n with state := .fenced, drains := n.drains.filter fun d => d.scope != 0 }).endReqs
    (fun r => !r.isForward) (Ans.retry Reason.twinLost)
  let s := s.node.serving.foldl (fun s ctx => s.finish ctx (Ans.state Reason.nodeState)) (s.modNode fun n => { n with serving := [] })
  s.abortPasses (fun _ => true) Reason.driftLocalFailure

end Sys2Proof.Machine
end

