-- ==== Sys2Proof/Machine/Arrive.lean ====
section
/-! DEFINITION. The arrival of a SEND and of a command: the transport's receive rules (R446 to R464, R603, R604), the
user check-value units (R622 to R627), and the checks of a command on arrival (R365 to R384, R397 to R402). -/
namespace Sys2Proof.Machine

/-! ## A SEND arrives -/

/-- Shares of the command buffer (R603). -/
def hostShare : Nat := 192 * 2 ^ 20
def nodeShare : Nat := 60 * 2 ^ 20

/-- Packets of a message of n bytes on a QP. -/
def packets (n mtu : Nat) : Nat := max 1 (ceilDiv n mtu)

/-- A message has been placed and is acknowledged: the expected PSN moves past it (R462, R477). -/
def State.ackMessage (s : State) (i n : Nat) : State :=
  let q := s.qp i
  let psn := (q.rqPsn + packets n q.mtu) % 2 ^ 24
  (s.modQp i fun q => { q with rqPsn := psn, nakSent := false }).sendControl i (.ack ((psn + 2 ^ 24 - 1) % 2 ^ 24))

/-- The acknowledgement of everything placed so far (R462). -/
def State.ackNow (s : State) (i : Nat) : State := s.sendControl i (.ack (((s.qp i).rqPsn + 2 ^ 24 - 1) % 2 ^ 24))

/-- A request beyond the expected PSN: one NAK of PSN sequence error for the gap, and it is discarded (R477; log entry 88). -/
def State.nakGap (s : State) (i : Nat) : State :=
  if (s.qp i).nakSent then s else
  (s.modQp i fun q => { q with nakSent := true }).sendControl i (.nak (s.qp i).rqPsn .sequence)

/-- The PSN window of a SEND or of a write: whether it is executed. A duplicate is acknowledged and counted, where the node acknowledges
at all (R477, R564). -/
def State.inOrder (s : State) (i psn : Nat) (mute : Bool := false) : Bool × State :=
  match psnClass (s.qp i).rqPsn psn with
  | .expected => (true, s)
  | .duplicate => (false, if mute then s.bump Ctr.dupReq else (s.bump Ctr.dupReq).ackNow i)
  | .ahead => (false, s.nakGap i)

/-- The receive checks that writes and reads share (R448, R449, R453, R477): whether the message is taken, a duplicate, or
neither. The next packet of a message that a revocation cut is answered with a NAK (R487). -/
def State.receiveMsg (s : State) (m : RdmaMsg) : Option PsnClass × State :=
  if !s.takesCommands then (none, s)
  else if m.qpnOne then (none, s.bump Ctr.cmDrop)
  else if !s.rts m.qp then
    (none, if (s.qp m.qp).cut then (s.modQp m.qp fun q => { q with cut := false }).sendControl m.qp (.nak m.psn .remoteAccess) else s)
  else
    let (ok, s) := s.wireOk m.qp
    let s := s.pace (s.portOf m.qp)
    if !ok then (none, s)
    else if !m.icrcOk then (none, s.bump Ctr.icrcFail)
    else if !m.supported then (none, s.nakError m.qp m.psn .invalidRequest)
    else match psnClass (s.qp m.qp).rqPsn m.psn with
      | .ahead => (none, s.nakGap m.qp)
      | c => (some c, s)

/-- The receive checks of a SEND of n bytes (R448, R449, R453, R463, R464, R477): whether it is taken, and the state after. -/
def State.receiveSend (s : State) (i n psn : Nat) : Bool × State :=
  if !s.takesCommands || !s.rts i then (false, s) else
  let (ok, s) := s.wireOk i
  if !ok then (false, s) else
  if n > 4 * 2 ^ 20 then (false, s.nakError i (s.qp i).rqPsn .invalidRequest) else
  let (next, s) := s.inOrder i psn
  if !next then (false, s) else
  match (s.qp i).kind with
  | .spill => (false, (s.ackMessage i n).bump Ctr.immIgnored)
  | .host =>
    if hostShare - s.net.bufHost < 4 * 2 ^ 20 then
      (false, (s.sendControl i (.rnrNak (s.qp i).rqPsn 10240)).bump Ctr.rnrNakSent)
    else (true, s.ackMessage i n)
  | .node => (true, s.ackMessage i n)

/-- A SEND that is no command packet arrives on a NODE QP: its bytes after the check-value units, if it is taken. -/
def State.receiveRaw (s : State) (i psn : Nat) (bs : List Byte) : Option (List Byte) × State :=
  let (ok, s) := s.receiveSend i bs.length psn
  if ok && (s.qp i).kind = .node then s.chkIngress i bs else (none, s)

/-! ## A command arrives -/

/-- The connection of a source's QP now (R479). -/
def State.connOf (s : State) (src : Src) : Nat :=
  match src with
  | .qp i => (s.qp i).conn
  | .lane _ => 0

/-- The context of a command before its checks: nothing recorded yet. -/
def State.contextOf (s : State) (c : Cmd) (bufBytes : Nat) : CmdCtx :=
  { src := c.src, subscriber := s.subscriberOf c.src, opcode := c.hdr.opcode, requestId := c.hdr.requestId
    targetId := c.hdr.targetId, layer := c.hdr.layer, qpSeq := c.hdr.qpSeq, arrival := s.now, deadline := 0, conn := s.connOf c.src
    noKeep := c.hdr.noKeep, epoch := s.epoch, bufBytes := bufBytes, recorded := false }

/-- Opens the exchange of a command that comes whole on the management lane: at most 4 XIDs in progress (R719). -/
def State.openLane (s : State) (xid : W32) : Option State :=
  match s.net.lane.find? fun e => e.xid == xid with
  | some e => if e.running then some s else none
  | none =>
    if (s.net.lane.filter fun e => e.heldUntil.isNone).length ≥ 4 then none else
    some (s.modNet fun n => { n with lane := n.lane ++ [{ xid := xid, running := true }] })

/-- Reads a command packet out of the bytes of a SEND. -/
def parseCmd (src : Src) (bs : List Byte) : Cmd := { src := src, hdr := Hdr.decode (bs.take 64), payload := bs.drop 64 }

/-- What is left of a command's SEND after the check-value units of its QP (R626); without a unit the bytes after the
payload belong to it. -/
def State.deframe (s : State) (i : Nat) (c : Cmd) : Option Cmd × State :=
  if s.regs.chk.isEmpty && c.tail.isEmpty then (some c, s) else
  let (r, s) := s.chkIngress i (c.hdr.bytes ++ c.payload ++ c.tail)
  (r.map (parseCmd c.src), s)

/-- The command's way to step 2 of R369: the transport's checks, and the credit or the exchange of step 1. Answers the
command and its context, unless it was discarded. -/
def State.intake (s : State) (c : Cmd) : Option (Cmd × CmdCtx) × State :=
  match c.src with
  | .lane xid =>
    if !s.takesCommands then (none, s) else
    match s.openLane xid with
    | none => (none, s)
    | some s => (some (c, s.contextOf c 0), s)
  | .qp i =>
    let n := 64 + c.payload.length + c.tail.length
    let (ok, s) := s.receiveSend i n c.psn
    if !ok then (none, s) else
    let (r, s) := s.deframe i c
    match r with
    | none => (none, s)
    | some c =>
      if (s.qp i).kind = .host then
        if (s.qp i).outstanding ≥ (s.qp i).slots then (none, s.bump Ctr.creditOverrun) else
        let s := s.modQp i fun q => { q with outstanding := q.outstanding + 1 }
        (some (c, s.contextOf c n), s.modNet fun x => { x with bufHost := x.bufHost + n })
      else
        let s := s.modQp i fun q => { q with outstanding := q.outstanding + 1 }
        if controlOpcode c.hdr.opcode.toNat then (some (c, s.contextOf c 0), s)
        else if nodeShare - s.net.bufNode < n then
          (none, (s.bump Ctr.nodeBufferDrop).finish (s.contextOf c 0) (Ans.throttled Reason.nodeBuffer 10))
        else (some (c, s.contextOf c n), s.modNet fun x => { x with bufNode := x.bufNode + n })

/-- Step 2 of R369: HDR_CRC; a failure advances the expected QP_SEQ by 1 (R621, R633). -/
def State.checkCrc (s : State) (c : Cmd) : Bool × State :=
  let (struck, s) := s.checkStruck Blk.ctx 0 0
  if c.hdr.crcOk && !struck then (true, s) else
  let s := (s.bump Ctr.hdrCrcFail).checkNoted Blk.ctx struck
  (false, match c.src with
    | .qp i => s.modQp i fun q => { q with expectedSeq := (q.expectedSeq + 1) % 2 ^ 32 }
    | .lane _ => s)

/-- Whether an injected fault presents the previous QP_SEQ again: at point 1 of CTX, or in the alive counter of unit 0 (R621, R634,
R635). -/
def State.seqStruck (s : State) : Bool × State :=
  match s.injected Blk.ctx 1 with
  | (some _, s) => (true, s)
  | (none, s) => s.unitStruck 0 4

/-- Step 3 of R369: QP_SEQ under R370; the reason of a failure. On the lane QP_SEQ must be 0 and is not counted (R719). -/
def State.checkSeq (s : State) (c : Cmd) : Option Nat × State :=
  match c.src with
  | .lane _ =>
    (if c.hdr.qpSeq = 0 then none else if c.hdr.qpSeq.toNat < 2 ^ 31 then some Reason.seqGap else some Reason.seqRepeat, s)
  | .qp i =>
    let (struck, s) := s.seqStruck
    let want := (s.qp i).expectedSeq
    let got := if struck then (want + 2 ^ 32 - 1) % 2 ^ 32 else c.hdr.qpSeq.toNat
    let d := (got + 2 ^ 32 - want) % 2 ^ 32
    if d ≥ 2 ^ 31 then (some Reason.seqRepeat, s.bump Ctr.seqFault) else
    let s := s.modQp i fun q => { q with expectedSeq := (got + 1) % 2 ^ 32 }
    if d = 0 then (none, s) else (some Reason.seqGap, s.bump Ctr.seqFault)

/-- Steps 4 to 7 of R369: header form, opcode, FORWARD, tenant epoch. The answer of the first that fails. Only the leg of a
CONV_MOVE_OFFER between nodes has a PARAM1 (R417). -/
def State.checkHeader (s : State) (code : Nat) (c : Cmd) : Option Ans :=
  let h := c.hdr
  let spec := opSpec h.opcode.toNat
  let node := match c.src with
    | .qp i => (s.qp i).kind == .node
    | .lane _ => false
  if !(h.formOk && (!h.noKeep || (spec.map (·.keepOk)).getD false) && (spec.map fun o => o.hdrOk h).getD true &&
      (h.opcode != 0x0209 || node || h.param1 == 0)) then
    some (Ans.param Reason.hdrFormat)
  else match spec with
    | none => some (Ans.param Reason.opcodeUnknown)
    | some o =>
      if o.code != code then some (Ans.param Reason.opcodeUnknown)
      else if h.forward && !node then some (Ans.denied Reason.forwardDenied)
      else if h.tenantEpoch.toNat != s.epoch || (s.trust.tenant.isNone && !o.tenantFree) then
        some (Ans.denied Reason.tenantEpoch)
      else if s.trust.ending.isSome then some (Ans.denied Reason.tenantEnded)
      else none

/-- Answers a duplicate from its kept record (R383). -/
def State.answerKept (s : State) (ctx : CmdCtx) (rc : Record) (rp : Reply) : State :=
  let s := (s.bump Ctr.replyRepeat).setRecord
    { rc with delivered := rc.delivered || s.deliverable ctx
              resultDelivered := rc.resultDelivered || (!rc.kept.isEmpty && s.deliverable ctx) }
  s.finish ctx
    { status := rp.status, reason := rp.reason, p0 := rp.param0.toNat, p1 := rp.param1.toNat, again := true
      result := rc.kept, item := ⟨rp.resultTarget, rp.resultKey, 0⟩ }

/-- An estimate of the µs until a result is ready that no rule fixes: a free value of at least 1 (R379). -/
def State.freeEstimate (s : State) : Nat × State :=
  let (k, s) := s.drawBelow 65535
  (k + 1, s)

/-- The estimate of R379 for a command in progress. -/
def State.estimateFor (s : State) (sub : Nat) (id : W64) : Nat × State :=
  match s.attn.reqs.find? fun r => !r.2.isForward && r.2.cmd.subscriber == sub && r.2.cmd.requestId == id with
  | some (_, r) =>
    match s.layout r.layout with
    | some l => (max 1 (ceilDiv (s.estimateNs r l) 1000), s)
    | none => s.freeEstimate
  | none => s.freeEstimate

/-- Room for one more record in a pool: the oldest ended record goes where all are taken; none where every one is in
progress (R384). -/
def State.recordRoom (s : State) (pool : Nat) : Option State :=
  let mine := s.net.records.filter fun r => r.pool == pool && (r.state == .inProgress || r.state == .ended)
  if mine.length < Config.recordsPerPool then some s else
  match mine.find? fun r => r.state == .ended with
  | none => none
  | some r => some ((s.closeRecord r .expired).bump Ctr.replyEvict)

/-- Step 8 of R369: the request's identity (R381 to R384). Some context goes on, recorded. A pool whose state reads
poisoned fails (R616). -/
def State.checkIdentity (s : State) (o : OpSpec) (c : Cmd) (ctx : CmdCtx) : Option CmdCtx × State :=
  let pool := s.poolFor o.pool c.hdr
  let ctx := { ctx with pool := pool }
  let (sound, s) := s.sramRead Blk.ctx (2 + pool) pool
  if !sound then (none, (s.failPool pool).finish ctx (Ans.retry Reason.poolFailed)) else
  if c.hdr.forward then (some ctx, s) else
  let (struck, s) := s.unitStruck 23 3
  let fp := if struck then fingerprint c.hdr c.payload ^^^ 1 else fingerprint c.hdr c.payload
  let fresh := fun (s : State) =>
    match s.recordRoom pool with
    | none => (none, s.finish ctx (Ans.throttled Reason.recordsFull 10))
    | some s =>
      (some { ctx with recorded := true },
       s.setRecord { subscriber := ctx.subscriber, requestId := ctx.requestId, pool := pool, fingerprint := fp })
  match s.record ctx.subscriber ctx.requestId with
  | none => fresh s
  | some rc =>
    match rc.state with
    | .inProgress =>
      if rc.fingerprint = fp then
        let (e, s) := s.estimateFor ctx.subscriber ctx.requestId
        (none, (s.bump Ctr.replyRepeat).finish ctx
          { status := Status.notReady, reason := Reason.requestInProgress, p0 := e, again := true })
      else (none, s.finish ctx (Ans.param Reason.requestIdReuse))
    | .ended =>
      if rc.fingerprint = fp then
        match rc.reply with
        | some rp => (none, s.answerKept ctx rc rp)
        | none => fresh s
      else (none, s.finish ctx (Ans.param Reason.requestIdReuse))
    | _ => fresh s

/-- Whether a source may issue manager opcodes (R398). -/
def State.isManager (s : State) (src : Src) : Bool :=
  match src with
  | .lane _ => true
  | .qp i => ((s.node.fabric.map (·.managers)).getD []).contains (s.qp i).remoteAddr

/-- Whether a drain of the node runs (R412). -/
def State.nodeDrains (s : State) : Bool := s.node.drains.any fun d => d.scope == 0 && d.running

/-- PARAM0 of a refusal by the node's state or role: the form of R66 where the command names a conversation that this node is
home to, else 0, which is that form for FREE (R47, R66, R379). -/
def State.wordFor (s : State) (o : OpSpec) (h : Hdr) : Nat :=
  if o.pool = .byCid then
    match s.conv h.cid with
    | some c => if c.home = s.nodeId then c.word else 0
    | none => 0
  else 0

/-- Whether an opcode is of an attention request, whose DEADLINE_SHORT belongs to the checks at its gate pass (R277, R744). -/
def OpSpec.attends (o : OpSpec) : Bool := o.code == 0x0301 || o.code == 0x0302 || o.code == 0x0304

/-- The first checks of step 9 (R397 to R400), then the deadline (R401, R402): the refusal, or the deadline. -/
def State.checkLegal (s : State) (o : OpSpec) (c : Cmd) : Except Ans Nat :=
  let node := match c.src with
    | .qp i => (s.qp i).kind == .node
    | .lane _ => false
  if o.origin = .manager && !s.isManager c.src then .error (Ans.denied Reason.privileged)
  else if o.origin = .node && !node then .error (Ans.denied Reason.nodeQpOnly)
  else if !o.legal.holds s.node.state then .error (Ans.state Reason.nodeState (s.wordFor o c.hdr))
  else if s.nodeDrains && (o.code == 0x0201 || o.code == 0x0205) then .error (Ans.state Reason.nodeState (s.wordFor o c.hdr))
  else if o.cacheOnly && s.node.role != .cache then .error (Ans.state Reason.nodeRole (s.wordFor o c.hdr))
  else if c.hdr.forward then .ok 0
  else match o.defaultUs with
    | none => if c.hdr.deadlineUs = 0 then .ok 0 else .error (Ans.param Reason.deadlineFixed)
    | some d =>
      if c.hdr.deadlineUs = 1 && !o.attends then .error (Ans.param Reason.deadlineShort)
      else .ok (s.now + 1000 * (if c.hdr.deadlineUs = 0 then d else c.hdr.deadlineUs.toNat))

/-- A command arrives for an opcode (R369, R397 to R402). It is discarded, answered, or goes on to the opcode's own
checks with its context. -/
def State.arrive (s : State) (code : Nat) (c : Cmd) : Option (Cmd × CmdCtx) × State :=
  let (r, s) := s.intake c
  match r with
  | none => (none, s)
  | some (c, ctx) =>
    let (ok, s) := s.checkCrc c
    if !ok then (none, s.finish ctx (Ans.param Reason.hdrCrc)) else
    let (bad, s) := s.checkSeq c
    match bad with
    | some reason => (none, s.finish ctx (Ans.param reason))
    | none =>
      match s.checkHeader code c, opSpec code with
      | some a, _ => (none, s.finish ctx a)
      | none, none => (none, s.finish ctx (Ans.param Reason.opcodeUnknown))
      | none, some o =>
        let (r, s) := s.checkIdentity o c ctx
        match r with
        | none => (none, s)
        | some ctx =>
          match s.checkLegal o c with
          | .error a => (none, s.finish ctx a)
          | .ok d => (some (c, { ctx with deadline := d }), s)

/-- A command arrives; `f` is what its opcode does with it. -/
def State.onArrive (s : State) (code : Nat) (c : Cmd) (f : Cmd → CmdCtx → State → State) : State :=
  match s.arrive code c with
  | (none, s) => s
  | (some (c, ctx), s) => f c ctx s

end Sys2Proof.Machine
end

