-- ==== Sys2Proof/Machine/Keys.lean ====
section
/-! DEFINITION. What a key and a window name (R435, R466, R482, R483, R555), and the places of the events of one cycle at the gates
of conversations (R62). -/
namespace Sys2Proof.Machine

/-! ## Keys and windows -/

/-- A published version. -/
def State.version (s : State) (h : W64) : Option Version := Table.get s.regions.versions h.toNat

/-- The remote key of an index (R482). -/
def State.keyOf (s : State) (i : Nat) : Nat := i * 256 + Table.getD s.regions.keyGens i 0

/-- The warm frame of a grant's number. -/
def State.givenFrame (s : State) (owner index : Nat) : Option Nat := (s.partner owner).bind fun p => p.given[index]?

/-- The revocation of this cycle that a key's first packet still goes ahead of (R485, R519). -/
def State.lateKey (s : State) (key : W32) : Option LateKey :=
  s.regions.lateKeys.find? fun x => x.number == key.toNat && x.cycle == s.clk.rime

/-- The key entry that passes a key check for a right (R483); a first packet goes ahead of the key's revoke in its cycle (R485). -/
def State.keyHolds (s : State) (key : W32) (f : Key → Bool) : Option Key :=
  let now := if s.keyOf (key.toNat / 256) == key.toNat then Table.get s.regions.keys (key.toNat / 256) else none
  (now.orElse fun _ => (s.lateKey key).map LateKey.entry).filter f

/-- Base address and length of what a key names: a region, a version, or the two landing buffers of a drift pass (R334,
R336, R435). -/
def State.keySpan (s : State) (i : Nat) (k : Key) : Option (WriteTarget × Nat × Nat) :=
  if k.region = 0 then
    (s.drifts.findIdx? fun d => d.state != .idle && d.ownKey == i).map fun slot =>
      let d := s.drift slot
      (.drift slot, d.ownBase.toNat, 2 * 65536 * (d.landingFrames.headD []).length)
  else match s.region k.region, s.version k.region with
    | some r, _ => some (.region k.region, r.base.toNat, r.length)
    | none, some v => some (.region k.region, v.base.toNat, v.length)
    | none, none => none

/-- A write's target and offset, if its key check passes; a NODE QP exposes the twin window under key 0 (R483, R555; log
entry 14). -/
def State.writeTarget (s : State) (m : RdmaMsg) : Option (WriteTarget × Nat) :=
  match (s.keyHolds m.key (·.write)).bind fun k => s.keySpan (m.key.toNat / 256) k with
  | some (t, base, len) =>
    if base ≤ m.addr.toNat && m.addr.toNat + m.len ≤ base + len then some (t, m.addr.toNat - base) else none
  | none =>
    if (s.qp m.qp).kind = .node && m.key = 0 && (s.givenFrame (s.peerOf m.qp) (m.addr.toNat / 65536)).isSome &&
       m.addr.toNat % 65536 + m.len ≤ 65536 then some (.twin (s.peerOf m.qp), m.addr.toNat) else none

/-- Reads bytes of a mutable region at an offset. -/
def State.readRegion (s : State) (r : Region) (off n : Nat) : List Byte :=
  ((List.range ((off + n + 65535) / 65536 - off / 65536)).map fun k =>
    let fr := off / 65536 + k
    let lo := max off (fr * 65536)
    let hi := min (off + n) ((fr + 1) * 65536)
    match r.frames[fr]? with
    | none => zeros (hi - lo)
    | some f => s.readFrame r.tier f (lo - fr * 65536) (hi - lo)).flatten

/-- The bytes of a region with those of a packet laid over them: what a slot will hold when the packet has been placed. -/
def overlay (old : List Byte) (off at_ : Nat) (data : List Byte) : List Byte :=
  (List.range old.length).map fun k =>
    let p := off + k
    if at_ ≤ p && p < at_ + data.length then data.getD (p - at_) 0 else old.getD k 0

/-- The conversation of the window append that the last packets of a write bring to its row: the CID of the trailer in its slot, a
part of it placed already, perhaps (R68, R465). -/
def State.windowCid (s : State) (m : RdmaMsg) : Option Nat :=
  if m.more ≠ 0 then none else
  let at_ : Option (WriteTarget × Nat × Nat × Option W32) := match (s.qp m.qp).admitted with
    | some a => some (a.target, a.off, a.next, a.imm)
    | none => (s.writeTarget m).map fun t => (t.1, t.2, t.2, m.imm)
  match at_ with
  | some (.region id, off, next, some _) =>
    match s.region id with
    | none => none
    | some r =>
      if !r.window || r.state != .live then none else
      let trailer := off / max 1 r.slotBytes * r.slotBytes + r.slotBytes - 32
      some (leNat (overlay (s.readRegion r trailer 6) trailer next m.data))
  | _ => none

/-! ## Places at the gates (R62) -/

/-- The lease holder's number of a source: the QP index, or 16,384 for the management lane. -/
def srcKey (src : Src) : Nat :=
  match src with
  | .qp i => i
  | .lane _ => 16384

/-- The conversations at whose gates a command is to pass, and its place among the events of one cycle there: extent moves before
commands and appends, and those by ascending QP number (R62). A fork comes to the gate of its child, too. -/
def State.gatePlaces (s : State) (i : Instr) : List (Nat × Nat) :=
  let of := fun (c : Cmd) => [(c.hdr.cid, srcKey c.src + 1)]
  match i with
  | .extentMovePass cid => [(cid, 0)]
  | .windowAppend p _ _ _ _ trailer => [(fieldAt trailer 0 6, p.qp + 1)]
  | .rdmaWriteRecv m => ((s.windowCid m).map fun cid => (cid, m.qp + 1)).toList
  | .regionAttach c => [(c.hdr.p0, srcKey c.src + 1)]
  | .regionDetach c => [(c.hdr.p0, srcKey c.src + 1)]
  | .convMoveOffer c => if c.hdr.param1 = 0 then of c else []
  | .convFork c => of c ++ [(c.hdr.p0, srcKey c.src + 1)]
  | .convOpen c => of c
  | .convAppend c => of c
  | .convSeal c => of c
  | .convTruncate c => of c
  | .convClose c => of c
  | .convPin c => of c
  | .convStat c => of c
  | .convLease c => of c
  | .attnGraze c => of c
  | .attnGrazeExact c => of c
  | .attnCairn c => of c
  | _ => []

/-- Whether an event of this cycle, still in the queue, goes ahead of a place at a gate (R62). The queue holds the events of one
cycle: time passes when it is empty (log entry 1). -/
def State.ahead (s : State) (cid place : Nat) : Bool :=
  s.pending.any fun i => (s.gatePlaces i).any fun x => x.1 == cid && decide (x.2 < place)

/-- The gates that a command passes: its conversation's, and for a fork the child's. -/
def gatesOf (c : Cmd) (cid : Nat) : List Nat := if c.hdr.opcode = 0x0205 then [cid, c.hdr.p0] else [cid]

end Sys2Proof.Machine
end

