-- ==== Sys2Proof/Machine/Gate.lean ====
section
/-! DEFINITION. The conversation gate (R47, R61 to R66, R80 to R85, R93): routing, the row, guards and leases; and
appends from their arrival to their commit (R67 to R79, R112 to R114, R419, R571 to R576, R600, R742). -/
namespace Sys2Proof.Machine

/-! ## Routing and guards -/

/-- The answer for a conversation that another node is home to; PARAM0 names the home, unless that node is lost and who has
taken the conversation over is not known here (R47). -/
def State.notOwner (s : State) (c : Conv) : Ans :=
  { status := Status.notOwner, reason := Reason.notHome, p0 := if s.recover.lostNodes.contains c.home then 0 else c.home + 2 ^ 63 }

/-- A conversation whose entry names this node as home, or the answer of R47. -/
def State.homed (s : State) (cid : Nat) : Except Ans Conv :=
  match s.conv cid with
  | none => .error (Ans.state Reason.convState)
  | some c => if c.home = s.nodeId then .ok c else .error (s.notOwner c)

/-- The answers that come before a conversation's state: its pool failed, its promotion has not ended, it is
self-fenced (R565, R571, R586, R742). -/
def State.barred (s : State) (c : Conv) : Option Ans :=
  if s.recover.poolsFailed.contains c.pool then some (Ans.retry Reason.poolFailed)
  else if c.promoting then some (Ans.retry Reason.promoting)
  else if c.selfFenced && c.state != .lost then some (Ans.retry Reason.twinLost)
  else none

/-- The status R93 gives a command in a conversation state; `lostOk` for the commands it does not answer with LOST. -/
def Conv.illegal (c : Conv) (legal : ConvState → Bool) (lostOk : Bool) : Option Ans :=
  if legal c.state then none
  else if c.state = .lost && !lostOk then some { status := Status.lost, reason := Reason.convLost }
  else some (Ans.state Reason.convState c.word)

/-- Both guards, in order. -/
def State.guard (s : State) (c : Conv) (legal : ConvState → Bool) (lostOk : Bool := false) : Option Ans :=
  match s.barred c with
  | some a => some a
  | none => c.illegal legal lostOk

/-- OPEN alone; OPEN or SEALED (R93). -/
def onlyOpen (st : ConvState) : Bool := st == .opened
def openOrSealed (st : ConvState) : Bool := st == .opened || st == .sealed

/-! ## Tail leases (R80 to R85) -/

/-- The refusal of a tail operation from a source, and the state after: LEASE_LOST once, then LEASE_NOT_HELD (R80,
R85). -/
def State.leaseCheck (s : State) (cid key : Nat) : Option Ans × State :=
  match s.conv cid with
  | none => (none, s)
  | some c =>
    if c.lease = some key then (none, s)
    else if c.lostLease.contains key then
      (some (Ans.state Reason.leaseLost c.word), s.modConv cid fun c => { c with lostLease := c.lostLease.filter (· != key) })
    else (some (Ans.state Reason.leaseNotHeld c.word), s)

/-- The lease is renewed for 5 ms (R81). -/
def State.renewLease (s : State) (cid : Nat) : State := s.modConv cid fun c => { c with leaseExpiry := s.now + 5000000 }

/-- The lease goes to a source (R80, R82). -/
def State.grantLease (s : State) (cid key : Nat) : State :=
  (s.modConv cid fun c => { c with lease := some key, lostLease := c.lostLease.filter (· != key) }).renewLease cid

/-! ## The arrival of an append (R68, R72, R112 to R114, R742) -/

/-- The append that a payload and its 32 trailer bytes say (R68). -/
def State.makeAppend (s : State) (qp : Nat) (window : W64) (slot : Nat) (ticket : W32) (ctx : Option CmdCtx)
    (payload trailer : List Byte) : Append :=
  { uid := s.net.nextWait, cid := fieldAt trailer 0 6, qp := qp, window := window, slot := slot, ticket := ticket, ctx := ctx
    token := fieldAt trailer 8 4, layer := fieldAt trailer 12 2, layerCount := fieldAt trailer 14 2
    allLayers := bit (fieldAt trailer 7 1) 0, segment := fieldAt trailer 20 2, crc := BitVec.ofNat 32 (fieldAt trailer 28 4)
    payload := payload, arrival := s.now, conn := (s.qp qp).conn }

/-- Bytes of one layer in an append payload (R112, R113). -/
def Layout.layerBytes (l : Layout) : Nat :=
  if l.latent then 2 * (l.latentRank + l.ropeDims) else l.kvHeads * 4 * l.headDim

/-- Whether every BF16 element is finite (R114). -/
def finiteBf16 (bs : List Byte) : Bool := (bf16s bs).all fun e => bits e 14 7 != 255

/-- The refusal of an append at its arrival: steps 1 to 7 of R742. `room` bounds PAYLOAD_LEN and `exact` says it must
equal it; `trailerOk` is the check of the other trailer fields; the flag says that R72 or R114 counts it. -/
def State.appendRefusal (s : State) (a : Append) (trailer : List Byte) (payloadLen : Nat) (lenOk crcOk trailerOk : Bool) :
    Option (Ans × Bool) :=
  let slot := if a.ctx.isSome then 0 else a.slot
  if !lenOk then some ({ Ans.param Reason.appendTrailer with p0 := slot }, true)
  else if !crcOk then some ({ Ans.param Reason.appendTrailerCrc with p0 := slot }, true)
  else if !(trailerOk && zeroAt trailer 22 6 && fieldAt trailer 7 1 < 2) then
    some ({ Ans.param Reason.appendTrailer with p0 := slot }, true)
  else match s.homed a.cid with
    | .error x => some (x, false)
    | .ok c =>
      match s.layout c.layout with
      | none => some (Ans.param Reason.appendLayout, true)
      | some l =>
        let layersOk := if a.allLayers then a.layer == 0 && a.layerCount == l.layers
          else a.layerCount == 1 && decide (a.layer < l.layers)
        if !layersOk || payloadLen != a.layerCount * l.layerBytes then
          some ({ Ans.param Reason.appendLayout with p0 := slot }, true)
        else if !finiteBf16 a.payload then some (Ans.param Reason.appendNonfinite, true)
        else if a.token ≥ Config.maxTokens then some (Ans.param Reason.convLimit, false)
        else none

/-- An append is refused at its arrival: counted under R72 and R114, its slot released, its reply written; the trailer
and layout refusals carry the slot number in PARAM0 (R72). -/
def State.refuseArrival (s : State) (a : Append) (x : Ans × Bool) : State :=
  let s := if x.2 then s.bump Ctr.appendRefused else s
  if x.2 && x.1.reason != Reason.appendNonfinite then (s.releaseSlot a).answerAppend a x.1
  else if x.1.status = Status.notOwner then (s.releaseSlot a).answerAppend a x.1
  else s.refuseAppend a x.1

/-- That refusal; a trailer CRC that fails sets CHECK_FAIL (R621, R633). -/
def State.refuseTrailer (s : State) (a : Append) (x : Ans × Bool) (struck : Bool) : State :=
  if x.1.reason = Reason.appendTrailerCrc then (s.checkNoted Blk.gate struck).refuseArrival a x else s.refuseArrival a x

/-! ## The token index (R73 to R76) -/

/-- The source's number of an append (R80). -/
def Append.key (a : Append) : Nat :=
  match a.ctx with
  | some x => srcKey x.src
  | none => a.qp

/-- Layers of an append. -/
def Append.layers (a : Append) : List Nat := (List.range a.layerCount).map (a.layer + ·)

/-- Next expected index of a layer (R73); after an attach at least the prefix's length (R535). -/
def Conv.next (c : Conv) (layer : Nat) : Nat := max (c.committed.getD layer 0) c.prefixTokens + c.passedOf layer

/-- What R73 to R76 make of a token index. -/
inductive TokenCheck where
  | pass | wait | again | duplicate | beyond
deriving DecidableEq, Repr

/-- A committed token with the CRC recorded at its commit (R76), or told to the twin that promoted it (R573). -/
def Conv.repeats (c : Conv) (a : Append) : Bool :=
  a.layers.all fun l => decide (a.token < c.committed.getD l 0) && (c.crcs.getD l []).contains (a.token, a.crc)

/-- Judges a token index (R73 to R76). -/
def Conv.judge (c : Conv) (a : Append) : TokenCheck :=
  let next := a.layers.map c.next
  if next.any fun n => a.token < n then (if c.repeats a then .again else .duplicate)
  else if next.any fun n => a.token ≥ n + 64 then .beyond
  else if next.all fun n => a.token == n then .pass
  else .wait

/-! ## Freezing an append (R39, R106 to R121, R554) -/

/-- Elements of one head of a layer in an append payload (R112). -/
def Append.elems (a : Append) (l : Layout) (layer head : Nat) : List Nat :=
  let per := if l.latent then l.layerBytes else 4 * l.headDim
  bf16s (slice a.payload ((layer - a.layer) * l.layerBytes + head * per) per)

/-- The pages of an append that its conversation does not hold yet. -/
def Conv.newPages (c : Conv) (l : Layout) (a : Append) : List PageKey :=
  (a.layers.flatMap fun ly => (List.range l.kvHeads).map fun h => { layer := ly, head := h, index := a.token / l.tokens }).filter
    fun k => (c.pageAt k).isNone

/-- Whether an append would write into an open page that waits for a hot frame (R572). -/
def State.waitsHot (s : State) (c : Conv) (l : Layout) (a : Append) : Bool :=
  a.layers.any fun ly => (List.range l.kvHeads).any fun h =>
    match c.pageAt { layer := ly, head := h, index := a.token / l.tokens } with
    | some pid => ((s.page pid).map (·.awaitsHot)).getD false
    | none => false

/-- Freezes an append into its pages (R33, R39, R40). Answers the twin writes posted. -/
def State.freezeAppend (s : State) (a : Append) (l : Layout) : Nat × State :=
  let s := match s.conv a.cid with
    | some c => s.twinCrc c a
    | none => s
  (a.layers.flatMap fun ly => (List.range l.kvHeads).map fun h => (ly, h)).foldl (fun acc x =>
    let k : PageKey := { layer := x.1, head := x.2, index := a.token / l.tokens }
    match acc.2.conv a.cid with
    | none => acc
    | some c =>
      let opened := match c.pageAt k with
        | some pid => some (pid, false, acc.2)
        | none => (acc.2.openPage a.cid c l k).map fun (r : Nat × State) => (r.1, true, r.2)
      match opened with
      | none => acc
      | some (pid, fresh, s) =>
        let (n, s) := s.freezeToken pid l (a.token % l.tokens) a.segment (a.elems l x.1 x.2) fresh (a.cid, a.uid)
        (acc.1 + n, s)) (0, s)

/-- Hint until the next assignment of a stand-in: what is left of the offer that runs, in µs, or 65,535
where the candidates are exhausted (R576). -/
def State.standinHint (s : State) : Nat :=
  match s.recover.offer with
  | some (_, _, at_) => max 1 (ceilDiv (at_ + 200000 - s.now) 1000)
  | none => 65535

/-- Whether an append would write into an open page that has no frame at the conversation's twin: its resync copy waits for a
grant (R98, R555, R581). -/
def State.twinless (s : State) (c : Conv) (l : Layout) (a : Append) : Bool :=
  a.layers.any fun ly => (List.range l.kvHeads).any fun h =>
    match c.pageAt { layer := ly, head := h, index := a.token / l.tokens } with
    | some pid => ((s.page pid).map (·.twinNode.isNone)).getD false
    | none => false

/-- An append is judged at its gate pass: steps 8 to 16 of R742. It is frozen, held aside, answered or refused. A pass
of the holder's append renews the lease, whatever its outcome (R81); one that is held aside for a gap has not passed yet. The flag
is false when the append stays at the row because its freeze waits for a hot frame: a stall counts once (R178). An append
into an open page whose resync copy has no frame at the stand-in yet is TWIN_FULL, as one that needs a new page is: it could
not be twinned (R38, R98, R555; log entry 78). -/
def State.passAppend (s : State) (a : Append) : Bool × State :=
  match s.homed a.cid with
  | .error x => (true, (s.releaseSlot a).answerAppend a x)
  | .ok c =>
    let s := if c.lease = some a.key && ((s.guard c onlyOpen).isSome || c.judge a != .wait) then s.renewLease a.cid else s
    match s.guard c onlyOpen with
    | some x => (true, s.refuseAppend a x)
    | none =>
      let (bad, s) := s.leaseCheck a.cid a.key
      match bad with
      | some x => (true, s.refuseAppend a x)
      | none =>
        match c.judge a with
        | .wait => (true, s.modConv a.cid fun c => { c with held := c.held ++ [a] })
        | .duplicate => (true, s.refuseAppend a (Ans.state Reason.appendDuplicate))
        | .beyond => (true, s.refuseAppend a (Ans.state Reason.appendBeyondWindow))
        | .again => (true, (s.releaseSlot a).answerAppend a { status := Status.ok, p0 := a.param0 (some c), again := true })
        | .pass =>
          match s.layout c.layout with
          | none => (true, s.refuseAppend a (Ans.param Reason.appendLayout))
          | some l =>
            let need := (c.newPages l a).length
            if s.waitsHot c l a then
              (true, (s.bump Ctr.throttleGrow).refuseAppend a (Ans.throttled Reason.hotExhausted (s.hint .hot s.hotWaiters)))
            else if need > 0 && s.avail .hot ≤ s.regs.hotGrowMark then
              (true, (s.bump Ctr.throttleGrow).refuseAppend a
                (Ans.throttled Reason.hotExhausted (s.hint .hot (s.regs.hotGrowMark + 1 - s.avail .hot))))
            else match c.twin with
              | none => (true, s.refuseAppend a (Ans.throttled Reason.noTwin s.standinHint))
              | some j =>
                if need > ((s.partner j).map (·.grantsFree.length)).getD 0 || s.twinless c l a then
                  (true, s.refuseAppend a (Ans.throttled Reason.twinFull 1000))
                else if need > s.allocatable .hot then (false, if a.stalled then s else s.bump Ctr.stallFrame)
                else
                  let (n, s) := s.freezeAppend a l
                  (true, s.modConv a.cid fun c =>
                    { c with passed := c.passed ++ [{ a with passedAt := s.now, unacked := n }], lastTwinWrite := s.now })

/-! ## What goes ahead at a gate (R62, R64, R78, R79, R84) -/

/-- Applies the acknowledgements of twin writes to a conversation's appends. -/
def State.takeAcks (s : State) (cid : Nat) : State :=
  let mine := fun (t : Tag) => match t with
    | .append c _ => c == cid
    | _ => false
  let tags := s.net.acked.filter mine
  let s := s.modNet fun n => { n with acked := n.acked.filter fun t => !mine t }
  s.modConv cid fun c =>
    { c with passed := c.passed.map fun a => { a with unacked := a.unacked - (tags.filter (· == .append cid a.uid)).length } }

/-- The append that commits next: acknowledged in full, and the next token of each of its layers (R78). -/
def Conv.committable (c : Conv) : Option Append :=
  c.passed.find? fun a => a.unacked == 0 && a.layers.all fun l => c.committed.getD l 0 == a.token

/-- The conversation after an append has committed: its layers are one longer, and the CRCs of the last 64 tokens are
kept (R76). -/
def Conv.commit (c : Conv) (a : Append) : Conv :=
  { c with
    passed := c.passed.filter fun x => x.uid != a.uid
    committed := a.layers.foldl (fun l ly => setAt l ly (a.token + 1)) c.committed
    crcs := a.layers.foldl (fun l ly => modifyAt l ly fun x => (x ++ [(a.token, a.crc)]).drop ((x.length + 1) - 64)) c.crcs }

/-- An append commits: the committed lengths advance, the slot is released and the commit posted (R38, R69, R79). -/
def State.commitAppend (s : State) (cid : Nat) : State :=
  let s := s.takeAcks cid
  match s.conv cid with
  | none => s
  | some c =>
    match c.committable with
    | none => s
    | some a =>
      let s := s.modConv cid fun c => c.commit a
      let a' : Ans := { status := Status.ok, p0 := a.token + 1 + 2 ^ 32 * a.layerCount }
      (s.releaseSlot a).answerAppend a a'

/-- Whether a commit is due: every twin write of the append that commits next has been acknowledged (R38, R62, R78). -/
def State.commitDue (s : State) (cid : Nat) : Bool := (((s.takeAcks cid).conv cid).bind Conv.committable).isSome

/-- The commits that are due, one after another (R62, R79). -/
def State.applyCommits (s : State) (cid fuel : Nat) : State :=
  match fuel with
  | 0 => s
  | fuel + 1 => if s.commitDue cid then State.applyCommits (s.commitAppend cid) cid fuel else s

/-- Whether a conversation's lease has run out (R81, R83). -/
def State.leaseDue (s : State) (cid : Nat) : Bool :=
  match s.conv cid with
  | none => false
  | some c => c.lease.isSome && decide (c.leaseExpiry ≤ s.now)

/-- The commits that are due, then the lease's expiry (R62, R84). -/
def State.expireLease (s : State) (cid : Nat) : State :=
  let s := s.applyCommits cid (((s.conv cid).map (·.passed.length)).getD 0)
  if s.leaseDue cid then s.endLease cid else s

/-- The held append of the lowest token index whose gap is filled (R64). -/
def State.heldNext (s : State) (cid : Nat) : Option Append :=
  (s.conv cid).bind fun c => (c.held.filter fun a => c.judge a != .wait).foldl (fun (b : Option Append) a => match b with
    | none => some a
    | some x => if a.token < x.token then some a else b) none

/-- That append passes; one whose freeze waits for a hot frame stays held (R64, R178). -/
def State.passHeld (s : State) (cid : Nat) : State :=
  match s.heldNext cid with
  | none => s
  | some a =>
    let s := s.modConv cid fun c => { c with held := c.held.filter fun x => x.uid != a.uid }
    let (done, s') := s.passAppend a
    if done then s' else s'.modConv cid fun c => { c with held := c.held ++ [{ a with stalled := true }] }

/-- The held appends whose gaps are filled pass in the order of their tokens (R64). -/
def State.passHelds (s : State) (cid fuel : Nat) : State :=
  match fuel with
  | 0 => s
  | fuel + 1 => if (s.heldNext cid).isSome then State.passHelds (s.passHeld cid) cid fuel else s

/-- What passes a gate before a command or an append of the row: commits, the lease's expiry, and held appends, these behind the extent
moves of the cycle (R62, R64). -/
def State.gateFirst (s : State) (cid : Nat) : State :=
  let s := s.expireLease cid
  if s.ahead cid 1 then s else s.passHelds cid (((s.conv cid).map (·.held.length)).getD 0)

/-- Whether nothing goes ahead at a gate of a command from a source now (R62, R64). -/
def State.gateClear (s : State) (cid key : Nat) : Bool :=
  !s.commitDue cid && !s.leaseDue cid && (s.heldNext cid).isNone && !s.ahead cid (key + 1)

/-- The instant at which an item came to its row, and its source's number. -/
def RowItem.arrival : RowItem → Nat
  | .cmd _ x => x.arrival
  | .append a => a.arrival
def RowItem.key : RowItem → Nat
  | .cmd _ x => srcKey x.src
  | .append a => a.key

/-- An item takes its place in a row: behind what waits, but of the items of one cycle those of the lower QP number first (R62). -/
def rowInsert (row : List RowItem) (it : RowItem) : List RowItem :=
  let before := fun (y : RowItem) => !(y.arrival == it.arrival && decide (it.key < y.key))
  row.takeWhile before ++ [it] ++ row.dropWhile before

/-! ## The row (R61 to R64) -/

/-- A command takes its place in its conversation's gate row: it passes at once at an empty row where nothing goes ahead of it
(log entry 3), waits behind others, or is refused when 256 wait (R62 to R64). -/
def State.throughGate (s : State) (cid : Nat) (c : Cmd) (ctx : CmdCtx) (pass : State → State) : State :=
  let s := s.gateFirst cid
  match s.homed cid with
  | .error a => s.finish ctx a
  | .ok conv =>
    if conv.row.isEmpty && (s.heldNext cid).isNone && !((gatesOf c cid).any fun k => s.ahead k (srcKey ctx.src + 1)) then pass s
    else if conv.row.length ≥ 256 then s.finish ctx (Ans.throttled Reason.gateQueueFull 10)
    else s.modConv cid fun x => { x with row := rowInsert x.row (.cmd c ctx) }

/-- An append comes to its gate row, or is refused when 256 wait there (R62, R63). -/
def State.rowAppend (s : State) (a : Append) (direct : Bool) : State :=
  let s := s.gateFirst a.cid
  match s.homed a.cid with
  | .error x => (s.releaseSlot a).answerAppend a x
  | .ok c =>
    let s := s.modNet fun n => { n with nextWait := n.nextWait + 1 }
    if c.row.length ≥ 256 then s.refuseAppend a (Ans.throttled Reason.gateQueueFull 10)
    else if direct && c.row.isEmpty && (s.heldNext a.cid).isNone && !s.ahead a.cid (a.key + 1) then
      let (done, s') := s.passAppend a
      if done then s' else s'.modConv a.cid fun c => { c with row := [.append { a with stalled := true }] }
    else s.modConv a.cid fun c => { c with row := rowInsert c.row (.append a) }

/-! ## Windows (R67 to R71) -/

/-- Writes bytes of a mutable region at an offset, frame by frame. -/
def State.writeRegion (s : State) (r : Region) (off : Nat) (bs : List Byte) : State :=
  (List.range ((off + bs.length + 65535) / 65536 - off / 65536)).foldl (fun s k =>
    let fr := off / 65536 + k
    let lo := max off (fr * 65536)
    let hi := min (off + bs.length) ((fr + 1) * 65536)
    match r.frames[fr]? with
    | none => s
    | some f => s.writeFrame r.tier f (lo - fr * 65536) (slice bs (lo - off) (hi - lo))) s

/-- An append whose slot has been written: its ticket and trailer are judged, and it goes to its gate row (R69 to R71,
R377, R465, R742). -/
def State.takeTicket (s : State) (qp : Nat) (window : W64) (r : Region) (slot : Nat) (ticket : W32)
    (payload trailer : List Byte) : State :=
  let gen := ticket.toNat / 2 ^ 24
  if ticket.toNat % 2 ^ 24 != slot || gen != Table.getD r.generations slot 0 || fieldAt trailer 6 1 != gen then
    s.bump Ctr.appendStale
  else if (s.qp qp).outstanding ≥ (s.qp qp).slots then s.bump Ctr.creditOverrun
  else
    let s := s.modQp qp fun q => { q with outstanding := q.outstanding + 1 }
    let len := fieldAt trailer 16 4
    let data := payload.take len
    let a := s.makeAppend qp window slot ticket none data trailer
    if !LegalIn.holds .svc s.node.state then s.refuseAppend a (Ans.state Reason.nodeState) else
    let (struck, s) := s.checkStruck Blk.gate 0 1
    let crc := crc32c (data ++ trailer.take 28)
    match s.appendRefusal a trailer len (decide (len ≤ r.slotBytes - 32))
        ((if struck then Nat.xor a.crc.toNat 1 else a.crc.toNat) == crc) true with
    | some x => s.refuseTrailer a x struck
    | none => s.rowAppend a false

/-- An RDMA WRITE with immediate into a window's slot (R465, R466, R477). -/
def State.windowWrite (s : State) (qp psn : Nat) (window : W64) (slot : Nat) (ticket : W32) (payload trailer : List Byte) : State :=
  if !s.takesCommands || !s.rts qp then s else
  let (ok, s) := s.wireOk qp
  if !ok then s else
  let (next, s) := s.inOrder qp psn
  if !next then s else
  match s.region window with
  | none => s.nakError qp (s.qp qp).rqPsn .remoteAccess
  | some r =>
    if !r.window || r.qp != qp || slot ≥ r.slots then s.nakError qp (s.qp qp).rqPsn .remoteAccess
    else if r.state != .live then
      s.nakError qp (s.qp qp).rqPsn (if r.state == .poisoned then .remoteOperational else .remoteAccess)
    else
    let s := s.writeRegion r (slot * r.slotBytes) payload
    let s := s.writeRegion r ((slot + 1) * r.slotBytes - 32) trailer
    (s.ackMessage qp r.slotBytes).takeTicket qp window r slot ticket payload trailer

/-- An append carried inline in a command (R72, R419). -/
def State.inlineAppend (s : State) (c : Cmd) (ctx : CmdCtx) : State :=
  let n := c.payload.length - 32
  let data := c.payload.take n
  let trailer := c.payload.drop n
  if c.payload.length < 32 then s.finish ctx (Ans.param Reason.payloadFormat) else
  let a := { s.makeAppend (srcKey ctx.src) 0 0 0 (some ctx) data trailer with cid := c.hdr.cid }
  let (struck, s) := s.checkStruck Blk.gate 0 1
  let crc := crc32c (data ++ trailer.take 28)
  match s.appendRefusal a trailer n (fieldAt trailer 16 4 == n)
      ((if struck then Nat.xor a.crc.toNat 1 else a.crc.toNat) == crc)
      (fieldAt trailer 0 6 == c.hdr.cid && fieldAt trailer 6 1 == 0) with
  | some x => s.refuseTrailer a x struck
  | none => s.rowAppend a true

/-! ## Timers (R83, R84, R419, R600) -/

/-- WINDOW_APPEND. -/
def execWindowAppend (p : QpPsn) (window : W64) (slot : Nat) (ticket : W32) (payload trailer : List Byte) (s : State) :
    Host.Outcome State Fault Refusal := .next (s.windowWrite p.qp p.psn window slot ticket payload trailer)

/-- CONV_APPEND. -/
def execConvAppend (c : Cmd) (s : State) : Host.Outcome State Fault Refusal :=
  .next (s.onArrive 0x0202 c fun c ctx s => s.inlineAppend c ctx)

/-- HELD_APPEND_PASS: the commits and the lease's expiry that are due, then, behind the extent moves of the cycle, the held append of
the lowest token index whose gap is filled (R62, R64). -/
def execHeldAppendPass (cid : Nat) (s : State) : Host.Outcome State Fault Refusal :=
  let s := s.expireLease cid
  .next (if s.ahead cid 1 then s else s.passHeld cid)

/-- APPEND_COMMIT. -/
def execAppendCommit (cid : Nat) (s : State) : Host.Outcome State Fault Refusal := .next (s.commitAppend cid)

/-- LEASE_EXPIRY: the lease runs out 5 ms after its last renewal, behind the commits of its cycle (R62, R81, R83, R84). -/
def execLeaseExpiry (cid : Nat) (s : State) : Host.Outcome State Fault Refusal := .next (s.expireLease cid)

/-- GAP_TIMEOUT: a held append has waited 5 ms since its arrival. What is due at the gate goes first: a lease that has run out discards
the append, and one whose gap is filled passes (R62, R64, R600). -/
def execGapTimeout (cid uid : Nat) (s : State) : Host.Outcome State Fault Refusal :=
  match (s.conv cid).bind fun c => c.held.find? fun a => a.uid == uid with
  | none => .next s
  | some a =>
    .next (if s.now ≥ a.arrival + 5000000 then
      let s := s.gateFirst cid
      if ((s.conv cid).map fun c => c.held.any fun x => x.uid == uid).getD false then
        ((s.modConv cid fun c => { c with held := c.held.filter fun x => x.uid != uid }).bump Ctr.gapTimeout).refuseAppend a
          (Ans.miss Reason.gapTimeout)
      else s
    else s)

/-- TWIN_TIMEOUT: an append has not committed 5 ms after its gate pass; every uncommitted append of its layers with a
higher token index is discarded (R419). -/
def execTwinTimeout (cid uid : Nat) (s : State) : Host.Outcome State Fault Refusal :=
  match (s.conv cid).bind fun c => c.passed.find? fun a => a.uid == uid with
  | none => .next s
  | some a =>
    if s.now ≥ a.passedAt + 5000000 then
      let s := (s.modConv cid fun c => { c with passed := c.passed.filter fun x => x.uid != uid }).refuseAppend a
        (Ans.miss Reason.twinTimeout)
      let later := fun (x : Append) => decide (x.token > a.token) && x.layers.any fun l => a.layers.contains l
      .next ((s.discardAppends cid later (Ans.state Reason.appendDiscarded)).reopenPages cid)
    else .next s

end Sys2Proof.Machine
end

