-- ==== Sys2Proof/Machine/Conv.lean ====
section
/-! DEFINITION. Conversation commands (R46, R49, R80 to R90, R93, R417 to R422, R536, R745). Each is checked at its
arrival, passes the conversation's gate, and is judged there against the state it finds. -/
namespace Sys2Proof.Machine

/-! ## What the commands share -/

/-- Whether warm available frames are below WARM_ADMIT_MARK (R162). -/
def State.pressed (s : State) : Bool := decide (s.avail .warm < s.regs.warmAdmitMark)

/-- THROTTLED under R162 while warm available frames are below WARM_ADMIT_MARK, counted (R162, R165). -/
def State.pressure (s : State) : Option (Nat × State) :=
  if s.pressed then some (s.hint .warm (s.regs.warmAdmitMark - s.avail .warm), s.bump Ctr.throttleAdmit) else none

/-- Entries of a pool's part of the conversation table (R49). -/
def State.tableUse (s : State) (pool : Nat) : Nat := (s.convs.filter fun c => c.2.pool == pool).length

/-- A conversation or an extent without a twin needs a stand-in: it is assigned as those of a loss are, behind them (R553, R580). -/
def State.needTwin (s : State) (cid : Nat) : State :=
  match (s.conv cid).map (·.twin) with
  | some none => s.modRecover fun r => { r with unassigned := addOnce r.unassigned cid }
  | _ => s

/-- The partner that a new conversation twins to: the bound twin, unless lost, else a bound stand-in (R553, R587). -/
def State.newTwin (s : State) : Option Nat :=
  match s.node.twinBound with
  | some j => if ((s.partner j).map (·.lost)).getD false then (s.recover.partners.find? fun p => p.2.standin && !p.2.lost).map (·.1)
    else some j
  | none => (s.recover.partners.find? fun p => p.2.standin && !p.2.lost).map (·.1)

/-- A committed length for the reply (R417). -/
def Conv.lengthWord (c : Conv) : Nat := 2 ^ 32 * c.length

/-- Ends with OK and the committed length, after the twin record where the event changed what it records (R417, R558). -/
def State.finishLength (s : State) (cid : Nat) (ctx : CmdCtx) : State :=
  match s.conv cid with
  | none => s.finish ctx (Ans.ok)
  | some c => s.finishTwinned cid c ctx (Ans.ok c.lengthWord)

/-- Pages of an attachment leave a conversation's attachment list; the version may retire (R536, R539). -/
def State.detachConv (s : State) (cid : Nat) (h : W64) : State :=
  let s := s.modConv cid fun c =>
    { c with attached := c.attached.filter (· != h), prefixHandle := if c.prefixHandle = some h then none else c.prefixHandle }
  (s.modVersion h.toNat fun v => { v with conversations := v.conversations.filter (· != cid) }).reapVersion h.toNat

/-- A conversation gives up its reference to a page, and its pin on it (R89, R421). -/
def State.leavePage (s : State) (cid pid : Nat) : State :=
  let s := s.modConv cid fun c => { c with pages := c.pages.filter fun p => p.2 != pid }
  (s.modPage pid fun p => { p with pinnedBy := p.pinnedBy.filter (· != cid) }).dropRef pid

/-- What keeps pages from being copied now: none; or the answer of a command whose page is poisoned, or is foreseen to be recalled
or repaired after its deadline; or a wait for it, counted once under its cause. A recall is asked for, and pages that lie in their
frames are read (R174, R178, R179, R601). -/
def State.blocked (s : State) (pids : List Nat) (ctx : CmdCtx) : Option (Option Ans) × State :=
  let away := fun (s : State) (pid : Nat) => ((s.page pid).map Page.away).getD false
  let s := (pids.filter fun pid => !away s pid).foldl (fun s pid => (s.soundPage pid).2) s
  match (pids.find? (away s)).bind s.page, pids.find? (away s) with
  | some p, some pid =>
    if p.state = .poisoned then (some (some { status := Status.poisoned, reason := Reason.pagePoisoned }), s)
    else match s.pageDelay p with
      | none => (none, s)
      | some (reason, ns) =>
        let s := if ctx.stalled then s else s.bump (if reason = Reason.spillRecall then Ctr.stallRecall else Ctr.stallRepair)
        let s := if p.state = .spilled then s.wantMove pid .refetch else s
        (some (if s.now + ns > ctx.deadline then some (Ans.miss reason) else none), s)
  | _, _ => (none, s)

/-- A command stays at the front of its gate row: it waits for a recall or a repair there (R178, R179, R601). -/
def State.stayAtRow (s : State) (cid : Nat) (c : Cmd) (ctx : CmdCtx) : State :=
  s.modConv cid fun x => { x with row := .cmd c { ctx with stalled := true } :: x.row }

/-- The refusal of a command whose copies need more fresh pages than there are frames or twin frames (R163, R555,
R601). -/
def State.roomFor (s : State) (twin : Option Nat) (n : Nat) : Option (Ans × State) :=
  if n > s.allocatable .hot then
    some (Ans.throttled Reason.hotExhausted (s.hint .hot (n - s.allocatable .hot)), s.bump Ctr.throttleGrow)
  else match twin with
    | none => none
    | some j =>
      if n > ((s.partner j).map (·.grantsFree.length)).getD 0 then some (Ans.throttled Reason.twinFull 1000, s) else none

/-- Copies the positions of a page below n into a fresh open page of a conversation, and the copy to its twin (R33, R88, R89),
with what it has to know of saturated elements (R119). -/
def State.copyInto (s : State) (cid : Nat) (l : Layout) (k : PageKey) (src n : Nat) (tag : Tag := .none) : State :=
  match s.conv cid, s.page src with
  | some c, some p =>
    match s.openPage cid c l k with
    | none => s
    | some (pid, s) =>
      let s := (s.copyRows l p.tier p.frame pid n p.sats).twinWhole pid 1 4 tag
      if p.saturated then s.twinSats pid else s
  | _, _ => s

/-- An extent move is given up: the acknowledgements of its page copies count for no other (R48, R743). -/
def State.dropMove (s : State) (cid : Nat) (m : ExtentMove) : State :=
  (s.modConv cid fun c => { c with extentMoves := c.extentMoves.filter (· != m) }).modNet fun n =>
    { n with acked := n.acked.filter (· != .extent cid m.id) }

/-- The places below a length, in a page that holds it, of which the page lies at another node (R48, R88, R89). -/
def Conv.cutAway (c : Conv) (l : Layout) (n : Nat) (committed : Nat → Nat) : List PageKey :=
  if n % l.tokens = 0 || !(c.extents.any fun e => decide (e.first ≤ n / l.tokens) && decide (n / l.tokens < e.last)) then [] else
  ((List.range l.layers).flatMap fun ly => (List.range l.kvHeads).map fun h => { layer := ly, head := h, index := n / l.tokens }).filter
    fun k => decide (committed k.layer > n) && (c.pageAt k).isNone

/-- Saturated elements of n rows that came from elsewhere: how many each has is a free value, up to its number of elements (R119; log
entries 18 and 86). -/
def State.drawSats (s : State) (l : Layout) (n : Nat) : Table Nat × State :=
  (List.range n).foldl (fun (acc : Table Nat × State) k =>
    let (v, s) := acc.2.drawBelow (l.keyLen + (if l.latent then 0 else l.valueLen) + 1)
    (Table.set acc.1 k v, s)) ([], s)

/-- The saturated elements of n rows of which only the total is known, spread over them freely: no row has more than its number of
elements (R119; log entry 86). -/
def State.spreadSats (s : State) (l : Layout) (n total : Nat) : Table Nat × State :=
  let most := l.keyLen + (if l.latent then 0 else l.valueLen)
  let r := (List.range n).foldl (fun (acc : Table Nat × Nat × State) k =>
    let left := acc.2.1
    let least := left - (n - 1 - k) * most
    let (v, s) := acc.2.2.drawBelow (min left most + 1 - least)
    (Table.set acc.1 k (least + v), left - (least + v), s)) ([], total, s)
  (r.1, r.2.2)

/-- Copies the positions of an outlying page below n into a fresh open page here, and the copy to its twin (R48, R88, R89). What the
other node's page holds is no part of this node's state: the rows and their saturated elements are free values, read over the fabric
(log entry 18). -/
def State.copyAway (s : State) (cid : Nat) (l : Layout) (k : PageKey) (n : Nat) : State :=
  match (s.conv cid).bind fun c => s.openPage cid c l k with
  | none => s
  | some (pid, s) =>
    let (bs, s) := s.drawBytes
    match s.page pid with
    | none => s
    | some d =>
      let s := s.writeFrame d.tier d.frame 0 (fitTo (n * l.keyRow) bs)
      let s := s.writeFrame d.tier d.frame (l.tokens * l.keyRow) (fitTo (n * l.valueRow) (bs.drop (n * l.keyRow)))
      let s := s.writeFrame d.tier d.frame (Config.dataBytes + 64) (fitTo (2 * n) (bs.drop (n * l.keyRow + n * l.valueRow)))
      let (sats, s) := s.drawSats l n
      ((s.modPage pid fun p => { p with sats := sats }).twinWhole pid 1 4 .none).twinSats pid

/-- The extents of a conversation cut to a length: a page that holds the length itself is copied to the home (R48, R88, R89). -/
def Conv.clipExtents (c : Conv) (l : Layout) (n : Nat) : List Extent :=
  (c.extents.map fun (e : Extent) => { e with last := min e.last (n / l.tokens) }).filter fun e => decide (e.first < e.last)

/-- Whether a page's twin frame must be named to the twin: another conversation's CID stands in the page, or another page of this one's
place is still kept (R554, R571). -/
def State.namesFrame (s : State) (cid j pid : Nat) (p : Page) : Bool :=
  p.twinNode == some j && (p.cid != cid || s.tiers.pages.any fun x =>
    x.1 != pid && x.2.cid == cid && x.2.key == p.key && x.2.twinNode == some j)

/-- Tells the twin which of its frames hold the pages that their headers do not tell: those that a conversation shares with others, and
those that have replaced a shared one. Layer, head, page index and frame of each, in a KIND 3 write at the CID plus 2^49 (R554, R571;
log entry 14). -/
def State.twinShared (s : State) (cid : Nat) : State :=
  match s.conv cid with
  | none => s
  | some c =>
    match c.twin with
    | none => s
    | some j =>
      let shared := c.pages.filterMap fun x => (s.page x.2).bind fun p =>
        if s.namesFrame cid j x.2 p then some (x.1, p.twinFrame) else none
      s.post (s.nodeQp j) 4
        [.write (BitVec.ofNat 64 (2 ^ 49 + cid)) 0
          (shared.map fun x => le 2 x.1.layer ++ le 1 x.1.head ++ zeros 1 ++ le 4 x.1.index ++ le 4 x.2).flatten (some (twinImm 3 0))]

/-! ## CONV_OPEN (R49, R80, R417, R418, R745) -/

/-- The refusal of an open block (R418), in the order R745 names the reasons. -/
def State.openRefusal (s : State) (b : List Byte) : Option Ans :=
  let n := fieldAt b 1 1
  let out := (List.range 15).map fun k => fieldAt b (8 + 2 * k) 2
  let used := out.take n
  if b.length != 64 || !zeroAt b 2 6 || !zeroAt b 38 26 then some (Ans.param Reason.payloadFormat)
  else if n > 15 || (out.drop n).any (· != 0) then some (Ans.param Reason.outlyingNode)
  else if used.any (fun j => j == s.nodeId || (s.fabricNode j).isNone || ((s.fabricNode j).map (·.role)) != some Role.cache) ||
    used.eraseDups.length != used.length then some (Ans.param Reason.outlyingNode)
  else if fieldAt b 0 1 ≥ 64 || (s.layout (fieldAt b 0 1)).isNone then some (Ans.param Reason.layoutUndefined)
  else none

/-- A fresh entry of a conversation: OPEN, epoch 1 (log entry 17), the lease with a source. -/
def State.freshConv (s : State) (pool layoutIdx layers length : Nat) (outlying : List Nat) (twin : Option Nat) : Conv :=
  { pool := pool, home := s.nodeId, layout := layoutIdx, committed := List.replicate layers length
    crcs := List.replicate layers [], epoch := 1, outlying := outlying, twin := twin
    selfFenced := match twin with
      | some j => ((s.partner j).map (·.silent)).getD false
      | none => false }

/-- Opens a conversation, or refuses in the order of R745. -/
def State.openConv (s : State) (c : Cmd) (ctx : CmdCtx) : State :=
  let cid := c.hdr.cid
  let b := c.payload
  let pool := s.mappedPool (cidHash cid)
  let foreign := match s.conv cid with
    | some x => if x.home = s.nodeId then none else some (s.notOwner x)
    | none => none
  match foreign with
  | some a => s.finish ctx a
  | none =>
    match s.openRefusal b with
    | some a => s.finish ctx a
    | none =>
      match s.conv cid with
      | some x => s.finish ctx ((s.guard x (fun _ => false) true).getD (Ans.state Reason.convState x.word))
      | none =>
        if s.tableUse pool ≥ Config.tablePerPool then s.finish ctx (Ans.throttled Reason.tableFull 1000) else
        match s.pressure with
        | some (h, s) => s.finish ctx (Ans.throttled Reason.poolPressure h)
        | none =>
          let layers := ((s.layout (fieldAt b 0 1)).map (·.layers)).getD 0
          let conv := s.freshConv pool (fieldAt b 0 1) layers 0
            ((List.range (fieldAt b 1 1)).map fun k => fieldAt b (8 + 2 * k) 2) s.newTwin
          let s := ({ s with convs := Table.set s.convs cid conv }.grantLease cid (srcKey ctx.src)).needTwin cid
          match s.conv cid with
          | none => s
          | some conv => s.finishTwinned cid conv ctx (Ans.ok)

/-- The CONV_OPEN that waits longest at the gate of a FREE conversation, of one cycle that of the lowest QP (R62). -/
def State.openFirst (s : State) (cid : Nat) : Option (Cmd × CmdCtx) :=
  (s.net.opens.filter fun x => x.1.hdr.cid == cid).foldl (fun (b : Option (Cmd × CmdCtx)) x =>
    match b with
    | none => some x
    | some y => if x.2.arrival = y.2.arrival && decide (srcKey x.2.src < srcKey y.2.src) then some x else some y) none

/-- CONV_OPEN: behind what waits at the gate of a conversation that has the CID now (R62, R94). A FREE one has no row: the command
passes at once, or waits for what goes ahead of it in its cycle, a fork that makes the conversation among that. -/
def execConvOpen (c : Cmd) (s : State) : Host.Outcome State Fault Refusal :=
  .next (s.onArrive 0x0201 c fun c ctx s =>
    if (s.conv c.hdr.cid).isSome then s.throughGate c.hdr.cid c ctx fun s => s.openConv c ctx
    else if s.ahead c.hdr.cid (srcKey ctx.src + 1) || (s.openFirst c.hdr.cid).isSome then s.modNet fun n => { n with opens := n.opens ++ [(c, ctx)] }
    else s.openConv c ctx)

/-! ## CONV_SEAL (R86) -/

/-- Seals each partly filled tail page with its fill count, and drops pages that hold no committed token (R86, R134). -/
def State.sealTails (s : State) (cid : Nat) : State :=
  match s.conv cid with
  | none => s
  | some c =>
    match s.layout c.layout with
    | none => s
    | some l =>
      c.pages.foldl (fun s p =>
        let have_ := min l.tokens (c.committed.getD p.1.layer 0 - p.1.index * l.tokens)
        match s.page p.2 with
        | none => s
        | some g =>
          if g.isSealed then s
          else if have_ = 0 then s.leavePage cid p.2
          else s.sealPage p.2 have_) s

/-- CONV_SEAL at its gate pass. -/
def State.sealAt (s : State) (cid : Nat) (ctx : CmdCtx) : State :=
  match s.homed cid with
  | .error a => s.finish ctx a
  | .ok c =>
    match s.guard c onlyOpen with
    | some a => s.finish ctx a
    | none =>
      let (bad, s) := s.leaseCheck cid (srcKey ctx.src)
      match bad with
      | some a => s.finish ctx a
      | none =>
        let s := s.discardTail cid
        let s := s.modConv cid fun c => { c with state := .sealed, lease := none, lostLease := [] }
        (s.sealTails cid).finishLength cid ctx

/-- A command that takes no payload (R366). -/
def State.noPayload (s : State) (c : Cmd) (ctx : CmdCtx) (f : State → State) : State :=
  if c.payload.isEmpty then f s else s.finish ctx (Ans.param Reason.payloadFormat)

/-- CONV_SEAL. -/
def execConvSeal (c : Cmd) (s : State) : Host.Outcome State Fault Refusal :=
  .next (s.onArrive 0x0203 c fun c ctx s => s.noPayload c ctx fun s => s.throughGate c.hdr.cid c ctx fun s => s.sealAt c.hdr.cid ctx)

/-! ## CONV_TRUNCATE (R89) -/

/-- The pages of a conversation that hold position n with positions below it: to be copied (R88, R89). -/
def Conv.cutPages (c : Conv) (l : Layout) (n : Nat) (committed : Nat → Nat) : List (PageKey × Nat) :=
  if n % l.tokens = 0 then [] else
  c.pages.filter fun p => p.1.index == n / l.tokens && decide (committed p.1.layer > n)

/-- Extent moves of a conversation that is cut to a page: one that has not passed is given up where it would take pages of the cut, and
one that has passed keeps the source of what is left (R48, R89, R743). -/
def State.cutMoves (s : State) (cid page : Nat) : State :=
  match s.conv cid with
  | none => s
  | some c =>
    let s := (c.extentMoves.filter fun m => !m.passed && decide (page < m.last)).foldl (fun s m => s.dropMove cid m) s
    s.modConv cid fun c => { c with extentMoves := c.extentMoves.map fun m => { m with last := min m.last page } }

/-- Cuts a conversation to length n (R89). -/
def State.cutConv (s : State) (cid : Nat) (c : Conv) (l : Layout) (n : Nat) (cmd : Cmd) (ctx : CmdCtx) : State :=
  let cut := c.cutPages l n fun ly => c.committed.getD ly 0
  let away := c.cutAway l n fun ly => c.committed.getD ly 0
  match s.blocked (cut.map (·.2)) ctx with
  | (some (some a), s) => s.finish ctx a
  | (some none, s) => s.stayAtRow cid cmd ctx
  | (none, s) =>
    match s.roomFor c.twin (cut.length + away.length) with
    | some (a, s) => s.finish ctx a
    | none =>
      let s := s.discardTail cid
      let s := s.modConv cid fun c =>
        { c with committed := c.committed.map (min n), crcs := c.crcs.map fun x => x.filter fun y => y.1 < n, prefixTokens := 0 }
      let s := (c.pages.filter fun p => decide (p.1.index * l.tokens ≥ n)).foldl (fun s p => s.leavePage cid p.2) s
      let s := cut.foldl (fun s p =>
        let s := s.modConv cid fun c => { c with pages := c.pages.filter fun x => x.2 != p.2 }
        let s := s.copyInto cid l p.1 p.2 (n % l.tokens)
        (s.modPage p.2 fun g => { g with pinnedBy := g.pinnedBy.filter (· != cid) }).dropRef p.2) s
      let s := away.foldl (fun s k => s.copyAway cid l k (n % l.tokens)) s
      let s := (s.modConv cid fun c => { c with extents := c.clipExtents l n }).cutMoves cid (n / l.tokens)
      let s := match (s.conv cid).bind (·.prefixHandle) with
        | none => s
        | some h =>
          let keeps := ((s.conv cid).map fun (c : Conv) => c.pages.any fun p => ((s.page p.2).bind (·.version)) == some h).getD false
          if keeps then s else s.detachConv cid h
      (s.finishLength cid ctx).twinShared cid

/-- CONV_TRUNCATE at its gate pass. -/
def State.truncateAt (s : State) (cid : Nat) (c : Cmd) (ctx : CmdCtx) : State :=
  let n := c.hdr.p0
  match s.homed cid with
  | .error a => s.finish ctx a
  | .ok conv =>
    match s.guard conv onlyOpen with
    | some a => s.finish ctx a
    | none =>
      let (bad, s) := s.leaseCheck cid (srcKey ctx.src)
      match bad, s.layout conv.layout with
      | some a, _ => s.finish ctx a
      | none, none => s.finish ctx (Ans.param Reason.truncateLength)
      | none, some l =>
        let longest := conv.committed.foldl max 0
        if n > longest then s.finish ctx (Ans.param Reason.truncateLength)
        else if n = longest then s.finish ctx (Ans.ok conv.lengthWord)
        else s.cutConv cid conv l n c ctx

/-- CONV_TRUNCATE. -/
def execConvTruncate (c : Cmd) (s : State) : Host.Outcome State Fault Refusal :=
  .next (s.onArrive 0x0204 c fun c ctx s =>
    s.noPayload c ctx fun s => s.throughGate c.hdr.cid c ctx fun s => s.truncateAt c.hdr.cid c ctx)

/-! ## CONV_FORK (R87, R88, R420, R536) -/

/-- Makes the child of a fork at length f (R87, R88). -/
def State.makeChild (s : State) (child : Nat) (pool : Nat) (c : Conv) (l : Layout) (f : Nat) (cut : List (PageKey × Nat))
    (away : List PageKey) (ctx : CmdCtx) : State :=
  let conv : Conv := { s.freshConv pool c.layout l.layers f c.outlying c.twin with
    extents := c.clipExtents l f
    attached := c.attached, prefixHandle := c.prefixHandle }
  let whole := c.pages.filter fun p => decide ((p.1.index + 1) * l.tokens ≤ f)
  let s := { s with convs := Table.set s.convs child { conv with pages := whole } }
  let s := whole.foldl (fun s p => s.addRef p.2) s
  let s := c.attached.foldl (fun s h => s.modVersion h.toNat fun v => { v with conversations := addOnce v.conversations child }) s
  let s := cut.foldl (fun s p => s.copyInto child l p.1 p.2 (f % l.tokens)) s
  let s := (away.foldl (fun s k => s.copyAway child l k (f % l.tokens)) s).twinShared child
  let s := (s.grantLease child (srcKey ctx.src)).needTwin child
  match s.conv child with
  | none => s
  | some conv => s.finishTwinned child conv ctx (Ans.ok)

/-- CONV_FORK at its gate pass, its refusals in the order of R745. -/
def State.forkAt (s : State) (cid : Nat) (c : Cmd) (ctx : CmdCtx) : State :=
  let child := c.hdr.p0
  let f := c.hdr.p1
  let pool := s.mappedPool (cidHash child)
  match s.homed cid with
  | .error a => s.finish ctx a
  | .ok conv =>
    match s.barred conv with
    | some a => s.finish ctx a
    | none =>
      if f > conv.length then s.finish ctx (Ans.param Reason.forkLength) else
      match conv.illegal openOrSealed false, s.layout conv.layout with
      | some a, _ => s.finish ctx a
      | none, none => s.finish ctx (Ans.param Reason.forkLength)
      | none, some l =>
        if (s.conv child).isSome then s.finish ctx (Ans.state Reason.forkCidInUse conv.word)
        else if s.tableUse pool ≥ Config.tablePerPool then s.finish ctx (Ans.throttled Reason.tableFull 1000)
        else match s.pressure with
          | some (h, s) => s.finish ctx (Ans.throttled Reason.poolPressure h)
          | none =>
            let cut := if f % l.tokens = 0 then [] else conv.pages.filter fun p => p.1.index == f / l.tokens
            let away := conv.cutAway l f fun _ => f + 1
            match s.blocked (cut.map (·.2)) ctx with
            | (some (some a), s) => s.finish ctx a
            | (some none, s) => s.stayAtRow cid c ctx
            | (none, s) =>
              match s.roomFor conv.twin (cut.length + away.length) with
              | some (a, s) => s.finish ctx a
              | none => s.makeChild child pool conv l f cut away ctx

/-- CONV_FORK. -/
def execConvFork (c : Cmd) (s : State) : Host.Outcome State Fault Refusal :=
  .next (s.onArrive 0x0205 c fun c ctx s => s.noPayload c ctx fun s => s.throughGate c.hdr.cid c ctx fun s => s.forkAt c.hdr.cid c ctx)

/-! ## CONV_CLOSE (R90) -/

/-- The attachment that a conversation took at the arbiter is released, unless the conversation had it before (R533). -/
def State.releaseAttach (s : State) (cid : Nat) (h : W64) : State :=
  if ((s.conv cid).map fun (c : Conv) => c.attached.contains h).getD false then s
  else (s.modVersion h.toNat fun v => { v with conversations := v.conversations.filter (· != cid) }).reapVersion h.toNat

/-- What waits at the row of a conversation that has become FREE, in its order: a CONV_OPEN of the CID opens it anew, and what
follows waits at the new row; anything else is answered as for FREE, an attach with the attachment that it took at its arbiter released
(R62, R90, R93, R94, R533). -/
def State.leaveRow (s : State) (cid : Nat) (row : List RowItem) : State :=
  row.foldl (fun s it =>
    if (s.conv cid).isSome then s.modConv cid fun c => { c with row := c.row ++ [it] } else
    match it with
    | .cmd c x =>
      if x.opcode = 0x0201 then s.openConv c x
      else (if x.opcode = 0x0405 then s.releaseAttach cid c.hdr.targetId else s).finish x (Ans.state Reason.convState)
    | .append a => s.refuseAppend a (Ans.state Reason.convState)) s

/-- Closes a conversation: appends discarded, attachments and references dropped, the entry released (R90, R536). -/
def State.closeAt (s : State) (cid : Nat) (ctx : CmdCtx) : State :=
  match s.homed cid with
  | .error a => s.finish ctx a
  | .ok c =>
    match s.guard c (fun st => st == .opened || st == .sealed || st == .lost) with
    | some a => s.finish ctx a
    | none =>
      let s := s.discardTail cid
      let waiting := ((s.conv cid).map (·.row)).getD []
      let s := c.attached.foldl (fun s h => s.detachConv cid h) s
      let s := (((s.conv cid).map (·.pages)).getD []).foldl (fun s p => s.leavePage cid p.2) s
      let s := { s with convs := Table.erase s.convs cid }
      let s := s.finishTwinned cid { c with state := .free, pages := [], extents := [], attached := [], committed := c.committed.map fun _ => 0 }
        ctx (Ans.ok)
      s.leaveRow cid waiting

/-- CONV_CLOSE. -/
def execConvClose (c : Cmd) (s : State) : Host.Outcome State Fault Refusal :=
  .next (s.onArrive 0x0206 c fun c ctx s => s.noPayload c ctx fun s => s.throughGate c.hdr.cid c ctx fun s => s.closeAt c.hdr.cid ctx)

/-! ## CONV_PIN (R146, R147, R164, R421) -/

/-- The layers that a pin names, or none for a range outside the layout (R421). -/
def pinLayers (layers p1 : Nat) : Option (List Nat) :=
  let first := bits p1 15 0
  let count := bits p1 31 16
  if first ≥ layers || first + count > layers then none
  else some ((List.range (if count = 0 then layers - first else count)).map (first + ·))

/-- The pages of a conversation that a pin covers at this node (R421). -/
def Conv.pinPages (c : Conv) (l : Layout) (layers : List Nat) (first count : Nat) : List Nat :=
  (c.pages.filter fun p =>
    let len := c.committed.getD p.1.layer 0
    let last := if count = 0 then len else min len (first + count)
    layers.contains p.1.layer && decide (first < last) && decide (p.1.index * l.tokens < last) && decide (first < (p.1.index + 1) * l.tokens)).map (·.2)

/-- Pins one page: it is wanted in the hot tier (R146). -/
def State.pinPage (s : State) (cid pid : Nat) : State :=
  match s.page pid with
  | none => s
  | some p =>
    let s := s.modPage pid fun p => { p with pinnedBy := addOnce p.pinnedBy cid }
    match p.state with
    | .spilled => s.wantMove pid .refetch
    | .poisoned => s
    | .moving => if p.targetTier = .warm then s.wantMove pid .promote else s
    | .resident => if p.tier = .warm then s.wantMove pid .promote else s

/-- Pages that a pin covers at outlying nodes: one for each covered layer, KV head and page index of an extent (R421). -/
def Conv.pinnedAway (c : Conv) (l : Layout) (layers : List Nat) (first count : Nat) : Nat :=
  (layers.map fun ly =>
    let len := c.committed.getD ly 0
    let last := if count = 0 then len else min len (first + count)
    l.kvHeads * (c.extents.map fun (e : Extent) =>
      ((List.range (e.last - e.first)).filter fun k =>
        decide (first < last) && decide ((e.first + k) * l.tokens < last) && decide (first < (e.first + k + 1) * l.tokens)).length).sum).sum

/-- CONV_PIN at its gate pass. The pages at outlying nodes count in the reply (log entry 50). What counts as a pinned hot frame under R164 the manual leaves open: the model counts every page under a
CONV_PIN, in whatever tier it lies, and no page that a move alone holds (DESIGN CHOICE, log entry 81). -/
def State.pinAt (s : State) (cid : Nat) (c : Cmd) (ctx : CmdCtx) : State :=
  match s.homed cid with
  | .error a => s.finish ctx a
  | .ok conv =>
    match s.guard conv openOrSealed, s.layout conv.layout with
    | some a, _ => s.finish ctx a
    | none, none => s.finish ctx (Ans.param Reason.pinRange)
    | none, some l =>
      let first := bits c.hdr.p0 31 0
      let count := bits c.hdr.p0 63 32
      match pinLayers l.layers c.hdr.p1 with
      | none => s.finish ctx (Ans.param Reason.pinRange)
      | some layers =>
        if first ≥ (layers.map fun ly => conv.committed.getD ly 0).foldl max 0 then s.finish ctx (Ans.param Reason.pinRange) else
        let pages := conv.pinPages l layers first count
        if bit c.hdr.p1 32 then
          (pages.foldl (fun s pid => s.modPage pid fun p => { p with pinnedBy := p.pinnedBy.filter (· != cid) }) s).finish ctx
            (Ans.ok (pages.length + conv.pinnedAway l layers first count))
        else
          let fresh := pages.filter fun pid => ((s.page pid).map (·.pinnedBy.isEmpty)).getD false
          let now := (s.tiers.pages.filter fun p => !p.2.pinnedBy.isEmpty).length
          if now + fresh.length > Config.pinLimit then
            (s.bump Ctr.throttleGrow).finish ctx (Ans.throttled Reason.pinLimit 1000)
          else (pages.foldl (fun s pid => s.pinPage cid pid) s).finish ctx (Ans.ok (pages.length + conv.pinnedAway l layers first count))

/-- CONV_PIN. -/
def execConvPin (c : Cmd) (s : State) : Host.Outcome State Fault Refusal :=
  .next (s.onArrive 0x0207 c fun c ctx s => s.noPayload c ctx fun s => s.throughGate c.hdr.cid c ctx fun s => s.pinAt c.hdr.cid c ctx)

/-! ## CONV_STAT and CONV_LEASE (R82, R422) -/

/-- One committed length per layer, in layer order (R422). -/
def Conv.lengths (c : Conv) : List Byte := (c.committed.map (le 4)).flatten

/-- PARAM1 of CONV_STAT (R422). -/
def Conv.statWord (c : Conv) : Nat :=
  (match c.lease with
    | some q => q + 2
    | none => 0xFFFFFF) + 2 ^ 24 * c.extents.length + 2 ^ 32 * c.epoch

/-- CONV_STAT at its gate pass. -/
def State.statAt (s : State) (cid : Nat) (c : Cmd) (ctx : CmdCtx) : State :=
  match s.homed cid with
  | .error a => s.finish ctx a
  | .ok conv =>
    match s.guard conv (fun st => st != .free) with
    | some a => s.finish ctx a
    | none =>
      let a := Ans.ok conv.word conv.statWord
      if c.payload.isEmpty then s.finish ctx a else s.finishResult ctx (resultItemAt c.payload 0) a conv.lengths

/-- CONV_STAT. -/
def execConvStat (c : Cmd) (s : State) : Host.Outcome State Fault Refusal :=
  .next (s.onArrive 0x0208 c fun c ctx s =>
    if c.payload.length = 0 ∨ c.payload.length = 16 then s.throughGate c.hdr.cid c ctx fun s => s.statAt c.hdr.cid c ctx
    else s.finish ctx (Ans.param Reason.payloadFormat))

/-- CONV_LEASE at its gate pass: RENEW, or TAKE (R81, R82, R83). -/
def State.leaseAt (s : State) (cid : Nat) (c : Cmd) (ctx : CmdCtx) : State :=
  match s.homed cid with
  | .error a => s.finish ctx a
  | .ok conv =>
    match s.guard conv onlyOpen with
    | some a => s.finish ctx a
    | none =>
      let key := srcKey ctx.src
      if c.hdr.param0 = 0 then
        let (bad, s) := s.leaseCheck cid key
        match bad with
        | some a => s.finish ctx a
        | none => (s.renewLease cid).finish ctx (Ans.ok conv.lengthWord)
      else
        let item := resultItemAt c.payload 0
        if !itemFits ctx.src item conv.lengths.length then s.finish ctx (Ans.param Reason.resultSpace) else
        let s := if conv.lease = some key then s.renewLease cid else (s.endLease cid).grantLease cid key
        s.finish ctx { Ans.ok conv.lengthWord with result := conv.lengths, item := item }

/-- CONV_LEASE. -/
def execConvLease (c : Cmd) (s : State) : Host.Outcome State Fault Refusal :=
  .next (s.onArrive 0x020C c fun c ctx s =>
    if c.payload.length = (if c.hdr.param0 = 0 then 0 else 16) then
      s.throughGate c.hdr.cid c ctx fun s => s.leaseAt c.hdr.cid c ctx
    else s.finish ctx (Ans.param Reason.payloadFormat))

end Sys2Proof.Machine
end

