-- ==== Sys2Proof/Machine/Move.lean ====
section
/-! DEFINITION. Moves of ownership between nodes and pools, probes, and extent moves (R46, R48, R53, R91, R386, R423 to
R428, R537, R575, R586, R743). -/
namespace Sys2Proof.Machine

/-- The node at the other end of a command's QP. -/
def State.sender (s : State) (ctx : CmdCtx) : Nat :=
  match ctx.src with
  | .qp i => s.peerOf i
  | .lane _ => s.nodeId

/-- Whether a command came on a NODE QP. -/
def State.fromNode (s : State) (ctx : CmdCtx) : Bool :=
  match ctx.src with
  | .qp i => (s.qp i).kind == .node
  | .lane _ => false

/-- Sends a move message about a conversation: the leg in class 4, ACCEPT, COMMIT and probes in class 7 (R496). Its
REQUEST_ID is the node's own choice (log entry 4). -/
def State.sendMove (s : State) (j opcode cid epoch p0 : Nat) (payload : List Byte) : State :=
  let (id, s) := s.drawWord
  s.sendCommand j (if opcode = 0x0209 then 4 else 7)
    { opcode := BitVec.ofNat 16 opcode, requestId := id, targetId := BitVec.ofNat 64 cid
      param0 := BitVec.ofNat 64 p0, param1 := BitVec.ofNat 64 epoch } payload

/-! ## At the old home (R423, R424) -/

/-- Writes the twin record of a conversation as it stands. -/
def State.twinEntry (s : State) (cid : Nat) (tag : Tag := .none) : State :=
  match s.conv cid with
  | none => s
  | some c => s.twinRecord cid c tag

/-- A move begins: the tail lease ends, the twin record says it, and the leg goes out (R423, R424). -/
def State.startLeg (s : State) (cid : Nat) (conv : Conv) (dest : Nat) (requester : Option CmdCtx) : State :=
  let s := s.endLease cid
  let s := s.modConv cid fun x =>
    { x with state := .moving, move := some { dest := dest, epoch := x.epoch + 1, former := conv.state, requester := requester, lastSent := s.now } }
  match s.conv cid with
  | none => s
  | some x =>
    (s.twinRecord cid x .none).sendMove dest 0x0209 cid (x.epoch + 1) dest (s.moveImage x conv.state (x.epoch + 1))

/-- The nodes to which a draining node may move what it holds (R412). -/
def State.drainDests (s : State) : List Nat :=
  (((s.node.fabric.map (·.nodes)).getD []).filter fun n =>
    n.role == .cache && n.id != s.nodeId && s.linkUp n.id && !s.recover.lostNodes.contains n.id).map (·.id)

/-- While the node drains, a homed conversation that may move is offered to another CACHE node; which, the manual does not
say (R412; log entry 4). -/
def State.drainConv (s : State) (cid : Nat) : State :=
  match s.homed cid with
  | .error _ => s
  | .ok conv =>
    let dests := s.drainDests
    if (s.barred conv).isSome || (conv.illegal openOrSealed false).isSome || dests.isEmpty then s else
    let (k, s) := s.drawBelow dests.length
    s.startLeg cid conv (dests.getD k 0) none

/-- A requester's CONV_MOVE_OFFER at its gate pass (R423, R424). No rule orders R424's MOVE_TARGET and the conversation's state: an
offer that breaks both is answered MOVE_TARGET (DESIGN CHOICE, log entry 80). -/
def State.offerAt (s : State) (cid : Nat) (c : Cmd) (ctx : CmdCtx) : State :=
  match s.homed cid with
  | .error a => s.finish ctx a
  | .ok conv =>
    let dest := c.hdr.p0
    let ok := dest != s.nodeId && (s.fabricNode dest).map (·.role) == some Role.cache
    match s.barred conv with
    | some a => s.finish ctx a
    | none =>
      if !ok then s.finish ctx (Ans.param Reason.moveTarget) else
      match conv.illegal openOrSealed false with
      | some a => s.finish ctx a
      | none => s.startLeg cid conv dest (some ctx)

/-- A move ends without effect: the conversation is what it was, with its epoch, and the requester is answered after the twin record
(R424, R426, R558). -/
def State.undoMove (s : State) (cid : Nat) (a : Ans) : State :=
  match s.conv cid with
  | none => s
  | some c =>
    match c.move with
    | none => s
    | some m =>
      let s := s.modConv cid fun c => { c with state := m.former, home := s.nodeId, epoch := m.epoch - 1, move := none }
      match s.conv cid with
      | none => s
      | some c => s.finishAll cid c (if m.replied then [] else m.requester.toList.map fun ctx => (ctx, a))

/-- Drops the kept results of a conversation whose ownership has passed (R386). -/
def State.dropKept (s : State) (cid : Nat) : State :=
  (s.net.records.filter fun r => !r.kept.isEmpty && (r.reply.map (·.targetId.toNat)) == some cid).foldl
    (fun s r => s.closeRecord r .expired) s

/-- ACCEPT, or its equal under R426, reaches the old home: every later command gets NOT_OWNER (R91, R423). -/
def State.acceptMove (s : State) (cid : Nat) : State :=
  match s.conv cid with
  | none => s
  | some c =>
    match c.move with
    | none => s
    | some m =>
      if m.accepted then s else
      let s := s.modConv cid fun c =>
        { c with home := m.dest, epoch := m.epoch, move := some { m with accepted := true, lastSent := s.now } }
      s.dropKept cid

/-- The event of ACCEPT, with its twin record; its own reply, where it has one, follows the record (R558). -/
def State.moveAccepted (s : State) (cid : Nat) (reply : List (CmdCtx × Ans)) : State :=
  let s' := s.acceptMove cid
  match s'.conv cid with
  | none => reply.foldl (fun s x => s.finish x.1 x.2) s'
  | some c => s'.finishAll cid c reply

/-- The range of pages that a former home keeps as an extent of the new one (R423). -/
def State.ownExtent (s : State) (c : Conv) : List Extent :=
  match c.pages.map (·.1.index) with
  | [] => []
  | i :: rest => [{ node := s.nodeId, first := rest.foldl min i, last := rest.foldl max i + 1 }]

/-- COMMIT, or its equal under R426: the shadow is dropped, the former home detaches from the attached versions and keeps its own pages
as an extent, and after the twin record the requester is answered, and with it the COMMIT (R423, R537, R556, R558). -/
def State.moveCommitted (s : State) (cid : Nat) (reply : List (CmdCtx × Ans)) : State :=
  match (s.acceptMove cid).conv cid with
  | none => reply.foldl (fun s x => s.finish x.1 x.2) s
  | some c =>
    match c.move with
    | none => reply.foldl (fun s x => s.finish x.1 x.2) s
    | some m =>
      let s := s.acceptMove cid
      let shared := c.pages.filter fun p => ((s.page p.2).map (·.version.isSome)).getD false
      let s := shared.foldl (fun s p => s.leavePage cid p.2) s
      let s := c.attached.foldl (fun s h => s.detachConv cid h) s
      let s := s.modConv cid fun c => { c with move := none, state := m.former, extents := s.ownExtent c }
      match s.conv cid with
      | none => s
      | some c =>
        s.finishAll cid c (reply ++ if m.replied then [] else m.requester.toList.map fun ctx => (ctx, Ans.ok (m.dest + 2 ^ 32 * m.epoch)))

/-- The move under way at the old home, with a partner and epoch (R425). -/
def State.outgoing (s : State) (cid from_ epoch : Nat) : Option Move :=
  ((s.conv cid).bind (·.move)).bind fun m => if !m.incoming && m.dest = from_ && m.epoch = epoch then some m else none

/-! ## At the new home (R423, R424, R428) -/

/-- A move image, read (R428). -/
structure Image where
  layoutRecord : List Byte
  state : ConvState
  epoch : Nat
  committed : List Nat
  extents : List Extent
  attached : List W64
deriving DecidableEq, Repr

/-- Reads a move image; none for one that breaks R428, a reserved field included (R366). -/
def parseImage (b : List Byte) : Option Image :=
  let l := Layout.decode (b.take 16)
  let n := fieldAt b 17 1
  let k := fieldAt b 18 2
  let len := 64 + 4 * l.layers + 16 * n + 8 * k
  let st := fieldAt b 16 1
  let extentOk := fun (i : Nat) => zeroAt b (64 + 4 * l.layers + 16 * i + 2) 2 && zeroAt b (64 + 4 * l.layers + 16 * i + 12) 4
  if b.length = len && zeroAt b 24 40 && (List.range n).all extentOk && 1 ≤ n && n ≤ 16 && k ≤ 64 && (st = 1 || st = 2) then
    some { layoutRecord := b.take 16, state := if st = 1 then .opened else .sealed, epoch := fieldAt b 20 4
           committed := (List.range l.layers).map fun i => fieldAt b (64 + 4 * i) 4
           extents := (List.range n).map fun i =>
             let o := 64 + 4 * l.layers + 16 * i
             { node := fieldAt b o 2, first := fieldAt b (o + 4) 4, last := fieldAt b (o + 8) 4 }
           attached := (List.range k).map fun i => BitVec.ofNat 64 (fieldAt b (64 + 4 * l.layers + 16 * n + 8 * i) 8) }
  else none

/-- The slot that holds a layout record: the lowest (log entry 19). -/
def State.slotOf (s : State) (rec_ : List Byte) : Option Nat := (s.attn.layouts.find? fun x => x.2.encode == rec_).map (·.1)

/-- A version's pages become pages of a conversation that attaches to it (R423, R535, R537). -/
def State.attachPages (s : State) (cid : Nat) (h : W64) : State :=
  match Table.get s.regions.versions h.toNat with
  | none => s
  | some v =>
    let s := s.modVersion h.toNat fun v => { v with conversations := addOnce v.conversations cid }
    v.pages.foldl (fun s pid =>
      match s.page pid, Table.get s.attn.layouts v.layout with
      | some p, some l =>
        if (p.key.index + 1) * l.tokens ≤ v.tokens then
          (s.addRef pid).modConv cid fun c => { c with pages := c.pages ++ [(p.key, pid)] }
        else s
      | _, _ => s) s

/-- Installs a conversation from its move image, in state MOVING, and sends ACCEPT (R423). No field of the image carries the CRCs of
R76, so the lists start empty here: a committed token sent again is APPEND_DUPLICATE (DESIGN CHOICE, log entry 80). -/
def State.installMove (s : State) (cid from_ : Nat) (im : Image) (slot : Nat) : State :=
  let old := s.conv cid
  let l := Layout.decode im.layoutRecord
  let prefix_ := im.attached.find? fun h => ((Table.get s.regions.versions h.toNat).map fun v => v.content == 2).getD false
  let shared := (prefix_.bind fun h => (Table.get s.regions.versions h.toNat).map fun v => v.tokens / l.tokens).getD 0
  let exts := ((im.extents.filter fun e => e.node != s.nodeId).map fun e => if e.node = from_ then { e with first := max e.first shared } else e).filter
    fun e => e.first < e.last
  let conv : Conv :=
    { s.freshConv (s.mappedPool (cidHash cid)) slot l.layers 0 [] s.newTwin with
      committed := im.committed, state := .moving, epoch := im.epoch, extents := exts, attached := im.attached
      prefixHandle := prefix_, pages := (old.map (·.pages)).getD [], moveCommitted := false
      move := some { dest := from_, epoch := im.epoch, former := im.state, requester := none, lastSent := s.now, incoming := true } }
  let s := { s with convs := Table.set s.convs cid conv }
  let s := im.attached.foldl (fun s h => s.attachPages cid h) s
  s.sendMove from_ 0x020A cid im.epoch 0 []

/-- The twin has recorded the new home, or the new pool: COMMIT is sent, to another node, the conversation is what it was, and the leg is
answered (R423, R427, R558). -/
def State.moveRecorded (s : State) (cid : Nat) : State :=
  match s.conv cid with
  | none => s
  | some c =>
    match c.move with
    | none => s
    | some m =>
      if !m.incoming then s else
      let s := s.modConv cid fun c => { c with state := m.former, move := none, moveCommitted := true }
      (if m.dest = s.nodeId then s else s.sendMove m.dest 0x020B cid m.epoch 0 []).releaseWaiting cid s.net.nextWait

/-- The twin is to record a new home or a new pool; without a twin it is done (R423, R558). -/
def State.recordMove (s : State) (cid : Nat) : State :=
  match (s.conv cid).bind (·.twin) with
  | none => s.moveRecorded cid
  | some _ => s.twinEntry cid (.moveRecord cid)

/-- A leg reaches its destination (R423 to R425, R537). -/
def State.takeLeg (s : State) (c : Cmd) (ctx : CmdCtx) : State :=
  let cid := c.hdr.cid
  let from_ := s.sender ctx
  match parseImage c.payload with
  | none => s.finish ctx (Ans.param Reason.payloadFormat)
  | some im =>
    let held := s.conv cid
    let stale := im.epoch != c.hdr.p1 || s.recover.refusedEpochs.contains (cid, im.epoch) ||
      (match held with
       | some x => x.epoch ≥ im.epoch || x.home == s.nodeId
       | none => false)
    if s.nodeDrains then s.finish ctx (Ans.state Reason.nodeState ((held.map Conv.word).getD 0))
    else if stale then s.finish ctx (Ans.state Reason.epochStale ((held.map Conv.word).getD 0))
    else if c.hdr.p0 != s.nodeId then s.finish ctx (Ans.param Reason.moveTarget)
    else match s.slotOf im.layoutRecord with
      | none => s.finish ctx (Ans.state Reason.moveLayout ((held.map Conv.word).getD 0))
      | some slot =>
        if (im.extents.filter fun e => e.node != s.nodeId && e.first < e.last).length > 15 then
          s.finish ctx (Ans.state Reason.moveExtents ((held.map Conv.word).getD 0))
        else if im.attached.any fun h => !((Table.get s.regions.versions h.toNat).any fun v => v.state == .published) then
          s.finish ctx (Ans.state Reason.attachAbsent ((held.map Conv.word).getD 0))
        else if held.isNone && s.tableUse (s.mappedPool (cidHash cid)) ≥ Config.tablePerPool then
          s.finish ctx (Ans.throttled Reason.tableFull 1000)
        else
          let s := (s.installMove cid from_ im slot).needTwin cid
          (s.keepAnswer cid ctx (Ans.ok (s.nodeId + 2 ^ 32 * im.epoch))).recordMove cid

/-- CONV_MOVE_OFFER: a requester's, or a leg on a NODE QP (R423). -/
def execConvMoveOffer (c : Cmd) (s : State) : Host.Outcome State Fault Refusal :=
  .next (s.onArrive 0x0209 c fun c ctx s =>
    if s.fromNode ctx then s.takeLeg c ctx
    else s.noPayload c ctx fun s => s.throughGate c.hdr.cid c ctx fun s => s.offerAt c.hdr.cid c ctx)

/-- CONV_MOVE_ACCEPT (R423, R425). -/
def execConvMoveAccept (c : Cmd) (s : State) : Host.Outcome State Fault Refusal :=
  .next (s.onArrive 0x020A c fun c ctx s => s.noPayload c ctx fun s =>
    match s.outgoing c.hdr.cid (s.sender ctx) c.hdr.p1 with
    | none => s.finish ctx (Ans.state Reason.epochStale (((s.conv c.hdr.cid).map Conv.word).getD 0))
    | some _ => s.moveAccepted c.hdr.cid [(ctx, Ans.ok)])

/-- CONV_MOVE_COMMIT (R423, R425). -/
def execConvMoveCommit (c : Cmd) (s : State) : Host.Outcome State Fault Refusal :=
  .next (s.onArrive 0x020B c fun c ctx s => s.noPayload c ctx fun s =>
    match s.outgoing c.hdr.cid (s.sender ctx) c.hdr.p1 with
    | none => s.finish ctx (Ans.state Reason.epochStale (((s.conv c.hdr.cid).map Conv.word).getD 0))
    | some _ => s.moveCommitted c.hdr.cid [(ctx, Ans.ok)])

/-- The receiving node declines an extent move that has not passed yet: the pages stay at the home (R743; log entry 18). -/
def State.declineExtent (s : State) (cid : Nat) : State :=
  match (s.conv cid).bind fun c => c.extentMoves.find? fun m => !m.passed with
  | none => s
  | some m => s.dropMove cid m

/-- MOVE_LEG_REPLY: a leg's refusal returns the conversation to its former state (R424). Of a conversation that is not being moved
it is the answer of a node that declines an extent (R743). A status that R14 does not define makes no reply: the message is malformed. -/
def execMoveLegReply (cid : Nat) (status : BitVec 8) (reason : W16) (s : State) : Host.Outcome State Fault Refusal :=
  if status.toNat > 0x0F then .next s else
  match (s.conv cid).bind (·.move) with
  | none => .next (if status = 0 then s else s.declineExtent cid)
  | some m =>
    if m.incoming || m.accepted || status = 0 then .next s
    else .next (s.undoMove cid { status := status.toNat, reason := reason.toNat })

/-! ## Probes, the deadline, and pools (R426, R427, R586) -/

/-- Whether a pool gives up its conversations: failed, or being drained (R53, R586). -/
def State.poolLeaves (s : State) (p : Nat) : Bool := s.recover.poolsFailed.contains p || s.recover.poolsDrained.contains p

/-- Whether a conversation is on its way between two pools (R427). -/
def Conv.betweenPools (c : Conv) (self_ : Nat) : Bool := c.move.any fun m => m.incoming && m.dest == self_

/-- A remaining pool takes a conversation, by the exchange of a move between nodes: the tail lease ends, the conversation is MOVING at the
next epoch, and it is what it was when the twin has recorded it. Leg, ACCEPT and COMMIT pass inside the node without delay. One at a time;
a conversation that is being moved to another node, or promoted, only changes its pool (R53, R427, R586; log entry 20). -/
def State.takeConv (s : State) (cid : Nat) (c : Conv) : State :=
  if c.move.isSome || c.promoting then s.modConv cid fun c => { c with pool := s.lowestPool }
  else if s.convs.any fun x => x.2.betweenPools s.nodeId then s
  else
    ((s.endLease cid).modConv cid fun x =>
      { x with
        pool := s.lowestPool, epoch := c.epoch + 1, state := .moving, moveCommitted := false
        move := some { dest := s.nodeId, epoch := c.epoch + 1, former := c.state, requester := none, lastSent := s.now, incoming := true } }).recordMove
      cid

/-! ### Extents of a node that drains (R412) -/

/-- An extent that this node holds has come to another node: its home is told, and the pages and, with the last extent, the entry are
given up (R412, R575; log entry 61). -/
def State.leaveExtent (s : State) (cid : Nat) (c : Conv) (m : ExtentMove) : State :=
  let s := s.post (s.nodeQp c.home) 2 [.send (le 6 cid ++ le 2 m.dest ++ le 4 m.first ++ le 4 m.last)]
  let pages := c.pages.filter fun p => decide (m.first ≤ p.1.index) && decide (p.1.index < m.last)
  let s := (pages.foldl (fun s p => s.leavePage cid p.2) s).dropMove cid m
  let s := s.modConv cid fun x => { x with extents := x.extents.filter fun e => !(e.first == m.first && e.last == m.last) }
  match s.conv cid with
  | none => s
  | some x =>
    if x.pages.isEmpty then { s with convs := Table.erase s.convs cid }.twinRecord cid { x with state := .free } .none
    else s.twinRecord cid x .none

/-- Reads the pages of a range, and sends them to a node as an extent: false where one cannot be read now (R48, R174, R743). -/
def State.sendPages (s : State) (cid dest id : Nat) (pages : List (PageKey × Nat)) : Bool × State :=
  if pages.any fun p => ((s.page p.2).map Page.away).getD true then (false, s) else
  let (ok, s) := pages.foldl (fun (acc : Bool × State) p =>
    let (b, s) := acc.2.soundPage p.2
    (acc.1 && b, s)) (true, s)
  if !ok then (false, s) else
  (true, pages.foldl (fun s p =>
    match s.page p.2 with
    | none => s
    | some g => s.post (s.nodeQp dest) 2 [.send (s.readFrame g.tier g.frame 0 Config.frameBytes)] (.extent cid id)) s)

/-- An extent move begins (R743). -/
def State.beginMove (s : State) (cid first last dest copies : Nat) : State :=
  (s.modConv cid fun c =>
    { c with extentMoves := c.extentMoves ++ [{ id := s.net.nextWait, first := first, last := last, dest := dest, copies := copies }] }).modNet
    fun n => { n with nextWait := n.nextWait + 1 }

/-- Whether the node that an extent goes to has acknowledged its pages: it has taken them and twinned them (R48; log entry 18). -/
def State.extentTaken (s : State) (cid : Nat) (m : ExtentMove) : Bool :=
  decide (m.copies ≤ (s.net.acked.filter (· == .extent cid m.id)).length)

/-- While the node drains, an extent that it holds for another home goes to another CACHE node, which the manual does not name, and
leaves when that has taken it and the requests that read it have ended (R48, R412; log entries 4 and 61). -/
def State.drainExtent (s : State) (cid : Nat) (c : Conv) : State :=
  match c.extentMoves with
  | m :: _ => if s.extentTaken cid m && !(s.attn.reqs.any fun r => r.2.cid == cid) then s.leaveExtent cid c m else s
  | [] =>
    match c.extents.head?, s.drainDests.filter (· != c.home) with
    | some e, dests@(_ :: _) =>
      let (k, s) := s.drawBelow dests.length
      let dest := dests.getD k 0
      let pages := c.pages.filter fun p => decide (e.first ≤ p.1.index) && decide (p.1.index < e.last)
      match s.sendPages cid dest s.net.nextWait pages with
      | (false, s) => s
      | (true, s) => s.beginMove cid e.first e.last dest pages.length
    | _, _ => s

/-- MOVE_PROBE_TIMER: 200 µs have passed since the leg, ACCEPT or the last probe (R426); for a conversation whose pool
has failed or drains, the event at which a remaining pool takes it, and while the node drains, the event at which it is
moved out (R53, R412, R586; log entry 20). -/
def execMoveProbeTimer (cid : Nat) (s : State) : Host.Outcome State Fault Refusal :=
  match s.conv cid with
  | none => .next s
  | some c =>
    if s.poolLeaves c.pool && c.home = s.nodeId && !c.betweenPools s.nodeId then .next (s.takeConv cid c) else
    match c.move with
    | none => .next (if !s.nodeDrains then s else if c.home = s.nodeId then s.drainConv cid else s.drainExtent cid c)
    | some m =>
      if m.incoming || s.now < m.lastSent + 200000 then .next s
      else .next ((s.modConv cid fun c => { c with move := some { m with lastSent := s.now } }).sendMove m.dest 0x0505 cid m.epoch 0 [])

/-- OWNER_PROBE_REPLY (R426). -/
def execOwnerProbeReply (cid : Nat) (owner committed : Bool) (epoch : Nat) (s : State) : Host.Outcome State Fault Refusal :=
  match (s.conv cid).bind (·.move) with
  | none => .next s
  | some m =>
    if m.incoming then .next s
    else if committed && epoch ≥ m.epoch then .next (s.moveCommitted cid [])
    else if owner && epoch ≥ m.epoch then .next (if m.accepted then s else s.moveAccepted cid [])
    else if !owner then .next (s.undoMove cid (Ans.miss Reason.moveUnresolved))
    else .next s

/-- OWNER_PROBE (R426, R438): a node that answers OWNER 0 for an epoch never accepts it afterwards. -/
def execOwnerProbe (c : Cmd) (s : State) : Host.Outcome State Fault Refusal :=
  .next (s.onArrive 0x0505 c fun c ctx s => s.noPayload c ctx fun s =>
    let cid := c.hdr.cid
    let epoch := c.hdr.p1
    match s.conv cid with
    | some x =>
      if (x.home = s.nodeId && x.epoch = epoch) || x.epoch > epoch then
        s.finish ctx (Ans.ok (1 + (if x.moveCommitted then 2 else 0) + 2 ^ 32 * x.epoch))
      else
        (s.modRecover fun r => { r with refusedEpochs := addOnce r.refusedEpochs (cid, epoch) }).finish ctx (Ans.ok (2 ^ 32 * x.epoch))
    | none => (s.modRecover fun r => { r with refusedEpochs := addOnce r.refusedEpochs (cid, epoch) }).finish ctx (Ans.ok))

/-- MOVE_DEADLINE: the requester's deadline with the move undecided (R427). -/
def execMoveDeadline (cid : Nat) (s : State) : Host.Outcome State Fault Refusal :=
  match (s.conv cid).bind (·.move) with
  | none => .next s
  | some m =>
    match m.requester with
    | none => .next s
    | some ctx =>
      if m.replied || s.now < ctx.deadline then .next s
      else .next ((s.modConv cid fun c => { c with move := some { m with replied := true } }).finish ctx (Ans.miss Reason.moveUnresolved))

/-! ## Extent moves (R48, R743) -/

/-- Whether a range of page indices is sealed in every layer and KV head, held here, and of no attached version (R743). -/
def State.rangeSealed (s : State) (c : Conv) (l : Layout) (first last : Nat) : Bool :=
  decide (first < last) && (List.range l.layers).all fun ly => (List.range l.kvHeads).all fun h =>
    (List.range (last - first)).all fun i =>
      match c.pageAt { layer := ly, head := h, index := first + i } with
      | none => false
      | some pid => match s.page pid with
        | none => false
        | some p => p.isSealed && p.version.isNone && decide ((first + i + 1) * l.tokens ≤ c.committed.getD ly 0)

/-- One page of an extent is taken as a primary: in a warm frame, with a frame of this node's own twin, to which it is sent. What the
copy holds is the home's: its rows are free values here, under a tail that is sealed (R48, R743; log entry 18). -/
def State.takePage (s : State) (cid slot : Nat) (l : Layout) (k : PageKey) (twin : Option Nat) : State :=
  match s.allocFrame .warm .leaving with
  | none => s
  | some (f, s) =>
    let (bs, s) := s.drawBytes
    let (grant, s) := match twin.bind fun j => (s.takeGrant j).map fun g => (j, g) with
      | some (j, g, s) => (some (j, g), s)
      | none => (none, s)
    let (pid, s) := s.enterPage cid slot l k .warm f none
    let s := s.writeFrame .warm f 0 (fitTo Config.dataBytes bs)
    let s := s.writeFrame .warm f (Config.dataBytes + 64) (fitTo (2 * l.tokens) (bs.drop Config.dataBytes))
    let (sats, s) := s.drawSats l l.tokens
    let s := (s.modPage pid fun p => { p with sats := sats }).sealPage pid l.tokens
    let s := s.modPage pid fun p => { p with twinNode := grant.map (·.1), twinFrame := (grant.map (·.2)).getD 0 }
    ((s.modConv cid fun c => { c with pages := c.pages ++ [(k, pid)] }).twinSats pid).twinWhole pid 4 2 .none

/-- The places of an extent: a range of page indices in every layer and KV head (R48). -/
def extentKeys (l : Layout) (first last : Nat) : List PageKey :=
  (List.range l.layers).flatMap fun ly => (List.range l.kvHeads).flatMap fun h =>
    (List.range (last - first)).map fun i => { layer := ly, head := h, index := first + i }

/-- An extent of another node's conversation comes to this node: it takes the pages as primaries and twins them to its own partner, under
its admission and throttling rules, or declines them (R48, R162, R743). Which home sends them, under which layout, the row
does not say where no entry does: free choices (log entries 4 and 18). -/
def State.takeExtent (s : State) (cid first last : Nat) : State :=
  let slots := (List.range 64).filter fun i => (s.layout i).isSome
  let homes := (((s.node.fabric.map (·.nodes)).getD []).filter fun n => n.role == .cache && n.id != s.nodeId).map (·.id)
  let (a, s) := s.drawBelow slots.length
  let (b, s) := s.drawBelow homes.length
  let slot := ((s.conv cid).map (·.layout)).getD (slots.getD a 64)
  let pool := s.mappedPool (cidHash cid)
  match s.layout slot, s.newTwin, homes[b]? with
  | some l, some j, some home =>
    let keys := extentKeys l first last
    let full := (s.conv cid).isNone && s.tableUse pool ≥ Config.tablePerPool
    let held := ((s.conv cid).map fun (c : Conv) => keys.any fun k => (c.pageAt k).isSome).getD false
    if s.node.role != .cache || keys.isEmpty || full || held || s.allocatable .warm < keys.length ||
        ((s.partner j).map (·.grantsFree.length)).getD 0 < keys.length then s else
    if s.pressed then s else
      let s := match s.conv cid with
        | some _ => s
        | none => { s with convs := Table.set s.convs cid { s.freshConv pool slot l.layers 0 [] (some j) with home := home } }
      let s := s.modConv cid fun c => { c with extents := c.extents ++ [{ node := s.nodeId, first := first, last := last }] }
      (keys.foldl (fun s k => s.takePage cid slot l k (some j)) s).twinEntry cid
  | _, _, _ => s

/-- The holder of an extent of the same range that a conversation has at another node. -/
def Conv.holder (c : Conv) (first last dest : Nat) : Option Nat :=
  (c.extents.find? fun e => e.first == first && e.last == last && e.node != dest).map (·.node)

/-- The bounds of R743 on where an extent may go. -/
def State.destAllowed (s : State) (c : Conv) (dest : Nat) : Bool :=
  openOrSealed c.state && (s.barred c).isNone && c.outlying.contains dest && s.linkUp dest &&
    (s.fabricNode dest).map (·.role) == some Role.cache && !s.recover.lostNodes.contains dest

/-- The bounds of an extent move: the home's own pages are sealed, and it goes to a permitted node. An extent that lies at another node
goes on from there to a permitted node, or, where that node is lost as far as this one can see, declared so or out of reach, to its
survivor, whatever the role (R575, R583, R743). -/
def State.moveAllowed (s : State) (c : Conv) (l : Layout) (first last dest : Nat) : Bool :=
  match c.holder first last dest with
  | none => s.destAllowed c dest && s.rangeSealed c l first last
  | some x =>
    if s.recover.lostNodes.contains x || !s.linkUp x then s.linkUp dest && !s.recover.lostNodes.contains dest else s.destAllowed c dest

/-- The home sends the pages of an extent outward, within the bounds of R743 (log entry 18). An extent of the same range that it has at
another node comes from there, or from that node's survivor: it sends no pages (R412, R575). -/
def State.sendExtent (s : State) (cid : Nat) (c : Conv) (first last dest : Nat) : State :=
  match s.layout c.layout with
  | none => s
  | some l =>
    if !s.moveAllowed c l first last dest then s
    else if (c.holder first last dest).isSome then s.beginMove cid first last dest 0
    else if c.extents.length + c.extentMoves.length ≥ 15 then s
    else
      let pages := c.pages.filter fun p => decide (first ≤ p.1.index) && decide (p.1.index < last)
      match s.sendPages cid dest s.net.nextWait pages with
      | (false, s) => s
      | (true, s) => s.beginMove cid first last dest pages.length

/-- EXTENT_MOVE_START: the home moves an extent outward; at the node that it goes to, the extent arrives (R48, R743). -/
def execExtentMoveStart (cid first last dest : Nat) (s : State) : Host.Outcome State Fault Refusal :=
  match s.homed cid with
  | .ok c => .next (s.sendExtent cid c first last dest)
  | .error _ => .next (if dest = s.nodeId then s.takeExtent cid first last else s)

/-- Whether an extent move may still change the extent map at its pass: its bounds hold as at its start, or it moves the extent of a lost
node (R575, R743). -/
def State.moveStands (s : State) (c : Conv) (m : ExtentMove) : Bool :=
  match s.layout c.layout with
  | none => false
  | some l => s.moveAllowed c l m.first m.last m.dest

/-- EXTENT_MOVE_PASS: the home changes its extent map at the gate pass, once the outlying node has taken the pages; commits and a
lease's expiry go first; requests that passed earlier keep the source pages. A move whose bounds hold no more is given up, and its pages
stay (R48, R62, R575, R743). -/
def execExtentMovePass (cid : Nat) (s : State) : Host.Outcome State Fault Refusal :=
  let s := s.expireLease cid
  match s.homed cid with
  | .error _ => .next s
  | .ok c =>
    match c.extentMoves.find? fun m => !m.passed && s.extentTaken cid m with
    | none => .next s
    | some m =>
      if !s.moveStands c m then .next (s.dropMove cid m) else
      let waiting := (s.attn.reqs.filter fun r => r.2.cid == cid).map (·.1)
      let s := s.modConv cid fun c =>
        { c with
          extents := (c.extents.filter fun e => !(e.first == m.first && e.last == m.last)) ++ [{ node := m.dest, first := m.first, last := m.last }]
          extentMoves := c.extentMoves.map fun x => if x = m then { x with passed := true, waitFor := waiting } else x }
      .next (match s.conv cid with
        | none => s
        | some c => s.twinRecord cid c .none)

/-- EXTENT_SOURCE_RELEASE: the outlying node has twinned the pages, and every request that passed the gate earlier has
ended (R48). -/
def execExtentSourceRelease (cid first : Nat) (s : State) : Host.Outcome State Fault Refusal :=
  match s.conv cid with
  | none => .next s
  | some c =>
    match c.extentMoves.find? fun m => m.passed && m.first == first with
    | none => .next s
    | some m =>
      if !s.extentTaken cid m || m.waitFor.any fun x => (s.req x).isSome then .next s else
      let pages := c.pages.filter fun p => decide (m.first ≤ p.1.index) && decide (p.1.index < m.last)
      .next ((pages.foldl (fun s p => s.leavePage cid p.2) s).dropMove cid m)

end Sys2Proof.Machine
end

