-- ==== Sys2Proof/Machine/Graze.lean ====
section
/-! DEFINITION. Graze and cairn requests: the graze block and its checks (R277 to R284, R744), staging (R193 to R196),
the gate pass (R285 to R290, R304, R538), participants and their records (R294 to R303, R313 to R315), and the end of a
request (R299, R300, R306). -/
namespace Sys2Proof.Machine

/-! ## The graze block (R279, R280) -/

/-- Reads the fixed part of a graze block (R279). -/
def parseGraze (b : List Byte) : Graze :=
  let tokens := fieldAt b 0 1
  { tokens := tokens, format := fieldAt b 1 1, heads := fieldAt b 2 1, mode := fieldAt b 3 1
    scale := BitVec.ofNat 32 (fieldAt b 4 4), anchor := toSigned 16 (fieldAt b 8 2), anchorForm := fieldAt b 10 1
    modSlot := fieldAt b 11 1, rotation := fieldAt b 12 1, rotDims := fieldAt b 14 2
    absorb := BitVec.ofNat 64 (fieldAt b 16 8), target := BitVec.ofNat 64 (fieldAt b 24 8)
    key := BitVec.ofNat 32 (fieldAt b 32 4), resultLen := fieldAt b 36 4, cairnK := fieldAt b 40 2
    cairnSink := fieldAt b 42 1, cairnWeight := BitVec.ofNat 32 (fieldAt b 44 4)
    qpos := (List.range tokens).map fun t => fieldAt b (48 + 4 * t) 4
    qseg := (List.range tokens).map fun t => fieldAt b (112 + 2 * t) 2
    anchors := [], rotationBlock := [], query := [] }

/-- Rows of a request (R280). -/
def Graze.rowCount (g : Graze) (l : Layout) : Nat := l.kvHeads * g.tokens * g.heads

/-- Elements rotated at the end of a query head (R194). -/
def Graze.rd (g : Graze) (l : Layout) : Nat := if g.rotation = 0 then 0 else if l.latent then l.ropeDims else g.rotDims

/-- Step 1 of R744: the fixed part apart from QUERY_FORMAT (R281). -/
def fixedOk (b : List Byte) (g : Graze) (l : Layout) (layer : Nat) (exact cairn : Bool) : Bool :=
  1 ≤ g.tokens && g.tokens ≤ 16 && 1 ≤ g.heads && g.heads ≤ 128 && g.mode ≤ 5 && g.anchorForm ≤ 1 && g.modSlot ≤ 63 &&
  g.rotation ≤ 2 && zeroAt b 13 1 && zeroAt b 43 1 && zeroAt b (48 + 4 * g.tokens) (64 - 4 * g.tokens) &&
  zeroAt b (112 + 2 * g.tokens) (32 - 2 * g.tokens) && (g.rotation != 0 || g.rotDims == 0) && decide (layer < l.layers) &&
  (g.rotation == 0 ||
    (if l.latent then g.rotDims == 0 && l.ropeDims % 2 == 0 && l.ropeDims != 0
     else g.rotDims % 2 == 0 && g.rotDims != 0 && decide (g.rotDims ≤ l.headDim))) &&
  (!exact || (g.anchorForm == 0 && g.anchor == 0)) &&
  (cairn || (g.cairnK == 0 && g.cairnSink == 0 && g.cairnWeight == 0))

/-- Step 1 of R744 for ATTN_CAIRN (R308). -/
def cairnRefusal (g : Graze) (l : Layout) : Option Ans :=
  if !l.cairn then some (Ans.param Reason.cairnLayout)
  else if 1 ≤ g.cairnK && g.cairnK ≤ 4096 && g.cairnSink ≤ 64 && fp32Finite g.cairnWeight.toNat &&
    g.cairnWeight.toNat ≤ 0x80000000 then none
  else some (Ans.param Reason.cairnParam)

/-- A zero-padded item of n bytes at an offset: its padding is zero (R280). -/
def padOk (b : List Byte) (off n : Nat) : Bool := zeroAt b (off + n) (roundUp n 16 - n)

/-- Reads the variable part for a row length in elements; none where the length or a padding byte breaks R281. -/
def parseVariable (b : List Byte) (g : Graze) (l : Layout) (rowElements : Nat) : Option Graze :=
  let rows := g.rowCount l
  let na := if g.anchorForm = 1 then 2 * rows else 0
  let nr := g.tokens * (g.rd l / 2) * 8
  let nq := rows * rowBytes g.format rowElements
  let oa := 144
  let orot := oa + roundUp na 16
  let oq := orot + roundUp nr 16
  if b.length = oq + roundUp nq 16 && padOk b oa na && padOk b orot nr && padOk b oq nq then
    some { g with
      anchors := if g.anchorForm = 1 then (List.range rows).map fun r => toSigned 16 (fieldAt b (oa + 2 * r) 2)
        else List.replicate rows g.anchor
      rotationBlock := slice b orot nr
      query := slice b oq nq }
  else none

/-! ## Absorb regions (R127, R128, R195, R196, R538) -/

/-- The directory entry of byte k of a version's content, and the offset in its frame: raw content in whole frames. -/
def State.versionBytes (s : State) (v : Version) (off n : Nat) : List Byte :=
  ((List.range ((off + n + 65535) / 65536 - off / 65536)).map fun k =>
    let fr := off / 65536 + k
    let lo := max off (fr * 65536)
    let hi := min (off + n) ((fr + 1) * 65536)
    match (v.frames[fr]?).bind s.page with
    | none => zeros (hi - lo)
    | some p => s.readFrame p.tier p.frame (lo - fr * 65536) (hi - lo)).flatten

/-- Step 6 of R744: the absorb region a request names (R196, R538). -/
def State.absorbRefusal (s : State) (g : Graze) (l : Layout) (layoutIdx : Nat) : Option Ans :=
  if g.absorb = 0 then none else
  match Table.get s.regions.versions g.absorb.toNat with
  | none => some (Ans.param (if (s.region g.absorb).isSome then Reason.absorbMismatch else Reason.regionUnknown))
  | some v =>
    let h := s.versionBytes v 0 64
    if v.state = .poisoned then some { status := Status.poisoned, reason := Reason.pagePoisoned }
    else if v.state = .loading then some (Ans.param Reason.regionUnknown)
    else if v.content = 1 && l.latent && fieldAt h 0 1 == layoutIdx && fieldAt h 2 2 == l.kvHeads * g.heads && g.format == 0
    then none else some (Ans.param Reason.absorbMismatch)

/-- Whether the length of a request's rows is known: of an absorb region that the node does not hold, or that is none, QUERY_DIM is not
(R280; log entry 90). -/
def State.rowsKnown (s : State) (g : Graze) (l : Layout) : Bool :=
  g.absorb = 0 || (l.latent && (Table.get s.regions.versions g.absorb.toNat).any fun v => v.content == 1)

/-- Elements of one arriving row: with an absorb region QUERY_DIM and the rope elements; with a region that is unknown or no absorb region,
whose row length the manual does not give, those of the layout's keys (R280; DESIGN CHOICE, log entry 90). -/
def State.rowElements (s : State) (g : Graze) (l : Layout) : Nat :=
  match (if g.absorb = 0 then none else Table.get s.regions.versions g.absorb.toNat) with
  | none => l.keyLen
  | some v => if l.latent && v.content == 1 then fieldAt (s.versionBytes v 0 64) 4 2 + l.ropeDims else l.keyLen

/-- Entry (d, j) of the matrix of a layer and query head (R128). -/
def State.absorbEntry (s : State) (v : Version) (l : Layout) (layer head d j : Nat) : Dy :=
  let h := s.versionBytes v 0 64
  let fmt := fieldAt h 1 1
  let heads := fieldAt h 2 2
  let qd := fieldAt h 4 2
  let w := if fmt = 0 then 2 else 1
  let off := 64 + (((layer * heads + head) * qd + d) * l.latentRank + j) * w
  match thawField fmt 1 (s.versionBytes v off w) with
  | some x :: _ => x
  | _ => ⟨0, 0⟩

/-- An absorb descriptor: one frame of an absorb region, with the layer and the query heads whose matrices it holds (R30). -/
structure AbsorbDescriptor where
  pid : Nat
  tier : Tier
  frame : Nat
  frameGen : Nat
  layer : Nat
  heads : List Nat
  /-- the bytes of the frame that hold those matrices -/
  first : Nat
  length : Nat
deriving DecidableEq, Repr

/-- The absorb descriptors of a request or pass: the frames that hold a layer's matrices, in order (R30, R128). -/
def State.absorbDescriptors (s : State) (v : Version) (l : Layout) (layer : Nat) : List AbsorbDescriptor :=
  let h := s.versionBytes v 0 64
  let heads := fieldAt h 2 2
  let size := fieldAt h 4 2 * l.latentRank * (if fieldAt h 1 1 = 0 then 2 else 1)
  let lo := 64 + layer * heads * size
  let hi := lo + heads * size
  (List.range ((hi + 65535) / 65536 - lo / 65536)).filterMap fun k =>
    let at_ := (lo / 65536 + k) * 65536
    (v.frames[lo / 65536 + k]?).bind fun pid => (s.page pid).map fun p =>
      { pid := pid, tier := p.tier, frame := p.frame, frameGen := s.frameGen p.tier p.frame, layer := layer
        heads := (List.range heads).filter fun n => decide (lo + n * size < at_ + 65536) && decide (at_ < lo + (n + 1) * size)
        first := max lo at_ - at_, length := min hi (at_ + 65536) - max lo at_ }

/-- A tile reads the frame of an absorb descriptor in place through a thaw unit, which expands the region's FORMAT (R30, R126). -/
def State.readAbsorb (s : State) (fmt : Nat) (d : AbsorbDescriptor) : Bool × State :=
  s.readThaw d.tier d.frame fun s =>
    (thawField fmt (if fmt = 0 then d.length / 2 else d.length) (s.readFrame d.tier d.frame d.first d.length)).all (·.isSome)

/-- The absorb descriptors of a request or pass are worked: the pages that could not be read, which are repaired or poisoned (R30, R126,
R174 to R177). -/
def State.thawAbsorb (s : State) (g : Graze) (l : Layout) (layer : Nat) : List Nat × State :=
  match (if g.absorb = 0 then none else Table.get s.regions.versions g.absorb.toNat) with
  | none => ([], s)
  | some v => (s.absorbDescriptors v l layer).foldl (fun (acc : List Nat × State) d =>
      match acc.2.readAbsorb (fieldAt (s.versionBytes v 0 64) 1 1) d with
      | (true, s) => (acc.1, s)
      | (false, s) => (acc.1 ++ [d.pid], s.repairOrPoison d.pid)) ([], s)

/-! ## Staging (R193 to R196) -/

/-- Pairs (cos, sin) of a query token (R194). -/
def rotationPairs (block : List Byte) (rd t : Nat) : List (Nat × Nat) :=
  (List.range (rd / 2)).map fun i => (fp32At block (4 * rd * t + 8 * i), fp32At block (4 * rd * t + 8 * i + 4))

/-- Whether a rotation block is finite (R194). -/
def rotationFinite (block : List Byte) : Bool := (chunks 4 block).all fun w => fp32Finite (leNat w)

/-- The staged rows of a request, or none for QUERY_NONFINITE (R193 to R196). Row r is of KV head r / (tokens * H), query
token (r / H) mod tokens and head r mod H in it (R237). -/
def State.stageRows (s : State) (g : Graze) (l : Layout) (layer : Nat) : Option (List (List Byte)) :=
  let len := s.rowElements g l
  let size := rowBytes g.format len
  let rd := g.rd l
  let version := if g.absorb = 0 then none else Table.get s.regions.versions g.absorb.toNat
  if !rotationFinite g.rotationBlock then none else
  allSome ((List.range (g.rowCount l)).map fun r =>
    let row := slice g.query (r * size) size
    let t := r / g.heads % g.tokens
    let head := r / (g.tokens * g.heads) * g.heads + r % g.heads
    let rotated := if g.rotation = 0 then (rowElems g.format len row).map fun _ => row
      else rotateRow g.format len rd (g.rotation == 2) (rotationPairs g.rotationBlock rd t) row
    match rotated, version with
    | some x, some v => absorbRow (len - l.ropeDims) l.latentRank l.ropeDims (fun d j => s.absorbEntry v l layer head d j) x
    | x, _ => x)

/-! ## The checks of R744 -/

/-- Worst-case FIRN size F, and the least RESULT_LEN of a mode (R283). -/
def worstFirn (rows ev : Nat) : Nat := 64 + roundUp rows 16 + roundUp (2 * rows) 16 + 16 * rows + 16 * rows * ev
def worstResult (mode rows ev : Nat) : Nat :=
  match mode with
  | 0 => 64 + roundUp rows 16 + 2 * rows * ev
  | 1 => 64 + roundUp rows 16 + 4 * rows * ev
  | 2 => worstFirn rows ev
  | 5 => 64 + roundUp rows 16 + rows * (8 + 4 * ev)
  | _ => 0

/-- Slot size under HOST mode (R284). -/
def hostSlot (len : Nat) : Nat := len / 16 / 64 * 64

/-- Step 8 of R744 (R283). -/
def Graze.spaceOk (g : Graze) (l : Layout) : Bool :=
  let rows := g.rowCount l
  match g.mode with
  | 3 => g.resultLen == 0
  | 4 => decide (hostSlot g.resultLen ≥ worstFirn rows l.valueLen)
  | m => decide (g.resultLen ≥ worstResult m rows l.valueLen)

/-- The modifier slot of a request: slot 0 is the empty program (R214). R215 gives a tag to a loaded record alone: the empty program's
is 0 in records and sub-requests (DESIGN CHOICE, log entry 83). -/
def State.modifier (s : State) (slot : Nat) : Option Modifier :=
  if slot = 0 then some {} else Table.get s.attn.modifiers slot

/-- Steps 1 to 8 of R744: the refusal, or the graze block read. `tag` is the tag a forward carries. -/
def State.checkGraze (s : State) (b : List Byte) (layoutIdx : Nat) (l : Layout) (layer : Nat) (exact cairn : Bool)
    (tag : Option W64) : Except Ans Graze :=
  let g := parseGraze b
  if b.length < 144 || !fixedOk b g l layer exact cairn then .error (Ans.param Reason.grazeParam) else
  match (if cairn then cairnRefusal g l else none) with
  | some a => .error a
  | none =>
    if !queryFormatOk g.format (s.rowElements g l) || (g.rotation != 0 && g.format == 7) then .error (Ans.param Reason.queryFormat)
    else match (if s.rowsKnown g l then parseVariable b g l (s.rowElements g l) else some g) with
      | none => .error (Ans.param Reason.grazeParam)
      | some g =>
        if g.scale = 0 || fp32Neg g.scale.toNat || !fp32Finite g.scale.toNat then .error (Ans.param Reason.scoreScale) else
        match s.modifier g.modSlot with
        | none => .error (Ans.param Reason.modifierSlot)
        | some m =>
          if m.usesVector && l.kvHeads * g.heads > 256 then .error (Ans.param Reason.modifierHeads)
          else if tag.isSome && tag != some m.tag then .error (Ans.state Reason.modifierMismatch)
          else match s.absorbRefusal g l layoutIdx with
            | some a => .error a
            | none =>
              if l.kvHeads * (rowGroups g.format l.keyLen l.valueLen (g.tokens * g.heads)).length > 64 then
                .error (Ans.param Reason.queryTooLarge)
              else if !g.spaceOk l then .error (Ans.param Reason.resultSpace)
              else .ok g

/-! ## The gate pass (R285 to R289, R304, R538) -/

/-- Participants of a request: the home, then the outlying nodes whose extents hold positions below the snapshot (R252). -/
def State.participantsOf (s : State) (c : Conv) (l : Layout) (snapshot : Nat) : List Participant :=
  { node := s.nodeId, first := 0, last := ceilDiv snapshot l.tokens } ::
  ((c.extents.filter fun e => decide (e.first * l.tokens < snapshot)).map fun e =>
    { node := e.node, first := e.first, last := min e.last (ceilDiv snapshot l.tokens), forwardedAt := s.now })

/-- A request takes references on its pages below the snapshot: those of its layer outside every outlying extent (R56). -/
def State.holdPages (s : State) (ctx : Nat) (c : Conv) (l : Layout) (layer snapshot first last : Nat) (away : List Extent) : State :=
  (c.pages.filter fun p =>
    p.1.layer == layer && decide (p.1.index * l.tokens < snapshot) && decide (first ≤ p.1.index) && decide (p.1.index < last) &&
    !(away.any fun e => decide (e.first ≤ p.1.index) && decide (p.1.index < e.last))).foldl
    (fun s p => s.modPage p.2 fun g => { g with users := addOnce g.users ctx }) s

/-- Pages of a request. -/
def State.heldPages (s : State) (ctx : Nat) : List Nat := (s.tiers.pages.filter fun p => p.2.users.contains ctx).map (·.1)

/-- The forward block of a participant, then what follows it (R287). SUBSCRIBER of a request that came on the management lane is 1, which
the manual does not give (DESIGN CHOICE, log entry 94). The landing slot is numbered by the request and the
participant (log entry 21). -/
def State.forwardBlock (s : State) (ctx : Nat) (r : Req) (k : Nat) (p : Participant) (pass : Nat) : List Byte :=
  le 2 s.nodeId ++ le 1 k ++ le 1 r.parts.length ++ le 4 r.snapshot ++ le 4 p.first ++ le 4 p.last ++ le 8 r.modTag.toNat ++
  le 1 pass ++ le 1 0 ++ le 2 ((16 * ctx + k) % 65536) ++ le 2 (r.subscriber % 4096) ++ le 2 0 ++
  le 8 (r.deadline + s.clk.ptp - s.now - s.regs.returnMarginNs) ++ zeros 24

/-- Pass codes of a forward (R287). -/
def Pass.code : Pass → Nat
  | .sum => 0
  | .scoreOnly => 1
  | .cairnScore => 2
  | .continued => 3

/-- Sends a participant a forward (R286, R288). -/
def State.sendForward (s : State) (ctx : Nat) (k pass : Nat) (rest : List Byte) : State :=
  match s.req ctx with
  | none => s
  | some r =>
    match r.parts[k]? with
    | none => s
    | some p =>
      s.sendCommand p.node 6
        { opcode := r.cmd.opcode, flags := 2, requestId := r.cmd.requestId, targetId := r.cmd.targetId, layer := r.cmd.layer }
        (s.forwardBlock ctx r k p pass ++ rest) (.forward ctx k)

/-- The empty sums of a request: a zero partial and a maximum of -infinity for every row (R202, R251). -/
def Req.emptySums (r : Req) (l : Layout) : Req :=
  let rows := r.graze.rowCount l
  { r with partials := List.replicate rows (Partial.zero l.valueLen), maxima := List.replicate rows (BitVec.ofNat 32 (fp32Inf + 0x80000000)) }

/-- Frames of a request's absorb region that cannot be read in place now. -/
def State.absorbAway (s : State) (g : Graze) : List Nat :=
  match (if g.absorb = 0 then none else Table.get s.regions.versions g.absorb.toNat) with
  | none => []
  | some v => v.frames.filter fun pid => ((s.page pid).map Page.away).getD false

/-- A request begins its work at this node: rows staged, stalls found, descriptors issued (R56, R178, R193, R290). An absorb region
is read in place, so its recalled frames are waited for first, and one that cannot be read is repaired (R30, R174). -/
def State.beginReq (s : State) (ctx : Nat) : State :=
  match s.req ctx with
  | none => s
  | some r =>
    let away := s.absorbAway r.graze
    if !away.isEmpty then s.stallReq ctx away else
    match s.layout r.layout with
    | none => s
    | some l =>
      let (bad, s) := s.thawAbsorb r.graze l r.layer
      if !bad.isEmpty then s.stallReq ctx bad else
      match s.stageRows r.graze l r.layer with
      | none => s.endReq ctx (Ans.param Reason.queryNonfinite)
      | some rows =>
        let s := s.modReq ctx fun r => { r with rows := rows }
        let s := s.stallReq ctx (s.heldPages ctx)
        if r.cairn then s.modReq ctx fun r => { r with outstanding := 0 } else s.issueReq ctx

/-- A page has become readable: the requests that waited for it alone go on (R178). -/
def State.resumeStalled (s : State) (pid : Nat) : State :=
  (s.attn.reqs.filter fun p => p.2.stalls.contains pid).foldl (fun s p =>
    let s := s.modReq p.1 fun r => { r with stalls := r.stalls.filter (· != pid) }
    if p.2.stalls.any (· != pid) then s
    else if p.2.rows.isEmpty then s.beginReq p.1
    else s.issueReq p.1) s

/-- Versions a request holds: those its conversation is attached to, and its absorb region (R538). -/
def requestVersions (c : Conv) (g : Graze) : List W64 := if g.absorb = 0 then c.attached else addOnce c.attached g.absorb

/-- The context of a request that passes the gate: its snapshot is the layer's COMMITTED count then (R57, R285). -/
def State.newReq (s : State) (c : Conv) (cid layer : Nat) (ctx : CmdCtx) (exact cairn : Bool) (g : Graze) (l : Layout) : Req :=
  let snapshot := c.committed.getD layer 0
  let parts := s.participantsOf c l snapshot
  let m := (s.modifier g.modSlot).getD {}
  { pool := c.pool, cmd := ctx, exact := exact, cairn := cairn, cid := cid, layer := layer, layout := c.layout
    snapshot := snapshot, graze := g, modTag := m.tag, modifier := m, anchors := g.anchors
    pass := if exact then .scoreOnly else if cairn then .cairnScore else .sum
    rowFormat := g.format, rowLen := l.keyLen, parts := parts, participants := parts.length
    trigger := if parts.length ≥ 2 then some { threshold := parts.length } else none, deadline := ctx.deadline
    versions := requestVersions c g, home := s.nodeId, subscriber := ctx.subscriber, pageEnd := 2 ^ 32
    minWidth := s.regs.minWidth, width := s.regs.width }

/-- Whether an item of a gate row is an attention request whose deadline has come. -/
def RowItem.overdue (it : RowItem) (now : Nat) : Bool :=
  match it with
  | .cmd c x => (x.opcode == 0x0301 || x.opcode == 0x0302 || x.opcode == 0x0304) && !c.hdr.forward && decide (x.deadline ≤ now)
  | .append _ => false

/-- The attention requests that wait at their gate rows end at their deadlines (R306). -/
def State.lateRequests (s : State) : State :=
  s.convs.foldl (fun s (c : Nat × Conv) =>
    (c.2.row.filter fun it => it.overdue s.now).foldl (fun s it =>
      match it with
      | .cmd _ x => (s.modConv c.1 fun y => { y with row := y.row.filter (· != it) }).finish x (Ans.miss Reason.deadlinePassed)
      | .append _ => s) s) s

/-- An attention request passes the gate: one whose deadline has come ends (R306), else the estimate is the last of its checks, before anything is sent or staged (R97, R285, R286,
R304, R744). -/
def State.attendAt (s : State) (cid : Nat) (cmd : Cmd) (ctx : CmdCtx) (exact cairn : Bool) : State :=
  if ctx.deadline ≤ s.now then s.finish ctx (Ans.miss Reason.deadlinePassed) else
  match s.homed cid with
  | .error a => s.finish ctx a
  | .ok c =>
    match s.guard c (fun st => openOrSealed st || st == .moving), s.layout c.layout with
    | some a, _ => s.finish ctx a
    | none, none => s.finish ctx (Ans.param Reason.grazeParam)
    | none, some l =>
      if cmd.hdr.deadlineUs = 1 then s.finish ctx (Ans.param Reason.deadlineShort) else
      if cmd.hdr.param0 ≠ 0 || cmd.hdr.param1 ≠ 0 then s.finish ctx (Ans.param Reason.hdrFormat) else
      let layer := cmd.hdr.layer.toNat
      match s.checkGraze cmd.payload c.layout l layer exact cairn none with
      | .error a => s.finish ctx a
      | .ok g =>
        let snapshot := c.committed.getD layer 0
        let parts := s.participantsOf c l snapshot
        if (s.attn.reqs.filter fun r => r.2.pool == c.pool).length ≥ Config.contextsPerPool then
          s.finish ctx (Ans.throttled Reason.contextFull 10)
        else if parts.length ≥ 2 && s.attn.triggersUsed ≥ Config.triggers then s.finish ctx (Ans.throttled Reason.triggerFull 10)
        else
          let id := s.attn.nextCtx
          let versions := requestVersions c g
          let r := s.newReq c cid layer ctx exact cairn g l
          let s := s.modAttn fun a =>
            { a with reqs := Table.set a.reqs id (r.emptySums l), nextCtx := id + 1
                     triggersUsed := a.triggersUsed + (if parts.length ≥ 2 then 1 else 0) }
          let s := versions.foldl (fun s h => s.useVersion id h.toNat) s
          let s := s.holdPages id c l layer snapshot 0 (2 ^ 32) c.extents
          let s := s.foresee id
          if (s.req id).isNone then s else
          let poisoned := versions.any fun h => ((Table.get s.regions.versions h.toNat).map fun v => v.state == .poisoned).getD false
          if poisoned then s.endReq id { status := Status.poisoned, reason := Reason.pagePoisoned } else
          let unreachable := parts.any fun p => p.node != s.nodeId && !s.peerUp p.node
          if unreachable then s.endReq id (Ans.miss Reason.participantLost) else
          let s := ((List.range parts.length).drop 1).foldl (fun s k => s.sendForward id k r.pass.code cmd.payload) s
          s.beginReq id

/-! ## Records of a request (R257 to R262) -/

/-- The record-level flags of R257 for a request's record. -/
def Req.flags (r : Req) (rows : List Partial) : Nat :=
  flagsOf rows + (if r.exact || r.graze.anchorForm = 1 then 4 else 0) + (if r.exact then 8 else 0)

/-- The header of a record over rows. -/
def State.rowsHdr (s : State) (r : Req) (l : Layout) (kind mask : Nat) (rows : List Partial) : FirnHdr :=
  { s.recordHdr r kind with
    flags := r.flags rows, mask := mask, rowCount := rows.length, ev := l.valueLen
    anchor := if r.exact || r.graze.anchorForm = 1 then 0 else r.graze.anchor }

/-- The anchors a FIRN record carries: the vector where anchors are per row (R258). -/
def Req.anchorVector (r : Req) : Option (List Int) := if r.exact || r.graze.anchorForm = 1 then some r.anchors else none

/-- The result record of a home mode (R264, R270, R282). -/
def State.resultRecord (s : State) (r : Req) (l : Layout) : List Byte :=
  match r.graze.mode with
  | 0 => (s.rowsHdr r l 2 r.mask r.combined).encode (normBody 2 r.combined) ++ normBody 2 r.combined
  | 1 => (s.rowsHdr r l 3 r.mask r.combined).encode (normBody 3 r.combined) ++ normBody 3 r.combined
  | 5 =>
    let body := compactBody (r.combined.map rowFlags) r.compact
    (s.rowsHdr r l 4 r.mask r.combined).encode body ++ body
  | _ => firnRecord (s.rowsHdr r l 1 r.mask r.combined) r.minWidth r.anchorVector r.combined

/-- The own record of a node for its own partials, as the mode asks: FIRN, or COMPACT (R268, R294). -/
def State.ownRecord (s : State) (r : Req) (l : Layout) : List Byte :=
  if r.graze.mode = 5 then
    let rows := (List.zip r.anchors r.partials).map fun x => compactRow x.1 x.2
    let body := compactBody (r.partials.map rowFlags) rows
    (s.rowsHdr r l 4 (2 ^ r.participant) r.partials).encode body ++ body
  else firnRecord (s.rowsHdr r l 1 (2 ^ r.participant) r.partials) r.minWidth r.anchorVector r.partials

/-- The SCORE_MAX record of a node (R202, R301). -/
def State.maxRecord (s : State) (r : Req) (l : Layout) : List Byte :=
  let h := { s.recordHdr r 5 with mask := 2 ^ r.participant, flags := 8, rowCount := r.maxima.length, ev := l.valueLen }
  h.encode (scoreMaxBody r.maxima) ++ scoreMaxBody r.maxima

end Sys2Proof.Machine
end

