-- ==== Sys2Proof/Machine/Region.lean ====
section
/-! DEFINITION. Regions: mutable regions and their keys (R431 to R433, R482 to R488, R513 to R518), publication (R434,
R435, R516, R522 to R530), attachments (R531 to R537), the prefix locator CAM (R436, R545 to R548), and spill targets
(R166, R437). -/
namespace Sys2Proof.Machine

/-- Region state codes (R514). -/
def RegionState.code : RegionState → Nat
  | .live => 0
  | .closing => 1
  | .loading => 2
  | .published => 3
  | .poisoned => 4

/-- REGION_STATE with the region's state code in PARAM0 (R514). -/
def regionStateAns (st : RegionState) : Ans := Ans.state Reason.regionState st.code

/-- POISONED with PAGE_POISONED (R177, R517). -/
def Ans.poisoned : Ans := { status := Status.poisoned, reason := Reason.pagePoisoned }

/-- Whether an ID is one that a requester may choose (R431). -/
def regionIdOk (id : W64) : Bool := id != 0 && decide (id.toNat < 2 ^ 63)

/-- The answer for a Region ID or handle that the node does not hold; 0 is no Region ID and no handle (R431). -/
def unknownId (id : W64) : Ans := Ans.param (if id = 0 then Reason.regionIdForm else Reason.regionUnknown)

/-- Whether an ID has the form of a handle (R431). -/
def isHandle (id : W64) : Bool := decide (id.toNat ≥ 2 ^ 63)

/-! ## REGION_CREATE (R433, R515, R745) -/

/-- The fields of a create block that R433 bounds. -/
def createOk (b : List Byte) : Bool :=
  let slots := fieldAt b 4 2
  let shift := fieldAt b 2 1
  let len := fieldAt b 8 8
  let qpn := fieldAt b 16 4
  b.length == 32 && zeroAt b 3 1 && zeroAt b 6 2 && zeroAt b 20 12 &&
  if fieldAt b 0 1 = 0 then
    fieldAt b 1 1 ≤ 1 && shift == 0 && slots == 0 && qpn == 0 && len % 65536 == 0 && 0 < len && len ≤ 2 ^ 36
  else
    fieldAt b 0 1 == 1 && fieldAt b 1 1 == 0 && 12 ≤ shift && shift ≤ 18 && 1 ≤ slots && slots ≤ 4096 &&
    len == slots * 2 ^ shift && 2 ≤ qpn && decide (qpn < Config.qps + 2)

/-- REGION_CREATE at its arbiter pass: the refusals of R745 in order, else the region. -/
def State.createRegion (s : State) (c : Cmd) (ctx : CmdCtx) : State :=
  let id := c.hdr.targetId
  let b := c.payload
  if !regionIdOk id then s.finish ctx (Ans.param Reason.regionIdForm)
  else if !createOk b then s.finish ctx (Ans.param Reason.regionParam)
  else match s.region id with
    | some r => s.finish ctx (regionStateAns r.state)
    | none =>
      if s.regions.regions.length ≥ 16384 then s.finish ctx (Ans.throttled Reason.regionTableFull 1000) else
      match s.pressure with
      | some (h, s) => s.finish ctx (Ans.throttled Reason.poolPressure h)
      | none =>
        let t := if fieldAt b 1 1 = 1 then Tier.warm else Tier.hot
        let len := fieldAt b 8 8
        let n := ceilDiv len 65536
        match s.allocFrames t (.region id) n with
        | none => s.finish ctx (Ans.throttled Reason.regionFrames (s.hint t (n - s.avail t)))
        | some (fs, s) =>
          let (base, s) := s.drawWord
          let r : Region :=
            { window := fieldAt b 0 1 == 1, tier := t, slotBytes := 2 ^ fieldAt b 2 1, slots := fieldAt b 4 2, length := len
              qp := fieldAt b 16 4 - 2, frames := fs, owner := ctx.subscriber, base := base }
          (s.modRegions fun x => { x with regions := Table.set x.regions id.toNat r }).finish ctx (Ans.ok)

/-! ## Keys (R482 to R488) -/

/-- Takes a free key index, which the manual does not name (log entry 4), for a region or a published version. -/
def State.takeKey (s : State) (region : W64) (write read : Bool) : Option (Nat × State) :=
  if s.regions.keys.length ≥ 65536 then none else
  let (k, s) := s.drawBelow (65536 - s.regions.keys.length)
  let i := nthFree s.regions.keys k
  some (i, s.modRegions fun r => { r with keys := Table.set r.keys i { region := region, write := write, read := read } })

/-- Why a region or version cannot be registered, else its base address: a published version may be read only. -/
def State.registerable (s : State) (id : W64) (write : Bool) : Except Ans W64 :=
  match s.region id, s.version id with
  | some r, _ =>
    match r.state with
    | .live => .ok r.base
    | .poisoned => .error Ans.poisoned
    | st => .error (regionStateAns st)
  | none, some v =>
    match v.state with
    | .published => if write then .error (regionStateAns .published) else .ok v.base
    | .poisoned => .error Ans.poisoned
    | st => .error (regionStateAns st)
  | none, none => .error (unknownId id)

/-- REGION_REGISTER at its arbiter pass (R482). -/
def State.registerRegion (s : State) (c : Cmd) (ctx : CmdCtx) : State :=
  s.noPayload c ctx fun s =>
    match s.registerable c.hdr.targetId (bit c.hdr.p0 0) with
    | .error a => s.finish ctx a
    | .ok base =>
      match s.takeKey c.hdr.targetId (bit c.hdr.p0 0) (bit c.hdr.p0 1) with
      | none => s.finish ctx (Ans.throttled Reason.keyTableFull 1000)
      | some (i, s) => s.finish ctx (Ans.ok (s.keyOf i) base.toNat)

/-- The QPs with an admitted message under a key index: a write in progress, or a READ not yet answered (R484, R486). -/
def State.admittedUnder (s : State) (i : Nat) : List Nat :=
  (s.net.qps.filter fun q => (q.2.admitted.bind (·.key)) == some i || q.2.readKeys.contains (s.keyOf i)).map (·.1)

/-- The revoke point of a key index (R485, R486): the index is free with its next generation, and the messages admitted
before it are waited for. -/
def State.revokeKey (s : State) (i : Nat) (ctx : Option CmdCtx) (region : W64) : State :=
  let waits := s.admittedUnder i
  let late := (Table.get s.regions.keys i).toList.map fun k => { number := s.keyOf i, entry := k, sequence := s.regions.revokeSeq + 1, cycle := s.clk.rime }
  (s.freeKey i).modRegions fun r =>
    { r with revokeSeq := r.revokeSeq + 1
             lateKeys := (r.lateKeys.filter fun x => x.cycle == s.clk.rime) ++ late
             revokes := Table.set r.revokes (r.revokeSeq + 1) { sequence := r.revokeSeq + 1, ctx := ctx, region := region, number := s.keyOf i, waits := waits } }

/-- Why no key of a region or version can be revoked: it does not exist, it is being destroyed, with its keys revoked, or it is a POISONED
region, which no command touches but the one that destroys it (R514, R517, R519). -/
def State.revokeRefusal (s : State) (id : W64) : Option Ans :=
  match s.region id, s.version id with
  | some r, _ => if r.state = .poisoned then some Ans.poisoned else if r.state = .closing then some (regionStateAns .closing) else none
  | none, some _ => none
  | none, none => some (unknownId id)

/-- REGION_REVOKE at its arbiter pass (R485 to R488). -/
def State.revokeRegion (s : State) (c : Cmd) (ctx : CmdCtx) : State :=
  s.noPayload c ctx fun s =>
    let id := c.hdr.targetId
    let i := c.hdr.p0 / 256
    match s.revokeRefusal id, Table.get s.regions.keys i with
    | some a, _ => s.finish ctx a
    | none, none => s.finish ctx (Ans.param Reason.keyUnknown)
    | none, some k =>
      if k.region != id || s.keyOf i != c.hdr.p0 then s.finish ctx (Ans.param Reason.keyUnknown)
      else s.revokeKey i (some ctx) id

/-- Frees a destroyed region once no revocation of its keys is under way, and answers its REGION_DETACH (R518). -/
def State.settleRegion (s : State) (id : W64) : State :=
  match s.region id with
  | none => s
  | some r =>
    if r.state != .closing || s.regions.revokes.any (fun v => v.2.region == id) then s else
    let s := r.frames.foldl (fun s f => s.freeFrame r.tier f) s
    let s := s.modRegions fun x => { x with regions := Table.erase x.regions id.toNat }
    match r.closer with
    | none => s
    | some ctx => s.finish ctx (Ans.ok)

/-- A revocation ends: its command, or the destruction it belongs to, is answered (R486, R518). -/
def State.endRevoke (s : State) (v : Revoke) : State :=
  let s := s.modRegions fun r => { r with revokes := Table.erase r.revokes v.sequence }
  let s := match v.ctx with
    | none => s
    | some ctx => s.finish ctx (Ans.ok v.sequence)
  s.settleRegion v.region

/-- REVOKE_COMPLETE: every message admitted before the revoke point has been placed, or has ended with its QP (R486). -/
def execRevokeComplete (sequence : Nat) (s : State) : Host.Outcome State Fault Refusal :=
  match Table.get s.regions.revokes sequence with
  | none => .next s
  | some v => .next (if v.waits.isEmpty then s.endRevoke v else s)

/-- REVOKE_DEADLINE: incomplete admitted messages are cut and their QPs enter ERR; the next packet of each is answered with a NAK; then the
revoke replies OK (R487). -/
def execRevokeDeadline (sequence : Nat) (s : State) : Host.Outcome State Fault Refusal :=
  match Table.get s.regions.revokes sequence with
  | none => .next s
  | some v =>
    match v.ctx with
    | none => .next s
    | some ctx =>
      if s.now < ctx.deadline then .next s else
      let s := v.waits.foldl (fun s q => ((s.modQp q fun x => { x with cut := true }).qpError q Reason.remoteAccess).bump Ctr.revokeCut) s
      .next (s.endRevoke { v with waits := [] })

/-! ## Reading a region's frames (R174, R517) -/

/-- A region with a frame that has no good copy is POISONED, unless it is being destroyed already (R514, R517, R518). -/
def State.poisonRegion (s : State) (id : W64) : State :=
  s.modRegion id fun r => if r.state = .closing then r else { r with state := .poisoned }

/-- Reads the words of the frames of a range: an unreadable read retires its frame and poisons the region (R174, R517). -/
def State.checkRegion (s : State) (id : W64) (r : Region) (off n : Nat) : Bool × State :=
  (List.range ((off + n + 65535) / 65536 - off / 65536)).foldl (fun (acc : Bool × State) k =>
    match r.frames[off / 65536 + k]? with
    | none => acc
    | some f =>
      match acc.2.checkFrame r.tier f with
      | (.good, s) => (acc.1, s)
      | (.poisoned, s) => (false, s.poisonRegion id)
      | (.unreadable, s) => (false, (s.retireFrame r.tier f).poisonRegion id)) (true, s)

/-! ## Content checks (R127 to R129, R528, R529, R671) -/

/-- The checks of R127 and R128 on an ABSORB content, which give ABSORB_FORMAT (R129). -/
def State.absorbOk (s : State) (b : List Byte) : Bool :=
  match (if 64 ≤ b.length then s.layout (fieldAt b 0 1) else none) with
  | none => false
  | some l =>
    let qh := fieldAt b 2 2
    let qd := fieldAt b 4 2
    fieldAt b 1 1 ≤ 1 && 1 ≤ qh && qh ≤ 128 && 1 ≤ qd && qd ≤ 256 && fieldAt b 6 2 == l.layers &&
    fieldAt b 8 2 == l.latentRank && zeroAt b 10 54 &&
    b.length == 64 + l.layers * qh * qd * l.latentRank * (if fieldAt b 1 1 = 0 then 2 else 1)

/-- Bytes of a PREFIX_PAGES header with its token identifiers (R528). -/
def prefixHead (tokens : Nat) : Nat := roundUp (64 + 4 * tokens) 65536

/-- The place of frame k of PREFIX_PAGES content (R528). -/
def prefixKey (l : Layout) (tokens k : Nat) : PageKey :=
  let per := ceilDiv tokens l.tokens
  { layer := k / (l.kvHeads * per), head := k / per % l.kvHeads, index := k % per }

/-- Whether a frame is the sealed page that a freeze unit would build in its place (R529). -/
def prefixFrameOk (l : Layout) (slot tokens : Nat) (k : PageKey) (frame : List Byte) : Bool :=
  let fill := min l.tokens (tokens - k.index * l.tokens)
  frame.length == Config.frameBytes &&
  sealFrame l 0 slot k.index k.layer k.head fill (fieldAt frame (Config.dataBytes + 28) 2) frame == frame

/-- The checks of R528 and R529 that give PREFIX_FORMAT. -/
def State.prefixOk (s : State) (b : List Byte) : Bool :=
  match (if 64 ≤ b.length then s.layout (fieldAt b 1 1) else none) with
  | none => false
  | some l =>
    let chunk := fieldAt b 2 2
    let tokens := fieldAt b 4 4
    let pages := l.layers * l.kvHeads * ceilDiv tokens l.tokens
    fieldAt b 0 1 == 1 && [16, 32, 64, 128].contains chunk && 1 ≤ tokens && tokens ≤ 1048576 &&
    fieldAt b 16 2 == l.layers && fieldAt b 18 2 == l.kvHeads && fieldAt b 20 4 == pages && zeroAt b 24 40 &&
    b.length == prefixHead tokens + 65536 * pages && zeroAt b (64 + 4 * tokens) (prefixHead tokens - 64 - 4 * tokens) &&
    (List.range pages).all fun k =>
      prefixFrameOk l (fieldAt b 1 1) tokens (prefixKey l tokens k) (slice b (prefixHead tokens + 65536 * k) 65536)

/-- The plaintext of wrapped content, or the refusal of R671. -/
def State.unwrapContent (s : State) (b : List Byte) : Except Ans (List Byte) :=
  let plain := fieldAt b 16 8
  match s.trust.tenant.bind fun t => (t.setKey.map fun k => (t.setId, k)) with
  | none => .error (Ans.state Reason.setKeyAbsent)
  | some (setId, key) =>
    if fieldAt b 8 8 != setId.toNat then .error (Ans.state Reason.setKeyAbsent)
    else if fieldAt b 0 1 != 1 || !zeroAt b 1 7 || !zeroAt b 36 12 || b.length != 64 + roundUp plain 64 ||
      !zeroAt b (64 + plain) (roundUp plain 64 - plain) then .error (Ans.denied Reason.unwrapFail)
    else match Config.gcmOpen key (slice b 24 12) (b.take 48) (slice b 64 plain) (slice b 48 16) with
      | none => .error (Ans.denied Reason.unwrapFail)
      | some p => .ok p

/-! ## Publication (R516, R522 to R527) -/

/-- The nodes that a version is twinned to: the partner that new pages are twinned to, and under G3 the TWIN2 (R516, R552). -/
def State.versionTwins (s : State) : List Nat := s.secondTwin.toList.foldl addOnce s.newTwin.toList

/-- The refusal of a publication at its arbiter pass: its block, its source, and the means of R601. -/
def State.publishRefusal (s : State) (c : Cmd) : Option (Ans × State) :=
  let b := c.payload
  let off := fieldAt b 8 8
  let len := fieldAt b 16 8
  if !regionIdOk c.hdr.targetId then some (Ans.param Reason.regionIdForm, s)
  else if b.length != 32 || !zeroAt b 26 6 || fieldAt b 24 1 > 2 || fieldAt b 25 1 > 1 || off % 64 != 0 || len < 64 ||
    len > 2 ^ 36 then some (Ans.param Reason.regionParam, s)
  else match s.region (BitVec.ofNat 64 (fieldAt b 0 8)) with
    | none =>
      match s.version (BitVec.ofNat 64 (fieldAt b 0 8)) with
      | some v => some (regionStateAns v.state, s)
      | none => some (unknownId (BitVec.ofNat 64 (fieldAt b 0 8)), s)
    | some r =>
      if r.state = .poisoned then some (Ans.poisoned, s)
      else if r.window || r.state != .live then some (regionStateAns r.state, s)
      else if off + len > r.length then some (Ans.param Reason.regionParam, s)
      else match s.pressure with
        | some (h, s) => some (Ans.throttled Reason.poolPressure h, s)
        | none =>
          let n := ceilDiv len 65536
          if n > s.allocatable .hot then some (Ans.throttled Reason.regionFrames (s.hint .hot (n - s.avail .hot)), s)
          else if s.versionTwins.any fun j => n > ((s.partner j).map (·.grantsFree.length)).getD 0 then
            some (Ans.throttled Reason.twinFull 1000, s)
          else none

/-- Takes n granted frames of each twin. -/
def State.takeGrants (s : State) (twins : List Nat) (n : Nat) : List (Nat × Nat) × State :=
  twins.foldl (fun (acc : List (Nat × Nat) × State) j =>
    (List.range n).foldl (fun (acc : List (Nat × Nat) × State) _ =>
      match acc.2.takeGrant j with
      | none => acc
      | some (f, s) => (acc.1 ++ [(j, f)], s)) acc) ([], s)

/-- A publication passes the arbiter of its NAME: its place in the NAME's order, its frames and twin frames, and its
content as it stands (R523, R601). -/
def State.beginPublish (s : State) (c : Cmd) (ctx : CmdCtx) : State :=
  match s.publishRefusal c with
  | some (a, s) => s.finish ctx a
  | none =>
    let b := c.payload
    let len := fieldAt b 16 8
    let src := BitVec.ofNat 64 (fieldAt b 0 8)
    let (good, s) := match s.region src with
      | some r => s.checkRegion src r (fieldAt b 8 8) len
      | none => (true, s)
    if !good then s.finish ctx Ans.poisoned else
    match s.region src, s.allocFrames .hot (.region c.hdr.targetId) (ceilDiv len 65536) with
    | some r, some (fs, s) =>
      let (grants, s) := s.takeGrants s.versionTwins fs.length
      let p : Publication :=
        { ctx := ctx, name := c.hdr.targetId, content := fieldAt b 24 1, wrapped := fieldAt b 25 1 == 1
          bytes := s.readRegion r (fieldAt b 8 8) len, frames := fs, grants := grants }
      s.modRegions fun x => { x with pubs := Table.set x.pubs x.nextPub p, nextPub := x.nextPub + 1 }
    | _, _ => s

/-- The instant at which a subscriber attachment taken now expires (R532). -/
def State.leaseEnd (s : State) : Nat := s.now + 1000000 * s.regs.attachLeaseMs

/-- Gives a subscriber an attachment, or renews it (R526, R531). -/
def State.attachSubscriber (s : State) (h : W64) (sub : Nat) : State :=
  s.modVersion h.toNat fun v => { v with subscribers := Table.set v.subscribers sub s.leaseEnd }

/-- Attachment count of a version (R531). -/
def Version.count (v : Version) : Nat := v.conversations.length + v.subscribers.length

/-- A publication leaves the list; the frames and twin frames that it still holds are freed (R524, R525). -/
def State.dropPublication (s : State) (k : Nat) : State :=
  match Table.get s.regions.pubs k with
  | none => s
  | some p =>
    let s := p.frames.foldl (fun s f => s.freeFrame .hot f) s
    let s := p.grants.foldl (fun s g => s.returnGrant g.1 g.2) s
    s.modRegions fun r => { r with pubs := Table.erase r.pubs k }

/-- Ends a publication with its one reply. -/
def State.endPublication (s : State) (k : Nat) (a : Ans) : State :=
  match Table.get s.regions.pubs k with
  | none => s
  | some p => (s.dropPublication k).finish p.ctx a

/-- Enters the frames of a new version in the directory (R516): whole frames of content, those of PREFIX_PAGES pages
with their place. A published page gives its SAT_COUNT and no row's: how many of its saturated elements each row has is a free
value (log entry 86). -/
def State.enterVersion (s : State) (h : W64) (p : Publication) (l : Layout) (slot tokens head : Nat) (twins : List Nat) :
    List Nat × State :=
  let n := ceilDiv p.bytes.length 65536
  (List.range n).foldl (fun (acc : List Nat × State) k =>
    let s := acc.2
    let f := p.frames.getD k 0
    let isPage := p.content == 2 && decide (k ≥ head)
    let key := if isPage then prefixKey l tokens (k - head) else { layer := 0, head := 0, index := k }
    let bytes := slice p.bytes (65536 * k) 65536
    let grant := fun (i : Nat) => (p.grants.drop (p.frames.length * i + k)).head?
    let fill := if isPage then min l.tokens (tokens - key.index * l.tokens) else 0
    let (sats, s) := if isPage then s.spreadSats l fill (fieldAt bytes (Config.dataBytes + 28) 2) else ([], s)
    let pid := s.tiers.nextPage
    let g : Page :=
      { cid := 0, layout := slot, key := key, tier := .hot, frame := f, touch := s.ageTick, isSealed := true, version := some h
        fill := fill, sats := sats
        twinNode := if twins.length ≥ 1 then (grant 0).map (·.1) else none, twinFrame := ((grant 0).map (·.2)).getD 0
        twin2Node := if twins.length ≥ 2 then (grant 1).map (·.1) else none, twin2Frame := ((grant 1).map (·.2)).getD 0 }
    let s := (s.useFrame .hot f (.page pid)).writeFrame .hot f 0 bytes
    let s := s.modTiers fun t => { t with pages := Table.set t.pages pid g, nextPage := pid + 1 }
    (acc.1 ++ [pid], s)) ([], s)

/-- Sends the frames of a version to one twin: how many writes, and the state after (R516). -/
def State.twinVersion (s : State) (k : Nat) (pids : List Nat) (second : Bool) : Nat × State :=
  pids.foldl (fun (acc : Nat × State) pid =>
    match acc.2.page pid with
    | none => acc
    | some g =>
      match (if second then g.twin2Node else g.twinNode) with
      | none => acc
      | some j =>
        let f := if second then g.twin2Frame else g.twinFrame
        (acc.1 + 1, acc.2.twinWrite j 1 f [(0, acc.2.readFrame g.tier g.frame 0 Config.frameBytes)] (.publish k))) (0, s)

/-- Whether binding a NAME anew would exceed the 4,096 bound NAMEs (R513). -/
def State.namesFull (s : State) (name : W64) : Bool :=
  (Table.get s.regions.names name.toNat).isNone && decide (s.regions.names.length ≥ 4096)

/-- The reply of a publication that a limit of R513 stops. Whether it would exceed one is known where it is decided (R524; log entry
91). -/
def tableFullAns : Ans := Ans.throttled Reason.regionTableFull 1000

/-- Tells the twins of a version the frames of their grants that hold its content, in order, and a NAME of it: a KIND 3 write at 4 times
2^48 (R516, R575; log entry 14). -/
def State.tellVersion (s : State) (h name : W64) : State :=
  match s.version h with
  | none => s
  | some v =>
    let pages := v.frames.filterMap s.page
    let nodes := pages.foldl (fun acc p => p.twin2Node.toList.foldl addOnce (p.twinNode.toList.foldl addOnce acc)) []
    nodes.foldl (fun s j =>
      let frames := pages.map fun p => if p.twinNode = some j then p.twinFrame else p.twin2Frame
      s.post (s.nodeQp j) 4 [.write (BitVec.ofNat 64 (4 * 2 ^ 48)) 0
        (le 8 h.toNat ++ le 8 v.content ++ le 8 v.length ++ le 8 name.toNat ++ (frames.map (le 4)).flatten) (some (twinImm 3 0))]) s

/-- A decided publication makes a new version, in LOADING, and its twins are sent its frames (R523, R524), unless the node holds all
the versions or NAMEs that it may (R513). -/
def State.newVersion (s : State) (k : Nat) (p : Publication) (h : W64) : State :=
  if s.regions.versions.length ≥ 4096 || s.namesFull p.name then s.endPublication k tableFullAns else
  let twins := (p.grants.map (·.1)).foldl addOnce []
  let b := p.bytes
  let tokens := if p.content = 2 then fieldAt b 4 4 else 0
  let slot := if p.content = 2 then fieldAt b 1 1 else if p.content = 1 then fieldAt b 0 1 else 0
  let l := (s.layout slot).getD (Layout.decode [])
  let head := if p.content = 2 then prefixHead tokens / 65536 else 0
  let (base, s) := s.drawWord
  let (pids, s) := s.enterVersion h p l slot tokens head twins
  let used := ceilDiv b.length 65536
  let s := (p.frames.drop used).foldl (fun s f => s.freeFrame .hot f) s
  let spare := (List.range twins.length).flatMap fun i => (p.grants.drop (p.frames.length * i + used)).take (p.frames.length - used)
  let s := spare.foldl (fun s g => s.returnGrant g.1 g.2) s
  let v : Version :=
    { digest := sha b, content := p.content, length := b.length, frames := pids, pages := if p.content = 2 then pids.drop head else []
      layout := slot, tokens := tokens, chunk := if p.content = 2 then fieldAt b 2 2 else 0
      modelId := if p.content = 2 then BitVec.ofNat 64 (fieldAt b 8 8) else 0
      tokenIds := if p.content = 2 then slice b 64 (4 * tokens) else [], base := base }
  let s := s.modRegions fun r =>
    { r with versions := Table.set r.versions h.toNat v, names := Table.set r.names p.name.toNat h.toNat
             pubs := Table.set r.pubs k { p with handle := some h, frames := [], grants := [] } }
  let s := s.tellVersion h p.name
  let (n1, s) := s.twinVersion k pids false
  let (n2, s) := s.twinVersion k pids true
  s.modVersion h.toNat fun v => { v with unackedTwin := n1 + n2 }

/-- The handle of a digest (R431). -/
def handleOf (digest : List Byte) : W64 := BitVec.ofNat 64 (2 ^ 63 + fieldAt digest 0 8 % 2 ^ 63)

/-- A held version answers a publication of the same digest: OK, with an attachment for the publisher (R524, R526). -/
def State.publishHeld (s : State) (k : Nat) (p : Publication) (h : W64) (v : Version) : State :=
  if v.content != p.content then s.endPublication k (regionStateAns v.state)
  else if v.state = .poisoned then s.endPublication k Ans.poisoned
  else if s.namesFull p.name then s.endPublication k tableFullAns
  else
    let s := (s.modRegions fun r => { r with names := Table.set r.names p.name.toNat h.toNat }).tellVersion h p.name
    (s.attachSubscriber h p.ctx.subscriber).endPublication k (Ans.ok h.toNat (fieldAt v.digest 0 8))

/-- Decides a publication (R524). -/
def State.decidePublication (s : State) (k : Nat) (p : Publication) : State :=
  let d := sha p.bytes
  let h := handleOf d
  match (Table.get s.regions.names p.name.toNat).bind fun x => (Table.get s.regions.versions x).map fun v => (x, v) with
  | some (x, v) =>
    if v.digest = d then (if v.content = p.content then s.bump Ctr.publishDedup else s).publishHeld k p (BitVec.ofNat 64 x) v
    else s.endPublication k
      { status := Status.versionConflict, reason := Reason.publishConflict, p0 := x, p1 := fieldAt v.digest 0 8 }
  | none =>
    match s.version h with
    | none => s.newVersion k p h
    | some v =>
      if v.digest = d then s.publishHeld k p h v else s.endPublication k (Ans.state Reason.handleCollision)

/-- Decides, in pass order, the publications of a NAME whose copy has ended and before which none is open (R523). -/
def State.decideNext (s : State) (name : W64) (fuel : Nat) : State :=
  match fuel with
  | 0 => s
  | fuel + 1 =>
    match s.regions.pubs.find? fun p => p.2.name == name with
    | none => s
    | some (k, p) => if p.copied && p.handle.isNone then State.decideNext (s.decidePublication k p) name fuel else s

/-- PUBLISH_COPY_DONE: the copy, unwrapping and content checks end; the publication is decided when its turn has come
(R523 to R525). -/
def State.copyDone (s : State) (k : Nat) : State :=
  match Table.get s.regions.pubs k with
  | none => s
  | some p =>
    if p.copied then s else
    match (if p.wrapped then s.unwrapContent p.bytes else .ok p.bytes) with
    | .error a => (s.endPublication k a).decideNext p.name s.regions.pubs.length
    | .ok b =>
      if p.content = 1 && !s.absorbOk b then (s.endPublication k (Ans.param Reason.absorbFormat)).decideNext p.name s.regions.pubs.length
      else if p.content = 2 && !s.prefixOk b then (s.endPublication k (Ans.param Reason.prefixFormat)).decideNext p.name s.regions.pubs.length
      else (s.modRegions fun r => { r with pubs := Table.set r.pubs k { p with bytes := b, copied := true } }).decideNext p.name
        s.regions.pubs.length

/-- PUBLISH_COPY_DONE. -/
def execPublishCopyDone (publication : Nat) (s : State) : Host.Outcome State Fault Refusal := .next (s.copyDone publication)

/-! ## The CAM (R545 to R548, R550) -/

/-- Width of a bank in units; 0 for the undefined code (R550). -/
def State.camUnits (s : State) (bank : Nat) : Nat :=
  match bits s.regs.camCtl.toNat (2 * bank + 1) (2 * bank) with
  | 0 => 1
  | 1 => 2
  | 2 => 4
  | _ => 0

/-- Entries that a bank can hold: 65,536 units a bank, as CAM_FREE's reset value implies (R550; log entry 22). -/
def State.camRoom (s : State) (bank : Nat) : Nat := if s.camUnits bank = 0 then 0 else 65536 / s.camUnits bank

/-- Free entries of a bank. -/
def State.camFree (s : State) (bank : Nat) : Nat :=
  s.camRoom bank - (s.regions.versions.filter fun v => v.2.cam == some bank).length

/-- The key chain H[0] to H[n] of token identifiers (R545). -/
def keyChain (model : W64) (chunk : Nat) (toks : List Byte) (n : Nat) : List (List Byte) :=
  (List.range n).foldl (fun (acc : List (List Byte)) k =>
    acc ++ [sha ((acc.getLast?.getD []) ++ le 2 chunk ++ slice toks (4 * chunk * k) (4 * chunk))]) [sha (le 8 model.toNat)]

/-- The CAM key of a version (R546). -/
def Version.camKey (v : Version) : List Byte :=
  (keyChain v.modelId v.chunk v.tokenIds (v.tokens / v.chunk)).getLast?.getD []

/-- Indexes a version (R546). -/
def State.camInsert (s : State) (h : W64) : State :=
  match s.version h with
  | none => s
  | some v =>
    if v.content != 2 || v.modelId == 0 || v.tokens % v.chunk != 0 then s else
    let best := (List.range 8).foldl (fun (b : Nat × Nat) n => if s.camFree n > b.2 then (n, s.camFree n) else b) (0, 0)
    if best.2 = 0 then s.bump Ctr.camFullSkip
    else s.modVersion h.toNat fun v => { v with cam := some best.1 }

/-- The versions whose entries match a key, by bank (R546, R547). -/
def State.camHits (s : State) (key : List Byte) : List (W64 × Version) :=
  (List.range 8).flatMap fun b =>
    (s.regions.versions.filter fun v => v.2.cam == some b && v.2.camKey.take (8 * s.camUnits b) == key.take (8 * s.camUnits b)).map
      fun v => (BitVec.ofNat 64 v.1, v.2)

/-- Verifies hits in turn: the first verified one, and the state after with the failures counted (R547). -/
def State.verifyHits (s : State) (model : W64) (chunk : Nat) (toks : List Byte) (k : Nat) (hits : List (W64 × Version)) :
    Option W64 × State :=
  match hits with
  | [] => (none, s)
  | (h, v) :: rest =>
    let (read, s) := s.sramRead Blk.cam 0 k
    let (inj, s) := s.injected Blk.cam 1
    if read && inj.isNone && v.state == .published && v.modelId == model && v.chunk == chunk &&
      v.tokenIds == toks.take (4 * chunk * k) then (some h, s)
    else State.verifyHits (s.bump Ctr.camFalseHit) model chunk toks k rest

/-- Searches from the longest run downward (R547). -/
def State.lookupFrom (s : State) (model : W64) (chunk : Nat) (toks : List Byte) (chain : List (List Byte)) (k : Nat) :
    Option (W64 × Nat) × State :=
  match k with
  | 0 => (none, s)
  | k + 1 =>
    match s.verifyHits model chunk toks (k + 1) (s.camHits (chain.getD (k + 1) [])) with
    | (some h, s) => (some (h, k + 1), s)
    | (none, s) => State.lookupFrom s model chunk toks chain k

/-- PREFIX_LOOKUP (R436, R547). -/
def execPrefixLookup (c : Cmd) (s : State) : Host.Outcome State Fault Refusal :=
  .next (s.onArrive 0x040B c fun c ctx s =>
    let b := c.payload
    let chunk := fieldAt b 0 2
    let n := fieldAt b 2 2
    if b.length < 8 || !([16, 32, 64, 128] : List Nat).contains chunk || n < 1 || n > 4096 || !zeroAt b 4 4 ||
      b.length != 8 + 4 * n * chunk then s.finish ctx (Ans.param Reason.prefixParam)
    else
      let toks := b.drop 8
      match s.lookupFrom c.hdr.targetId chunk toks (keyChain c.hdr.targetId chunk toks n) n with
      | (some (h, k), s) => s.finish ctx (Ans.ok h.toNat k)
      | (none, s) => s.finish ctx (Ans.ok))

/-- Applies the acknowledgements of a publication's twin writes. -/
def State.takePublishAcks (s : State) (k : Nat) (h : W64) : State :=
  let n := (s.net.acked.filter (· == .publish k)).length
  let s := s.modNet fun x => { x with acked := x.acked.filter (· != .publish k) }
  s.modVersion h.toNat fun v => { v with unackedTwin := v.unackedTwin - n }

/-- PUBLISH_TWINNED: with every frame acknowledged by every twin the version is PUBLISHED and indexed, and the publisher
is attached and answered (R523, R526). -/
def execPublishTwinned (publication : Nat) (s : State) : Host.Outcome State Fault Refusal :=
  match Table.get s.regions.pubs publication with
  | none => .next s
  | some p =>
    match p.handle with
    | none => .next s
    | some h =>
      let s := s.takePublishAcks publication h
      match s.version h with
      | none => .next s
      | some v =>
        if v.state = .poisoned then
          .next (((s.endPublication publication Ans.poisoned).freeVersion h.toNat).decideNext p.name s.regions.pubs.length)
        else if v.unackedTwin ≠ 0 then .next s else
        let s := s.modVersion h.toNat fun v => { v with state := .published }
        let s := (s.camInsert h).attachSubscriber h p.ctx.subscriber
        .next ((s.endPublication publication (Ans.ok h.toNat (fieldAt v.digest 0 8))).decideNext p.name s.regions.pubs.length)

/-- PUBLISH_TIMEOUT (R525). -/
def execPublishTimeout (publication : Nat) (s : State) : Host.Outcome State Fault Refusal :=
  match Table.get s.regions.pubs publication with
  | none => .next s
  | some p =>
    if s.now < p.ctx.deadline then .next s else
    let s := match p.handle with
      | none => s
      | some h => s.freeVersion h.toNat
    .next ((s.endPublication publication (Ans.miss Reason.publishTimeout)).decideNext p.name s.regions.pubs.length)

/-! ## Attachments (R531 to R537) -/

/-- A version that may be attached to, or the answer (R177, R431, R514). -/
def State.attachable (s : State) (h : W64) : Except Ans Version :=
  match s.version h with
  | some v =>
    match v.state with
    | .published => .ok v
    | .poisoned => .error Ans.poisoned
    | _ => .error (Ans.param Reason.regionUnknown)
  | none =>
    match s.region h with
    | some r => .error (if r.state = .poisoned then Ans.poisoned else regionStateAns r.state)
    | none => .error (unknownId h)

/-- Attachments of a version after a command. -/
def State.attachCount (s : State) (h : W64) : Nat := ((s.version h).map Version.count).getD 0

/-- The length of an attached prefix is committed, and the attach answered after the twin record (R535, R558). -/
def State.commitPrefix (s : State) (cid : Nat) (ctx : CmdCtx) : State :=
  let s := s.modConv cid fun c => { c with committed := c.committed.map fun _ => c.prefixTokens }
  match s.conv cid with
  | none => s
  | some c => s.finishTwinned cid c ctx (Ans.ok (s.attachCount (c.prefixHandle.getD 0)))

/-- A prefix becomes the conversation's leading pages (R535). The copies of a partly filled page commit once the twin has acknowledged
them (R98). Appends that have passed and are not committed, and their pages, make room for them (log entry 92). Without a twin the attach is NO_TWIN as an append is, and without a link to it TWIN_LOST (R565, R576; log entry
78). -/
def State.attachPrefix (s : State) (cid : Nat) (c : Conv) (h : W64) (v : Version) (l : Layout) (cmd : Cmd) (ctx : CmdCtx) : State :=
  let last := if v.tokens % l.tokens = 0 then [] else
    v.pages.filter fun pid => ((s.page pid).map fun p => p.key.index == v.tokens / l.tokens).getD false
  if !last.isEmpty && c.twin.isNone then (s.releaseAttach cid h).finish ctx (Ans.throttled Reason.noTwin s.standinHint)
  else if !last.isEmpty && !((c.twin.map s.linkUp).getD false) then (s.releaseAttach cid h).finish ctx (Ans.retry Reason.twinLost) else
  match s.blocked last ctx with
  | (some (some a), s) => (s.releaseAttach cid h).finish ctx a
  | (some none, s) => s.stayAtRow cid cmd ctx
  | (none, s) =>
    match s.roomFor c.twin last.length with
    | some (a, s) => (s.releaseAttach cid h).finish ctx a
    | none =>
      let s := c.pages.foldl (fun s p => s.leavePage cid p.2) (s.discardTail cid)
      let s := s.modConv cid fun c =>
        { c with attached := addOnce c.attached h, prefixHandle := some h, prefixTokens := v.tokens }
      let s := s.attachPages cid h
      let w := s.net.nextWait
      let copies := List.zip (List.range last.length) last
      let s := copies.foldl (fun s x =>
        match s.page x.2 with
        | none => s
        | some p => s.copyInto cid l p.key x.2 (v.tokens % l.tokens) (if x.1 + 1 = last.length then .prefixCopy cid w else .none)) s
      if last.isEmpty then s.commitPrefix cid ctx
      else s.modNet fun n =>
        { n with nextWait := w + 1
                 waiting := Table.set n.waiting w
                   { ctx := ctx, status := 0, reason := 0, param0 := 0, param1 := 0, result := [], cid := cid, onRecord := false } }

/-- REGION_ATTACH of a conversation at its gate pass (R533 to R535). -/
def State.attachAt (s : State) (cid : Nat) (h : W64) (cmd : Cmd) (ctx : CmdCtx) : State :=
  match s.homed cid with
  | .error a => (s.releaseAttach cid h).finish ctx a
  | .ok c =>
    match s.guard c openOrSealed, s.attachable h, s.layout c.layout with
    | some a, _, _ => (s.releaseAttach cid h).finish ctx a
    | none, .error a, _ => (s.releaseAttach cid h).finish ctx a
    | none, .ok _, none => (s.releaseAttach cid h).finish ctx (Ans.state Reason.attachConv c.word)
    | none, .ok v, some l =>
      if v.content = 2 && !(c.state == .opened && c.committed.all (· == 0) && (c.prefixHandle.all (· == h)) && c.layout == v.layout) then
        (s.releaseAttach cid h).finish ctx (Ans.state Reason.attachConv c.word)
      else if c.attached.contains h then s.finish ctx (Ans.ok (s.attachCount h))
      else if c.attached.length ≥ 64 then (s.releaseAttach cid h).finish ctx (Ans.state Reason.attachLimit c.word)
      else if v.content = 2 then s.attachPrefix cid c h v l cmd ctx
      else
        let s := s.modConv cid fun c => { c with attached := c.attached ++ [h] }
        match s.conv cid with
        | none => s
        | some c => s.finishTwinned cid c ctx (Ans.ok (s.attachCount h))

/-- REGION_ATTACH at its arbiter pass (R531, R533). -/
def State.attachRegion (s : State) (c : Cmd) (ctx : CmdCtx) : State :=
  s.noPayload c ctx fun s =>
    let h := c.hdr.targetId
    let cid := c.hdr.p0
    match s.attachable h with
    | .error a => s.finish ctx a
    | .ok _ =>
      if cid = 0 then
        let s := s.attachSubscriber h ctx.subscriber
        s.finish ctx (Ans.ok (s.attachCount h))
      else match s.homed cid with
        | .error a => s.finish ctx a
        | .ok conv =>
          if conv.row.length ≥ 256 then s.finish ctx (Ans.throttled Reason.gateQueueFull 10) else
          let s := s.modVersion h.toNat fun v => { v with conversations := addOnce v.conversations cid }
          s.throughGate cid c ctx fun s => s.attachAt cid h c ctx

/-- REGION_DETACH of a conversation at its gate pass (R536). -/
def State.detachAt (s : State) (cid : Nat) (h : W64) (ctx : CmdCtx) : State :=
  match s.homed cid with
  | .error a => s.finish ctx a
  | .ok c =>
    match s.guard c openOrSealed with
    | some a => s.finish ctx a
    | none =>
      if !c.attached.contains h || c.prefixHandle == some h then
        s.finish ctx (regionStateAns (((s.version h).map (·.state)).getD .published)) else
      let s := s.detachConv cid h
      match s.conv cid with
      | none => s
      | some c => s.finishTwinned cid c ctx (Ans.ok (s.attachCount h))

/-- Destroys a mutable region (R518). -/
def State.destroyRegion (s : State) (id : W64) (r : Region) (ctx : CmdCtx) : State :=
  if r.owner ≠ ctx.subscriber then s.finish ctx (Ans.denied Reason.regionOwner)
  else if r.state = .closing then s.finish ctx (regionStateAns .closing)
  else
    let s := s.modRegion id fun r => { r with state := .closing, closer := some ctx }
    let keys := (s.regions.keys.filter fun k => k.2.region == id).map (·.1)
    (keys.foldl (fun s i => s.revokeKey i none id) s).settleRegion id

/-- REGION_DETACH at its arbiter pass (R518, R532, R536). -/
def State.detachRegion (s : State) (c : Cmd) (ctx : CmdCtx) : State :=
  s.noPayload c ctx fun s =>
    let h := c.hdr.targetId
    let cid := c.hdr.p0
    match s.region h, s.version h with
    | some r, _ => s.destroyRegion h r ctx
    | none, none => s.finish ctx (unknownId h)
    | none, some v =>
      if v.state = .loading then s.finish ctx (Ans.param Reason.regionUnknown)
      else if cid ≠ 0 then s.throughGate cid c ctx fun s => s.detachAt cid h ctx
      else if (Table.get v.subscribers ctx.subscriber).isNone then s.finish ctx (regionStateAns v.state)
      else
        let s := s.modVersion h.toNat fun v => { v with subscribers := Table.erase v.subscribers ctx.subscriber }
        (s.reapVersion h.toNat).finish ctx (Ans.ok (s.attachCount h))

/-! ## Spill targets (R166, R437) -/

/-- The checks of R166 and R437 on a spill block. -/
def spillBlockOk (b : List Byte) : Bool :=
  let slots := fieldAt b 12 4
  let landing := fieldAt b 28 2
  b.length == 48 && zeroAt b 30 2 && zeroAt b 36 12 && 1 ≤ slots && slots ≤ 16777216 && fieldAt b 0 8 % 4096 == 0 &&
  1 ≤ landing && landing ≤ 256

/-- SPILL_TARGET_ADD: the lowest free target number (R166, R437). -/
def execSpillTargetAdd (c : Cmd) (s : State) : Host.Outcome State Fault Refusal :=
  .next (s.onArrive 0x040C c fun c ctx s =>
    let b := c.payload
    let qpn := fieldAt b 32 4
    if !spillBlockOk b || s.tiers.targets.length ≥ 32 || qpn < 2 || qpn ≥ Config.qps + 2 || (s.qp (qpn - 2)).kind != .spill then
      s.finish ctx (Ans.param Reason.spillTarget)
    else
      let n := nthFree s.tiers.targets 0
      let t : SpillTarget :=
        { qp := qpn - 2, bufferAddr := BitVec.ofNat 64 (fieldAt b 0 8), bufferKey := BitVec.ofNat 32 (fieldAt b 8 4)
          slots := fieldAt b 12 4, landingAddr := BitVec.ofNat 64 (fieldAt b 16 8)
          landingKey := BitVec.ofNat 32 (fieldAt b 24 4), landingSlots := fieldAt b 28 2 }
      (s.modTiers fun x => { x with targets := Table.set x.targets n t }).finish ctx (Ans.ok n))

end Sys2Proof.Machine
end

