-- ==== Sys2Proof/Machine/Near.lean ====
section
/-! DEFINITION. Near-memory work (R432, R435, R520, R540 to R544): commands queued by number, their effects, and the
reduce into a region (R238, R249 to R254, R261). -/
namespace Sys2Proof.Machine

/-! ## Ranges -/

/-- Why a region or version cannot be a source (R431, R435, R517). -/
def State.sourceRefusal (s : State) (id : W64) : Option Ans :=
  match s.region id, s.version id with
  | some r, _ => if r.state = .poisoned then some Ans.poisoned else if r.window || r.state != .live then some (regionStateAns r.state) else none
  | none, some v =>
    match v.state with
    | .published => none
    | .poisoned => some Ans.poisoned
    | _ => some (Ans.param Reason.regionUnknown)
  | none, none => some (unknownId id)

/-- Why a region cannot be a destination: a published one is immutable (R435). -/
def State.targetRefusal (s : State) (id : W64) : Option Ans :=
  if (s.region id).isNone && ((s.version id).map fun v => v.state == .published).getD false then
    some (Ans.state Reason.regionImmutable RegionState.published.code)
  else s.sourceRefusal id

/-- Length of a region or version. -/
def State.lengthOf (s : State) (id : W64) : Nat :=
  match s.region id, s.version id with
  | some r, _ => r.length
  | none, some v => v.length
  | none, none => 0

/-- A range in multiples of 64 within its region (R435). -/
def State.rangeOk (s : State) (id : W64) (off n : Nat) : Bool :=
  off % 64 == 0 && n % 64 == 0 && 64 ≤ n && decide (off + n ≤ s.lengthOf id)

/-- The directory entries of the frames of a version's range. -/
def Version.framesAt (v : Version) (off n : Nat) : List Nat :=
  (List.range ((off + n + 65535) / 65536 - off / 65536)).filterMap fun k => v.frames[off / 65536 + k]?

/-- Frames of a source range that must be recalled or repaired before they can be read (R44, R178). -/
def State.rangeAway (s : State) (id : W64) (off n : Nat) : List Nat :=
  match s.region id, s.version id with
  | none, some v => (v.framesAt off n).filter fun pid => match s.page pid with
    | some p => p.away && p.state != .poisoned
    | none => false
  | _, _ => []

/-- Reads the bytes of a range, or ends with the answer of R177, R517 or R616. -/
def State.readRange (s : State) (id : W64) (off n : Nat) : Except Ans (List Byte) × State :=
  match s.region id, s.version id with
  | some r, _ =>
    if r.state = .poisoned then (.error Ans.poisoned, s) else
    match s.checkRegion id r off n with
    | (true, s) => (.ok (s.readRegion r off n), s)
    | (false, s) => (.error Ans.poisoned, s)
  | none, some v =>
    let (good, s) := (v.framesAt off n).foldl (fun (acc : Bool × State) pid =>
      let (ok, s) := acc.2.soundPage pid
      (acc.1 && ok, s)) (true, s)
    if good then (.ok (s.versionBytes v off n), s)
    else (.error { status := Status.poisoned, reason := Reason.poisonConsumed }, s)
  | none, none => (.error (unknownId id), s)

/-- Writes a range of a mutable region; a region that is gone takes nothing. -/
def State.writeRange (s : State) (id : W64) (off : Nat) (bs : List Byte) : State :=
  match s.region id with
  | none => s
  | some r => s.writeRegion r off bs

/-! ## The queue (R520, R540) -/

/-- The near-memory engine of a command: by the first frame of its destination range (R540). -/
def State.engineOf (s : State) (id : W64) (off : Nat) : Nat :=
  match s.region id, s.version id with
  | some r, _ => (r.frames.getD (off / 65536) 0) % 8
  | none, some v => (((v.frames[off / 65536]?).bind s.page).map fun p => p.frame % 8).getD 0
  | none, none => 0

/-- Ranges that a command writes and reads: region, offset, length (R520). -/
def Near.writes (n : Near) : List (W64 × Nat × Nat) :=
  match n.kind with
  | .compare _ _ => []
  | _ => [(n.region, n.offset, n.length)]
def Near.reads (n : Near) : List (W64 × Nat × Nat) :=
  match n.kind with
  | .fill _ => []
  | .copy src off => [(src, off, n.length)]
  | .compare src off => [(n.region, n.offset, n.length), (src, off, n.length)]
  | .reduce _ => [(n.region, n.offset, n.length)]

/-- Whether two lists of ranges overlap; ranges in different regions never do (R520). -/
def rangesMeet (a b : List (W64 × Nat × Nat)) : Bool :=
  a.any fun x => b.any fun y => x.1 == y.1 && decide (x.2.1 < y.2.1 + y.2.2) && decide (y.2.1 < x.2.1 + x.2.2)

/-- Whether a command must wait for one of a lower number (R520). -/
def Near.waitsFor (n lower : Near) : Bool :=
  rangesMeet lower.writes (n.writes ++ n.reads) || rangesMeet lower.reads n.writes

/-- A near-memory command passes its arbiter and takes its number (R520). -/
def State.queueNear (s : State) (ctx : CmdCtx) (kind : NearKind) (region : W64) (off n : Nat) (own : Option Nat := none) : State :=
  s.modRegions fun r =>
    { r with nearSeq := r.nearSeq + 1
             near := Table.set r.near (r.nearSeq + 1) { ctx := ctx, kind := kind, region := region, offset := off, length := n, own := own } }

/-- Checks of the destination and its range, then the command is queued (R431, R432, R435). -/
def State.nearArrive (s : State) (c : Cmd) (ctx : CmdCtx) (kind : NearKind) : State :=
  match s.targetRefusal c.hdr.targetId with
  | some a => s.finish ctx a
  | none =>
    if s.rangeOk c.hdr.targetId c.hdr.p0 c.hdr.p1 then s.queueNear ctx kind c.hdr.targetId c.hdr.p0 c.hdr.p1
    else s.finish ctx (Ans.param Reason.nearRange)

/-- The source region and offset of NEAR_COPY and NEAR_COMPARE (R432). -/
def nearSource (c : Cmd) : W64 × Nat := (BitVec.ofNat 64 (fieldAt c.payload 0 8), fieldAt c.payload 8 8)

/-- NEAR_FILL at its arbiter pass. -/
def State.fillRegion (s : State) (c : Cmd) (ctx : CmdCtx) : State :=
  if c.payload.length ≠ 8 then s.finish ctx (Ans.param Reason.payloadFormat) else s.nearArrive c ctx (.fill c.payload)

/-- NEAR_COPY at its arbiter pass. -/
def State.copyRegion (s : State) (c : Cmd) (ctx : CmdCtx) : State :=
  if c.payload.length ≠ 16 then s.finish ctx (Ans.param Reason.payloadFormat) else
  let (src, off) := nearSource c
  match s.targetRefusal c.hdr.targetId, s.sourceRefusal src with
  | some a, _ => s.finish ctx a
  | none, some a => s.finish ctx a
  | none, none =>
    if s.rangeOk src off c.hdr.p1 then s.nearArrive c ctx (.copy src off) else s.finish ctx (Ans.param Reason.nearRange)

/-- NEAR_COMPARE at its arbiter pass: published versions may stand on either side (R542). -/
def State.compareRegion (s : State) (c : Cmd) (ctx : CmdCtx) : State :=
  if c.payload.length ≠ 16 then s.finish ctx (Ans.param Reason.payloadFormat) else
  let (src, off) := nearSource c
  match s.sourceRefusal c.hdr.targetId, s.sourceRefusal src with
  | some a, _ => s.finish ctx a
  | none, some a => s.finish ctx a
  | none, none =>
    if s.rangeOk c.hdr.targetId c.hdr.p0 c.hdr.p1 && s.rangeOk src off c.hdr.p1 then
      s.queueNear ctx (.compare src off) c.hdr.targetId c.hdr.p0 c.hdr.p1
    else s.finish ctx (Ans.param Reason.nearRange)

/-! ## The reduce (R543, R544) -/

/-- Bytes of a reduce target: F of R283 (R543). -/
def reduceLen (record : List Byte) : Nat := worstFirn (FirnHdr.decode record).rowCount (FirnHdr.decode record).ev

/-- The checks of a reduce at its arbiter pass: the record's form (R261), then the range (R543). -/
def State.reduceRefusal (s : State) (id : W64) (off : Nat) (record : List Byte) : Option Ans :=
  match s.targetRefusal id with
  | some a => some a
  | none =>
    if (parseFirn record).isNone then some (Ans.param Reason.firnRecord)
    else if off % 64 != 0 || off + reduceLen record > s.lengthOf id then some (Ans.param Reason.nearRange)
    else none

/-- A target's record: FIRN with every row at width 128 (R544). -/
def wideRecord (b : List Byte) : Option (FirnHdr × List Int × List Partial) :=
  match parseFirn b with
  | none => none
  | some x => if (slice b 64 x.1.rowCount).all fun i => i.toNat % 4 == 2 then some x else none

/-- A record written with every row at width 128 (R544). -/
def wideBytes (h : FirnHdr) (anchors : List Int) (rows : List Partial) : List Byte :=
  firnRecord h 2 (if bit h.flags 2 then some anchors else none) rows

/-- Whether the anchors and fields of R249 agree, overlap apart. -/
def combinable (a b : FirnHdr × List Int × List Partial) : Bool := combinableHdr a.1 b.1 && a.2.1 == b.2.1

/-- The record that a target holds after a reduce, or the refusal (R238, R249, R250, R253, R254, R544). One
that both overlaps and differs is a mismatch (DESIGN CHOICE, log entry 95). With ANCHOR_VECTOR 1 its ANCHOR
is 0 (R257). -/
def reduceTarget (node : Nat) (target : List Byte) (inc : FirnHdr × List Int × List Partial) : Except Ans (List Byte) :=
  let (h, anchors, rows) := inc
  if allZero (target.take 64) then .ok (wideBytes h anchors rows) else
  match wideRecord (target.take (64 + fieldAt target 48 4)) with
  | none => .error (Ans.param Reason.reduceTarget)
  | some old =>
    if !combinable old inc then .error (Ans.param Reason.firnMismatch)
    else if Nat.land old.1.mask h.mask ≠ 0 then .error (Ans.param Reason.firnDuplicate)
    else
      let sums := addPartials old.2.2 rows
      if sums.any fun p => p.count > 2 ^ 24 then .error (Ans.param Reason.firnCount)
      else
        let flags := Nat.lor old.1.flags h.flags
        let h' := { old.1 with mask := Nat.lor old.1.mask h.mask, flags := flags, source := node, anchor := if bit flags 2 then 0 else old.1.anchor }
        .ok (wideBytes h' anchors sums)

/-- A record that the engine refuses is counted as at any combine point and receiver (R253, R254, R261). -/
def State.countRefused (s : State) (a : Ans) : State :=
  if a.reason = Reason.firnDuplicate then s.bump Ctr.firnDup
  else if a.reason = Reason.firnMismatch then s.bump Ctr.firnMismatch
  else if a.reason = Reason.firnRecord then s.bump Ctr.firnRecordFail
  else s

/-- Reduces a record into a region (R544). -/
def State.reduceInto (s : State) (id : W64) (off : Nat) (record : List Byte) : Ans × State :=
  match parseFirn record with
  | none => (Ans.param Reason.firnRecord, s.bump Ctr.firnRecordFail)
  | some inc =>
    match s.readRange id off (reduceLen record) with
    | (.error a, s) => (a, s)
    | (.ok target, s) =>
      match reduceTarget s.nodeId target inc with
      | .error a => (a, s.countRefused a)
      | .ok b => (Ans.ok, s.writeRange id off b)

/-- NEAR_REDUCE at its arbiter pass (R543). -/
def State.reduceRegion (s : State) (c : Cmd) (ctx : CmdCtx) : State :=
  let (struck, s) := s.checkStruck Blk.firn 0 19
  let record := struckRecord struck c.payload
  match s.reduceRefusal c.hdr.targetId c.hdr.p0 record with
  | some a =>
    let s := if a.reason = Reason.firnRecord && !recordCrcOk record then s.checkNoted Blk.firn struck else s
    (s.countRefused a).finish ctx a
  | none => s.queueNear ctx (.reduce record) c.hdr.targetId c.hdr.p0 (reduceLen record)

end Sys2Proof.Machine
end

