-- ==== Sys2Proof/Machine/Arbiter.lean ====
section
/-! DEFINITION. The arbiters of regions and NAMEs: the order in which the region-group commands of one cycle pass them (R435, R519,
R523), and the commands of the group (R431 to R437). -/
namespace Sys2Proof.Machine

/-! ## The order of one cycle (R519) -/

/-- The regions, versions and NAMEs that a region-group command names: its own, and the source of a publication, a copy or a
compare. -/
def namedRegions (c : Cmd) : List W64 :=
  if c.hdr.opcode = 0x0404 || c.hdr.opcode = 0x0408 || c.hdr.opcode = 0x0409 then
    [c.hdr.targetId, BitVec.ofNat 64 (fieldAt c.payload 0 8)]
  else [c.hdr.targetId]

/-- The region-group command that a block command brings. -/
def regionCmd (i : Instr) : Option Cmd :=
  match i with
  | .regionCreate c => some c
  | .regionRegister c => some c
  | .regionRevoke c => some c
  | .regionPublish c => some c
  | .regionAttach c => some c
  | .regionDetach c => some c
  | .nearFill c => some c
  | .nearCopy c => some c
  | .nearCompare c => some c
  | .nearReduce c => some c
  | _ => none

/-- Whether two commands meet at one arbiter. -/
def sameArbiter (a b : Cmd) : Bool := (namedRegions a).any (namedRegions b).contains

/-- Whether a region-group command of this cycle, still in the queue, goes ahead of one from this source: those of lower QPs do. The
queue holds the events of one cycle (R519; log entries 1 and 79). -/
def State.arbiterAhead (s : State) (c : Cmd) (src : Src) : Bool :=
  s.pending.any fun i => ((regionCmd i).map fun d => sameArbiter d c && decide (srcKey d.src < srcKey src)).getD false

/-- Whether one that waits already goes ahead of a command that comes now. -/
def State.waitsAhead (s : State) (c : Cmd) (src : Src) : Bool :=
  s.regions.waiting.any fun x => sameArbiter x.1 c && decide (srcKey x.2.src ≤ srcKey src)

/-- The first of the waiting commands that nothing goes ahead of; `seen` stand before it. -/
def State.firstWaiting (s : State) (seen : List (Cmd × CmdCtx)) (rest : List (Cmd × CmdCtx)) : Option (Cmd × CmdCtx) :=
  match rest with
  | [] => none
  | x :: xs =>
    if s.arbiterAhead x.1 x.2.src || (seen.any fun y => sameArbiter y.1 x.1 && decide (srcKey y.2.src ≤ srcKey x.2.src)) ||
      (xs.any fun y => sameArbiter y.1 x.1 && decide (srcKey y.2.src < srcKey x.2.src)) then
      State.firstWaiting s (seen ++ [x]) xs
    else some x

/-- What a region-group command does at its arbiter, by its opcode. -/
def State.arbiterPass (s : State) (c : Cmd) (ctx : CmdCtx) : State :=
  match ctx.opcode.toNat with
  | 0x0401 => s.createRegion c ctx
  | 0x0402 => s.registerRegion c ctx
  | 0x0403 => s.revokeRegion c ctx
  | 0x0404 => s.beginPublish c ctx
  | 0x0405 => s.attachRegion c ctx
  | 0x0406 => s.detachRegion c ctx
  | 0x0407 => s.fillRegion c ctx
  | 0x0408 => s.copyRegion c ctx
  | 0x0409 => s.compareRegion c ctx
  | 0x040A => s.reduceRegion c ctx
  | _ => s

/-- The waiting commands whose turn has come pass, each judged against the state that the one before it left (R519). -/
def State.passWaiting (s : State) (fuel : Nat) : State :=
  match fuel with
  | 0 => s
  | fuel + 1 =>
    match s.firstWaiting [] s.regions.waiting with
    | none => s
    | some x =>
      let s := s.modRegions fun r => { r with waiting := r.waiting.filter (· != x) }
      State.passWaiting (s.arbiterPass x.1 x.2) fuel

/-- The waiting commands whose turn has come. -/
def State.passRegions (s : State) : State := s.passWaiting s.regions.waiting.length

/-- A region-group command comes to its arbiter: it passes, unless another of its cycle goes ahead of it; then those that waited for
it do (R519). -/
def State.atArbiter (s : State) (c : Cmd) (ctx : CmdCtx) (pass : State → State) : State :=
  if s.arbiterAhead c ctx.src || s.waitsAhead c ctx.src then
    s.modRegions fun r => { r with waiting := r.waiting ++ [(c, ctx)] }
  else (pass s).passRegions

/-! ## The commands -/

/-- REGION_CREATE. -/
def execRegionCreate (c : Cmd) (s : State) : Host.Outcome State Fault Refusal :=
  .next (s.onArrive 0x0401 c fun c ctx s => s.atArbiter c ctx fun s => s.createRegion c ctx)

/-- REGION_REGISTER. -/
def execRegionRegister (c : Cmd) (s : State) : Host.Outcome State Fault Refusal :=
  .next (s.onArrive 0x0402 c fun c ctx s => s.atArbiter c ctx fun s => s.registerRegion c ctx)

/-- REGION_REVOKE. -/
def execRegionRevoke (c : Cmd) (s : State) : Host.Outcome State Fault Refusal :=
  .next (s.onArrive 0x0403 c fun c ctx s => s.atArbiter c ctx fun s => s.revokeRegion c ctx)

/-- REGION_PUBLISH. -/
def execRegionPublish (c : Cmd) (s : State) : Host.Outcome State Fault Refusal :=
  .next (s.onArrive 0x0404 c fun c ctx s => s.atArbiter c ctx fun s => s.beginPublish c ctx)

/-- REGION_ATTACH. -/
def execRegionAttach (c : Cmd) (s : State) : Host.Outcome State Fault Refusal :=
  .next (s.onArrive 0x0405 c fun c ctx s => s.atArbiter c ctx fun s => s.attachRegion c ctx)

/-- REGION_DETACH. -/
def execRegionDetach (c : Cmd) (s : State) : Host.Outcome State Fault Refusal :=
  .next (s.onArrive 0x0406 c fun c ctx s => s.atArbiter c ctx fun s => s.detachRegion c ctx)

/-- NEAR_FILL. -/
def execNearFill (c : Cmd) (s : State) : Host.Outcome State Fault Refusal :=
  .next (s.onArrive 0x0407 c fun c ctx s => s.atArbiter c ctx fun s => s.fillRegion c ctx)

/-- NEAR_COPY. -/
def execNearCopy (c : Cmd) (s : State) : Host.Outcome State Fault Refusal :=
  .next (s.onArrive 0x0408 c fun c ctx s => s.atArbiter c ctx fun s => s.copyRegion c ctx)

/-- NEAR_COMPARE. -/
def execNearCompare (c : Cmd) (s : State) : Host.Outcome State Fault Refusal :=
  .next (s.onArrive 0x0409 c fun c ctx s => s.atArbiter c ctx fun s => s.compareRegion c ctx)

/-- NEAR_REDUCE. -/
def execNearReduce (c : Cmd) (s : State) : Host.Outcome State Fault Refusal :=
  .next (s.onArrive 0x040A c fun c ctx s => s.atArbiter c ctx fun s => s.reduceRegion c ctx)

/-! ## Attachment leases (R532) -/

/-- Whether a region-group command that names a version is in the queue of this cycle: it goes ahead of a lease's expiry (R519, R539;
log entry 79). -/
def State.renewalAhead (s : State) (handle : Nat) : Bool :=
  s.pending.any fun i => ((regionCmd i).map fun c => (namedRegions c).any fun h => h.toNat == handle).getD false

/-- ATTACH_LEASE_EXPIRY (R532). -/
def execAttachLeaseExpiry (handle subscriber : Nat) (s : State) : Host.Outcome State Fault Refusal :=
  match (Table.get s.regions.versions handle).bind fun v => Table.get v.subscribers subscriber with
  | none => .next s
  | some e =>
    if s.now < e || s.renewalAhead handle then .next s else
    let s := s.modVersion handle fun v => { v with subscribers := Table.erase v.subscribers subscriber }
    .next ((s.bump Ctr.attachExpired).reapVersion handle)

end Sys2Proof.Machine
end

