-- ==== Sys2Proof/Machine/Attn.lean ====
section
/-! DEFINITION. Attention requests after their gate pass: forwards and CONTINUE (R286 to R292, R301 to R303), the first
passes (R202, R241, R242, R309 to R315), the records of home and participants (R294 to R300), the end of a request
(R299, R306), and the commands on kept results, layouts and modifier programs (R58 to R60, R213 to R215, R386 to R389). -/
namespace Sys2Proof.Machine

/-! ## A page read for a request (R174 to R178) -/

/-- Reads a page's frame for a request. A frame that cannot be read is retired, the page repaired or poisoned, and the
request waits for it. -/
def State.readPageFor (s : State) (ctx pid : Nat) : Bool × State :=
  match s.soundPage pid with
  | (true, s) => (true, s)
  | (false, s) => (false, s.stallReq ctx [pid])

/-! ## Cairn ranking (R309 to R315) -/

/-- Whether page a comes before page b: descending score, then ascending index (R311). -/
def rankBefore (a b : Nat × W32) : Bool :=
  !fp32Le a.2.toNat b.2.toNat || (fp32Le b.2.toNat a.2.toNat && decide (a.1 < b.1))

/-- Puts a page in its place in a ranking (R311). -/
def insertRank (x : Nat × W32) (l : List (Nat × W32)) : List (Nat × W32) :=
  match l with
  | [] => [x]
  | y :: rest => if rankBefore x y then x :: y :: rest else y :: insertRank x rest

/-- The first k of two rankings together (R311, R313). -/
def mergeRanked (k : Nat) (a b : List (Nat × W32)) : List (Nat × W32) := (b.foldl (fun l x => insertRank x l) a).take k

/-- Whether a page is selected whatever its score (R309). -/
def Graze.alwaysTakes (g : Graze) (l : Layout) (snapshot index : Nat) : Bool :=
  index < g.cairnSink || (snapshot != 0 && index == (snapshot - 1) / l.tokens)

/-- Score of a row and a page summary (R310). -/
def rowPageScore (lambda norm : Nat) (q m : List Dy) : W32 :=
  let sigma := (Dy.sum (List.zipWith Dy.mul q m)).toFp32
  let n := sqrtFp32 (Dy.sum (q.map fun v => v.mul v))
  let term := fp32Mul lambda (fp32Mul n norm)
  let x := fp32Add sigma term
  if fp32IsNan x then Config.cairnScore sigma term else BitVec.ofNat 32 x

/-- The rows of a KV head of a request, as exact elements. -/
def Req.headRows (r : Req) (head : Nat) : List (List Dy) :=
  let n := r.graze.tokens * r.graze.heads
  ((r.rows.drop (head * n)).take n).map fun row => (rowElems r.rowFormat r.rowLen row).getD []

/-- The score of a page from its tail: the largest over the rows of its KV head (R310). -/
def Req.pageScore (r : Req) (l : Layout) (head : Nat) (tail : List Byte) : W32 :=
  let m := (bf16s (slice tail 320 (2 * l.summaryLen))).map bf16Val
  let xs := (r.headRows head).map fun q => rowPageScore r.graze.cairnWeight.toNat (fp32At tail 24) q m
  match xs with
  | [] => 0
  | x :: rest => rest.foldl (fun a b => if fp32Le a.toNat b.toNat then b else a) x

/-- The candidates of a request's own pages, by KV head, or none where a page must be waited for (R309 to R313). -/
def State.ownCandidates (s : State) (ctx : Nat) (r : Req) (l : Layout) : Option (List (List (Nat × W32))) × State :=
  (List.range l.kvHeads).foldl (fun (acc : Option (List (List (Nat × W32))) × State) h =>
    let ranked := (acc.2.reqPages ctx r h).filter fun p => !r.graze.alwaysTakes l r.snapshot p.1.index
    let (cs, s) := ranked.foldl (fun (a : Option (List (Nat × W32)) × State) p =>
      match a.2.readPageFor ctx p.2 with
      | (false, s) => (none, s)
      | (true, s) =>
        match a.1, s.page p.2 with
        | some cs, some g =>
          (some (insertRank (p.1.index, r.pageScore l h (s.readFrame g.tier g.frame Config.dataBytes 4096)) cs), s)
        | _, _ => (none, s)) (some [], acc.2)
    match acc.1, cs with
    | some done, some cs => (some (done ++ [cs.take r.graze.cairnK]), s)
    | _, _ => (none, s)) (some [], s)

/-- The 16-byte header of a candidate block or selection list (R314, R315). -/
def blockHeader (participant kvHeads : Nat) (id : W64) : List Byte :=
  le 1 1 ++ le 1 participant ++ le 2 kvHeads ++ zeros 4 ++ le 8 id.toNat

/-- A block with its CRC-32C (R314, R315). -/
def sealBlock (b : List Byte) : List Byte := b ++ le 4 (crc32c b)

/-- A candidate block (R314). -/
def candidateBlock (participant : Nat) (id : W64) (cs : List (List (Nat × W32))) : List Byte :=
  sealBlock (blockHeader participant cs.length id ++
    (cs.map fun l => le 4 l.length ++ (l.map fun e => le 4 e.1 ++ le 4 e.2.toNat).flatten).flatten)

/-- A selection list (R315). -/
def selectionList (participant : Nat) (id : W64) (ls : List (List Nat)) : List Byte :=
  sealBlock (blockHeader participant ls.length id ++ (ls.map fun l => le 4 l.length ++ (l.map (le 4)).flatten).flatten)

/-- The entries of w bytes of each of n counted lists, and the offset after them. -/
def parseLists (w : Nat) (b : List Byte) (n off : Nat) : Option (List (List (List Byte)) × Nat) :=
  match n with
  | 0 => some ([], off)
  | n + 1 =>
    let k := fieldAt b off 4
    if off + 4 + w * k > b.length then none else
    let here := (List.range k).map fun i => slice b (off + 4 + w * i) w
    (parseLists w b n (off + 4 + w * k)).map fun x => (here :: x.1, x.2)

/-- The lists of a block or list, or none where R315 rejects it. -/
def parseBlock (w participant kvHeads : Nat) (id : W64) (b : List Byte) : Option (List (List (List Byte))) :=
  let body := b.take (b.length - 4)
  if b.length < 20 || leNat (b.drop (b.length - 4)) != crc32c body || fieldAt b 0 1 != 1 || fieldAt b 1 1 != participant ||
    fieldAt b 2 2 != kvHeads || fieldAt b 8 8 != id.toNat then none else
  match parseLists w body kvHeads 16 with
  | none => none
  | some (ls, off) => if off = body.length then some ls else none

/-- The candidates of a block, each list of at most K entries. -/
def parseCandidates (k participant kvHeads : Nat) (id : W64) (b : List Byte) : Option (List (List (Nat × W32))) :=
  match parseBlock 8 participant kvHeads id b with
  | none => none
  | some ls =>
    if ls.all fun l => l.length ≤ k then
      some (ls.map fun l => l.map fun e => (fieldAt e 0 4, BitVec.ofNat 32 (fieldAt e 4 4)))
    else none

/-- The selected page indices of a KV head below the snapshot, in ascending order (R309, R311). -/
def Req.selection (r : Req) (l : Layout) (head : Nat) : List Nat :=
  (List.range (ceilDiv r.snapshot l.tokens)).filter fun i =>
    r.graze.alwaysTakes l r.snapshot i || (r.candidates.getD head []).any fun c => c.1 == i

/-! ## A forward reaches a participant (R287 to R292) -/

/-- The fields of a forward block (R287). -/
structure Forward where
  home : Nat
  participant : Nat
  participants : Nat
  snapshot : Nat
  first : Nat
  last : Nat
  modTag : W64
  pass : Nat
  landing : Nat
  subscriber : Nat
  deadline : Nat
deriving DecidableEq, Repr

/-- Reads a forward block; none for one that breaks R287. -/
def parseForward (b : List Byte) : Option Forward :=
  if 64 ≤ b.length && fieldAt b 0 2 < 1024 && 1 ≤ fieldAt b 2 1 && fieldAt b 2 1 ≤ 15 && 2 ≤ fieldAt b 3 1 &&
     fieldAt b 3 1 ≤ 16 && fieldAt b 24 1 ≤ 3 && zeroAt b 25 1 && fieldAt b 28 2 < 4096 && zeroAt b 30 2 && zeroAt b 40 24 then
    some { home := fieldAt b 0 2, participant := fieldAt b 2 1, participants := fieldAt b 3 1, snapshot := fieldAt b 4 4
           first := fieldAt b 8 4, last := fieldAt b 12 4, modTag := BitVec.ofNat 64 (fieldAt b 16 8), pass := fieldAt b 24 1
           landing := fieldAt b 26 2, subscriber := fieldAt b 28 2, deadline := fieldAt b 32 8 }
  else none

/-- Whether the node holds every page of an extent of a layer (R292). -/
def Conv.holdsExtent (c : Conv) (l : Layout) (layer first last : Nat) : Bool :=
  (List.range l.kvHeads).all fun h => (List.range (last - first)).all fun i =>
    (c.pageAt { layer := layer, head := h, index := first + i }).isSome

/-- The pass that a first forward of an opcode must name (R287, R301, R313). -/
def firstPass (exact cairn : Bool) : Pass := if exact then .scoreOnly else if cairn then .cairnScore else .sum

/-- The context of a forward at a participant, by its forward block (R287, R290). -/
def State.newForward (s : State) (f : Forward) (cmd : Cmd) (ctx : CmdCtx) (c : Conv) (l : Layout) (g : Graze)
    (exact cairn : Bool) : Req :=
  { pool := c.pool, cmd := ctx, exact := exact, cairn := cairn, cid := cmd.hdr.cid, layer := cmd.hdr.layer.toNat, layout := c.layout
    snapshot := f.snapshot, graze := g, modTag := f.modTag, modifier := (s.modifier g.modSlot).getD {}, anchors := g.anchors
    pass := firstPass exact cairn, rowFormat := g.format, rowLen := l.keyLen, deadline := f.deadline
    versions := requestVersions c g, home := f.home, participant := f.participant, participants := f.participants
    landing := f.landing, subscriber := f.subscriber, pageFirst := f.first, pageEnd := f.last, isForward := true
    minWidth := s.regs.minWidth, width := s.regs.width }

/-- A participant's request context takes its place. -/
def State.openForward (s : State) (f : Forward) (cmd : Cmd) (ctx : CmdCtx) (c : Conv) (l : Layout) (g : Graze)
    (exact cairn : Bool) : State :=
  let id := s.attn.nextCtx
  let versions := requestVersions c g
  let layer := cmd.hdr.layer.toNat
  let r := s.newForward f cmd ctx c l g exact cairn
  let s := s.modAttn fun a => { a with reqs := Table.set a.reqs id (r.emptySums l), nextCtx := id + 1 }
  let s := versions.foldl (fun s h => s.useVersion id h.toNat) s
  let s := s.holdPages id c l layer f.snapshot f.first f.last []
  let s := s.foresee id
  if (s.req id).isNone then s else
  if versions.any fun h => ((s.version h).map fun v => v.state == .poisoned).getD false then s.endReq id Ans.poisoned
  else s.beginReq id

/-- A participant takes a graze-forward, or answers it (R290, R292, R744). -/
def State.takeForward (s : State) (cmd : Cmd) (ctx : CmdCtx) (exact cairn : Bool) : State :=
  match parseForward cmd.payload, s.conv cmd.hdr.cid with
  | none, _ => s.finish ctx (Ans.param Reason.grazeParam)
  | some _, none => s.finish ctx (Ans.retry Reason.extentMoved)
  | some f, some c =>
    match s.guard c (fun st => st != .lost), s.layout c.layout with
    | some a, _ => s.finish ctx a
    | none, none => s.finish ctx (Ans.retry Reason.extentMoved)
    | none, some l =>
      if f.pass ≠ (firstPass exact cairn).code then s.finish ctx (Ans.param Reason.grazeParam)
      else if cmd.hdr.param0 ≠ 0 || cmd.hdr.param1 ≠ 0 then s.finish ctx (Ans.param Reason.hdrFormat)
      else if !c.holdsExtent l cmd.hdr.layer.toNat f.first f.last then s.finish ctx (Ans.retry Reason.extentMoved)
      else match s.checkGraze (cmd.payload.drop 64) c.layout l cmd.hdr.layer.toNat exact cairn (some f.modTag) with
        | .error a => s.finish ctx a
        | .ok g =>
          if (s.attn.reqs.filter fun r => r.2.pool == c.pool).length ≥ Config.contextsPerPool then
            s.finish ctx (Ans.throttled Reason.contextFull 10)
          else s.openForward f cmd ctx c l g exact cairn

/-- The anchors that a CONTINUE forward carries; none where its length or padding is wrong (R302). -/
def parseAnchors (rows : Nat) (b : List Byte) : Option (List Int) :=
  if b.length = roundUp (2 * rows) 16 && padOk b 0 (2 * rows) then
    some ((List.range rows).map fun r => toSigned 16 (fieldAt b (2 * r) 2))
  else none

/-- A request starts its summing pass after a first pass; its trigger counter is armed anew (R302, R312, R470). -/
def State.startSumming (s : State) (ctx : Nat) (r : Req) (l : Layout) (anchors : List Int)
    (selected : List (List (Nat × W32))) : State :=
  (s.modReq ctx fun _ =>
    { r.emptySums l with
      pass := .continued, anchors := anchors, landedMax := [], candidates := selected, waitsContinue := false, ownDone := false
      ownSent := false, mask := 0, combined := [], compact := [], trigger := r.trigger.map Trigger.rearm
      parts := r.parts.map fun p => { p with placed := false, forwardedAt := s.now } }).issueReq ctx

/-- A CONTINUE forward reaches a participant (R302, R303, R313, R315). The first forward's OK reply, withheld until
then, is sent with it (R291). -/
def State.continueForward (s : State) (cmd : Cmd) (ctx : CmdCtx) : State :=
  match parseForward cmd.payload with
  | none => s.finish ctx (Ans.param Reason.grazeParam)
  | some f =>
    match s.attn.reqs.find? fun x => x.2.isForward && x.2.home == f.home && x.2.participant == f.participant &&
        x.2.cmd.requestId == cmd.hdr.requestId && x.2.waitsContinue with
    | none => (s.bump Ctr.fwdLate).release ctx
    | some (id, r) =>
      let s := s.finish r.cmd (Ans.ok)
      let s := s.modReq id fun r => { r with cmd := ctx }
      let rest := cmd.payload.drop 64
      match s.req id, s.layout r.layout with
      | some r, some l =>
        if r.cairn then
          let (struck, s) := s.unitStruck 21 3
          let rest := struckCrc struck rest
          let s := if crcSealed rest then s else s.checkNoted Blk.ctx struck
          match parseBlock 4 f.participant l.kvHeads cmd.hdr.requestId rest with
          | none => s.endReq id (Ans.retry Reason.cairnBlock)
          | some ls =>
            if !zeroAt rest 4 4 then s.endReq id (Ans.param Reason.grazeParam) else
            s.startSumming id r l r.anchors (ls.map fun x => x.map fun e => (leNat e, 0))
        else
          match parseAnchors (r.graze.rowCount l) rest with
          | none => s.endReq id (Ans.param Reason.grazeParam)
          | some as => s.startSumming id r l as []
      | _, _ => s

/-- An attention command: a requester's passes its conversation's gate, a forward is a participant's (R286, R290, R302). -/
def State.takeAttention (s : State) (c : Cmd) (ctx : CmdCtx) : State :=
  let exact := c.hdr.opcode == 0x0302
  let cairn := c.hdr.opcode == 0x0304
  if c.hdr.forward then
    if fieldAt c.payload 24 1 = 3 then s.continueForward c ctx else s.takeForward c ctx exact cairn
  else s.throughGate c.hdr.cid c ctx fun s => s.attendAt c.hdr.cid c ctx exact cairn

/-- ATTN_GRAZE. -/
def execAttnGraze (c : Cmd) (s : State) : Host.Outcome State Fault Refusal :=
  .next (s.onArrive 0x0301 c fun c ctx s => s.takeAttention c ctx)
/-- ATTN_GRAZE_EXACT. -/
def execAttnGrazeExact (c : Cmd) (s : State) : Host.Outcome State Fault Refusal :=
  .next (s.onArrive 0x0302 c fun c ctx s => s.takeAttention c ctx)
/-- ATTN_CAIRN. -/
def execAttnCairn (c : Cmd) (s : State) : Host.Outcome State Fault Refusal :=
  .next (s.onArrive 0x0304 c fun c ctx s => s.takeAttention c ctx)

/-- The opcode of a forward: one of the three attention opcodes (R286). -/
def forwardCode (h : Hdr) : Nat := if h.opcode == 0x0302 then 0x0302 else if h.opcode == 0x0304 then 0x0304 else 0x0301

/-- GRAZE_FORWARD. -/
def execGrazeForward (c : Cmd) (s : State) : Host.Outcome State Fault Refusal :=
  .next (s.onArrive (forwardCode c.hdr) c fun c ctx s => s.takeAttention c ctx)
/-- CONTINUE_FORWARD. -/
def execContinueForward (c : Cmd) (s : State) : Host.Outcome State Fault Refusal :=
  .next (s.onArrive (forwardCode c.hdr) c fun c ctx s => s.takeAttention c ctx)

/-! ## The anchors of an EXACT request (R241, R242) -/

/-- ceil of an exact number. -/
def Dy.ceil (a : Dy) : Int := -((⟨-a.m, a.e⟩ : Dy).floorShift 0)

/-- The anchor of a row maximum, or the reason of R242. -/
def anchorOf (m : W32) : Except Nat Int :=
  let x := m.toNat
  if x = fp32Inf then .error Reason.breachInfinite
  else if x = fp32Inf + 0x80000000 then .ok 0
  else
    let c := (fp32Val x).ceil
    if c > 32767 then .error Reason.anchorRange else .ok (max (-32768) c)

/-- The anchors of all rows; else the reason of R242. Of such a breach the manual gives the reason alone: PARAM0, and AUX and FIRST_ROW
of the record, hold the highest bad maximum and its lowest row, in the form of R246 (DESIGN CHOICE, log entry 85). -/
def anchorsOf (maxima : List W32) : Except (Nat × Nat) (List Int) :=
  let bad := (List.zip (List.range maxima.length) maxima).filter fun x => match anchorOf x.2 with
    | .error _ => true
    | .ok _ => false
  let top := bad.foldl (fun (b : Option (Nat × W32)) x => match b with
    | none => some x
    | some y => if fp32Le x.2.toNat y.2.toNat then b else some x) none
  match top with
  | some (row, m) =>
    .error (if m.toNat = fp32Inf then Reason.breachInfinite else Reason.anchorRange, m.toNat + 2 ^ 32 * row)
  | none => .ok (maxima.map fun m => match anchorOf m with
    | .ok a => a
    | .error _ => 0)

/-! ## The home's passes (R294 to R302, R313) -/

/-- Whether a pass is a first pass, whose records all land at the home (R301, R313). -/
def Pass.first (p : Pass) : Bool := p == .scoreOnly || p == .cairnScore

/-- Whether a request's records of its present pass land at the home (R294, R301, R313). -/
def Req.lands (r : Req) : Bool := r.pass.first || homeMode r.graze.mode

/-- Whether the trigger counter of the present pass has reached PARTICIPANTS (R256, R294, R296, R297). -/
def Req.isFull (r : Req) : Bool :=
  r.ownDone && (r.parts.drop 1).all fun p =>
    if r.lands then p.placed else decide (p.oks ≥ if r.exact || r.cairn then 2 else 1)

/-- How many participants have advanced the trigger counter in the present pass (R294, R296, R297). -/
def Req.arrived (r : Req) : Nat :=
  (if r.ownDone then 1 else 0) + ((r.parts.drop 1).filter fun p =>
    if r.lands then p.placed else decide (p.oks ≥ if r.exact || r.cairn then 2 else 1)).length

/-- COUNT of a request's trigger counter as its participants have advanced it; advances beyond THRESHOLD have no effect (R468, R469). -/
def Req.counted (r : Req) : Req := { r with trigger := r.trigger.map fun t => { t with count := min t.threshold r.arrived } }

/-- Whether the trigger counter fires; a request of one participant has none, and goes on when its own record is complete (R295, R469). -/
def Req.fired (r : Req) : Bool :=
  match r.counted.trigger with
  | some t => t.fired
  | none => r.isFull

/-- The row maxima of every participant (R241). -/
def Req.allMaxima (r : Req) : List W32 :=
  if r.landedMax.isEmpty then r.maxima else List.zipWith (fun x y => BitVec.ofNat 32 (fp32Max x.toNat y.toNat)) r.maxima r.landedMax

/-- Whether the way to some participant is lost (R307). -/
def State.partsLost (s : State) (r : Req) : Bool := r.parts.any fun p => p.node != s.nodeId && !s.peerUp p.node

/-- Sends every participant its CONTINUE forward (R302, R313). -/
def State.sendContinues (s : State) (ctx : Nat) (r : Req) (rest : Nat → Participant → List Byte) : State :=
  (List.zip (List.range r.parts.length) r.parts).foldl (fun s x =>
    if x.1 = 0 then s else s.sendForward ctx x.1 3 (rest x.1 x.2)) s

/-- The home's counter has reached PARTICIPANTS: the next pass, the result record, or the OK reply (R295, R298, R302,
R313). A CONTINUE that cannot be sent ends the request (R307). -/
def State.advance (s : State) (ctx : Nat) : State :=
  match s.req ctx with
  | none => s
  | some r =>
    match s.layout r.layout with
    | none => s
    | some l =>
      let s := s.modReq ctx Req.counted
      if !r.fired || r.readyForResult then s else
      if r.pass.first && s.partsLost r then s.endReq ctx (Ans.miss Reason.participantLost) else
      match r.pass with
      | .scoreOnly =>
        match anchorsOf r.allMaxima with
        | .error (reason, p0) => s.endReq ctx { status := Status.anchorBreach, reason := reason, p0 := p0 }
        | .ok as =>
          let s := s.sendContinues ctx r fun _ _ => pad16 ((as.map fun a => le 2 (ofSigned 16 a)).flatten)
          s.startSumming ctx r l as []
      | .cairnScore =>
        let sel := (List.range l.kvHeads).map (r.selection l)
        let s := s.sendContinues ctx r fun k p =>
          selectionList k r.cmd.requestId (sel.map fun x => x.filter fun i => decide (p.first ≤ i) && decide (i < p.last))
        s.startSumming ctx r l r.anchors (sel.map fun x => x.map fun i => (i, 0))
      | _ =>
        if homeMode r.graze.mode then s.modReq ctx fun r => { r with triggeredAt := s.now, readyForResult := true }
        else s.endReq ctx (Ans.ok)

/-- Adds a FIRN partial at the home (R250). -/
def Req.addSums (r : Req) (mask : Nat) (rows : List Partial) : Req :=
  { r with mask := Nat.lor r.mask mask, combined := if r.combined.isEmpty then rows else addPartials r.combined rows }

/-- Adds compact rows at the home, in the order of their placement (R269, R270). -/
def Req.addCompact (r : Req) (rows : List (W32 × W32 × List W32)) : Req :=
  { r with compact := if r.compact.isEmpty then rows else List.zipWith combineCompact r.compact rows }

/-- The larger of two lists of row maxima (R241). -/
def maxRows (a b : List W32) : List W32 := List.zipWith (fun x y => BitVec.ofNat 32 (fp32Max x.toNat y.toNat)) a b

/-- The lowest-numbered HOST QP in RTS of a subscriber (R481). -/
def State.hostQpOf (s : State) (sub : Nat) : Option Nat :=
  (s.net.qps.find? fun q => q.2.kind == .host && q.2.state == .rts && q.2.subscriber == sub).map (·.1)

/-- Some node of the fabric that holds the region of a request: the manual does not say how a node knows it (log entry
4). -/
def State.regionNode (s : State) : Option Nat × State :=
  let others := ((s.node.fabric.map (·.nodes)).getD []).filter fun n => n.id != s.nodeId
  let (k, s) := s.drawBelow others.length
  ((others[k]?).map (·.id), s)

/-- This node's record has been delivered: the home's counter advances, a participant replies OK (R291, R296, R297). -/
def State.recordDelivered (s : State) (ctx : Nat) : State :=
  match s.req ctx with
  | none => s
  | some r => if r.isForward then s.endReq ctx (Ans.ok) else (s.modReq ctx fun r => { r with ownDone := true, ownSent := false }).advance ctx

/-- Sends this node's FIRN record into the shared region of a REGION request: to a region of its own as a near-memory command behind
those that passed the region's arbiter before (R296, R520, R543; log entry 44). -/
def State.reduceOwn (s : State) (ctx : Nat) (r : Req) (record : List Byte) : State :=
  match s.region r.graze.target with
  | some _ =>
    match s.reduceRefusal r.graze.target r.graze.key.toNat record with
    | some a => s.endReq ctx a
    | none =>
      (s.modReq ctx fun r => { r with ownSent := true }).queueNear { r.cmd with deadline := r.deadline } (.reduce record) r.graze.target
        r.graze.key.toNat (reduceLen record) (some ctx)
  | none =>
    match s.regionNode with
    | (none, s) => s.endReq ctx (Ans.miss Reason.participantLost)
    | (some j, s) =>
      if !s.linkUp j then s.endReq ctx (Ans.miss Reason.participantLost) else
      let (id, s) := s.drawWord
      (s.modReq ctx fun r => { r with ownSent := true, ownAt := some j }).sendCommand j 6
        { opcode := 0x040A, requestId := id, targetId := r.graze.target, param0 := BitVec.ofNat 64 r.graze.key.toNat } record

/-- Writes this node's FIRN record into its slot of a HOST request, on the QP of R481 (R284, R297). -/
def State.hostOwn (s : State) (ctx : Nat) (r : Req) (record : List Byte) : State :=
  match s.hostQpOf r.subscriber with
  | none => s.endReq ctx (Ans.state Reason.hostQpAbsent)
  | some q =>
    let at_ := r.graze.target.toNat + r.participant * hostSlot r.graze.resultLen
    (s.modReq ctx fun r => { r with ownSent := true }).writeChain q (BitVec.ofNat 64 at_) r.graze.key record (.hostRecord ctx)

/-- A participant writes a record into its landing slot at the home (R294). -/
def State.landAtHome (s : State) (r : Req) (record : List Byte) : State :=
  s.post (s.nodeQp r.home) 6 [.write (BitVec.ofNat 64 r.landing) 0 record (some (BitVec.ofNat 32 r.landing))]

/-- Whether the combination with rows would carry a COUNT beyond 2^24 (R238). -/
def Req.countExceeds (r : Req) (rows : List Partial) : Bool :=
  !r.combined.isEmpty && (addPartials r.combined rows).any fun p => decide (p.count > 2 ^ 24)

/-- This node's own part of a summing pass is complete (R251, R294 to R297). A combination beyond the bound of R238 is not performed and
counts as a landed record's does (log entry 95). -/
def State.ownSum (s : State) (ctx : Nat) (r : Req) (l : Layout) : State :=
  if r.graze.mode = 3 then s.reduceOwn ctx r (s.ownRecord r l)
  else if r.graze.mode = 4 then s.hostOwn ctx r (s.ownRecord r l)
  else if r.isForward then (s.landAtHome r (s.ownRecord r l)).endReq ctx (Ans.ok)
  else
    let s := if bit r.mask 0 then s.bump Ctr.firnDup else s
    if !bit r.mask 0 && r.countExceeds r.partials then s.bump Ctr.firnMismatch else
    (s.modReq ctx fun r =>
      if bit r.mask 0 then { r with ownDone := true } else
      let r := r.addSums 1 r.partials
      let r := if r.graze.mode = 5 then r.addCompact ((List.zip r.anchors r.partials).map fun x => compactRow x.1 x.2) else r
      { r with ownDone := true }).advance ctx

/-- A participant's first pass is complete: its record lands at the home and it waits for CONTINUE (R301, R313). -/
def State.firstDone (s : State) (ctx : Nat) (r : Req) (record : List Byte) : State :=
  if r.isForward then (s.landAtHome r record).modReq ctx fun r => { r with waitsContinue := true }
  else (s.modReq ctx fun r => { r with ownDone := true }).advance ctx

/-- This node's own work of a pass has ended (R251, R294). -/
def State.partialComplete (s : State) (ctx : Nat) : State :=
  match s.req ctx with
  | none => s
  | some r =>
    if r.outstanding ≠ 0 || !r.stalls.isEmpty || r.rows.isEmpty || r.ownDone || r.ownSent || r.waitsContinue then s else
    match s.layout r.layout with
    | none => s
    | some l =>
      match r.pass with
      | .scoreOnly => s.firstDone ctx r (s.maxRecord r l)
      | .cairnScore =>
        match s.ownCandidates ctx r l with
        | (none, s) => s
        | (some cs, s) =>
          let merged := (List.range l.kvHeads).map fun h => mergeRanked r.graze.cairnK (r.candidates.getD h []) (cs.getD h [])
          (s.modReq ctx fun r => { r with candidates := merged }).firstDone ctx r (candidateBlock r.participant r.cmd.requestId cs)
      | _ => s.ownSum ctx r l

/-- NEAR_REDUCE_REPLY: the node's own NEAR_REDUCE has been answered (R296). A reply with a status that R14 does not define is malformed: it
is no reply. -/
def execNearReduceReply (ctx : Nat) (status : BitVec 8) (reason : W16) (s : State) : Host.Outcome State Fault Refusal :=
  match s.req ctx with
  | none => .next s
  | some r =>
    if !r.ownSent || r.graze.mode ≠ 3 || status.toNat ≥ 16 then .next s
    else if status = 0 then .next (s.recordDelivered ctx)
    else .next (s.endReq ctx { status := status.toNat, reason := reason.toNat })

/-! ## Records that land at the home (R253 to R256, R261, R294) -/

/-- The compact rows of a COMPACT record, with the flags of each row as a partial that holds nothing else. -/
def parseCompact (b : List Byte) : Option (FirnHdr × List (W32 × W32 × List W32) × List Partial) :=
  let h := FirnHdr.decode b
  let infos := (slice b 64 h.rowCount).map BitVec.toNat
  let start := 64 + roundUp h.rowCount 16
  let size := 8 + 4 * h.ev
  let w := fun off => BitVec.ofNat 32 (fieldAt b off 4)
  if recordFrameOk b && h.kind == 4 && infos.length == h.rowCount && infos.all (fun i => i % 4 == 0 && i < 64) &&
     h.aux == 0 && b.length == start + size * h.rowCount then
    some (h,
      (List.range h.rowCount).map fun r =>
        (w (start + size * r), w (start + size * r + 4), (List.range h.ev).map fun j => w (start + size * r + 8 + 4 * j)),
      infos.map fun i =>
        { n := [], l := if bit i 4 || bit i 5 then 0 else 1, count := if bit i 4 then 0 else 1
          valueSat := bit i 2, nanScore := bit i 3 })
  else none

/-- The maxima of a SCORE_MAX record. -/
def parseMaxima (b : List Byte) : Option (FirnHdr × List W32) :=
  let h := FirnHdr.decode b
  if recordFrameOk b && h.kind == 5 && h.aux == 0 && b.length == 64 + 4 * h.rowCount then
    some (h, (List.range h.rowCount).map fun r => BitVec.ofNat 32 (fieldAt b (64 + 4 * r) 4))
  else none

/-- Whether a record's fields of R249, overlap apart, are those of a request. -/
def Req.fits (r : Req) (l : Layout) (h : FirnHdr) : Bool :=
  h.requestId == r.cmd.requestId.toNat && h.cid == r.cid && h.layer == r.layer && h.snapshot == r.snapshot &&
  h.modTag == r.modTag.toNat && h.firstRow == 0 && h.rowCount == r.graze.rowCount l && h.ev == l.valueLen

/-- What the home makes of a landed record: the participants whose contributions it brings, and the request with them. -/
inductive Landing where
  | malformed
  | mismatch
  | again
  | badBlock
  | take (mask : Nat) (f : Req → Req)

/-- A combinable record of R249 is taken; one that overlaps what is combined is a duplicate, and one that would carry a COUNT beyond 2^24
is not performed, and counts as a mismatch. One that both overlaps and differs in another field is a mismatch (R238, R249, R253, R254; log
entry 95). -/
def Req.combine (r : Req) (l : Layout) (h : FirnHdr) (rows : List Partial) (same : Bool) (f : Req → Req) : Landing :=
  if !(r.fits l h && same) then .mismatch
  else if Nat.land h.mask r.mask ≠ 0 then .again
  else if r.countExceeds rows then .mismatch
  else .take h.mask f

/-- Judges a record by the pass that its request runs (R238, R249, R253, R254, R261, R315). A record of a FIRN kind is no candidate block:
it is discarded as not combinable (R254). -/
def Req.judge (r : Req) (l : Layout) (k : Nat) (b : List Byte) : Landing :=
  match r.pass with
  | .cairnScore =>
    if recordFrameOk b then .mismatch else
    match parseCandidates r.graze.cairnK k l.kvHeads r.cmd.requestId b with
    | none => .badBlock
    | some cs =>
      if ((r.parts[k]?).map (·.placed)).getD true then .again else
      .take (2 ^ k) fun r =>
        { r with candidates := (List.range l.kvHeads).map fun h => mergeRanked r.graze.cairnK (r.candidates.getD h []) (cs.getD h []) }
  | .scoreOnly =>
    match parseMaxima b with
    | some (h, ms) => r.combine l h [] true fun r =>
        { r with landedMax := if r.landedMax.isEmpty then ms else maxRows r.landedMax ms, mask := Nat.lor r.mask h.mask }
    | none => if recordFrameOk b && fieldAt b 1 1 != 5 then .mismatch else .malformed
  | _ =>
    if r.graze.mode = 5 then
      match parseCompact b with
      | some (h, rows, flags) => r.combine l h [] true fun r => (r.addSums h.mask flags).addCompact rows
      | none => if recordFrameOk b && fieldAt b 1 1 != 4 then .mismatch else .malformed
    else
      match parseFirn b with
      | some (h, as, rows) => r.combine l h rows (as == r.anchors) fun r => r.addSums h.mask rows
      | none => if recordFrameOk b && fieldAt b 1 1 != 1 then .mismatch else .malformed

/-- The request and participant of a landing slot, where the record's sender is that participant (R288, R294; log entry 21). -/
def State.slotHolder (s : State) (sender slot : Nat) : Option (Nat × Nat) :=
  (s.attn.reqs.filter fun x => !x.2.isForward && x.2.lands).findSome? fun x =>
    ((List.range x.2.parts.length).find? fun k =>
      k != 0 && (16 * x.1 + k) % 65536 == slot && ((x.2.parts[k]?).map fun p => p.node == sender).getD false).map fun k => (x.1, k)

/-- Whether a record would be taken into a request. -/
def State.takes (s : State) (r : Req) (k : Nat) (b : List Byte) : Bool :=
  match (s.layout r.layout).map fun l => r.judge l k b with
  | some (.take _ _) => true
  | _ => false

/-- The request that a landed record belongs to, and the participant that its slot names. A record goes by its REQUEST_ID and CID, whoever
sent it, to the context that can combine it where several have them (R249, R255); what is no record, a candidate block or a damaged
one, goes by its slot (R261, R315). -/
def State.landingOf (s : State) (sender slot : Nat) (data : List Byte) : Option (Nat × Nat) :=
  if !recordFrameOk data then s.slotHolder sender slot else
  let mine := s.attn.reqs.filter fun x =>
    !x.2.isForward && x.2.lands && x.2.cmd.requestId.toNat == fieldAt data 8 8 && x.2.cid == fieldAt data 16 6
  ((mine.find? fun x => s.takes x.2 0 data).or mine.head?).map fun x =>
    (x.1, (((s.slotHolder sender slot).filter fun h => h.1 == x.1).map (·.2)).getD 0)

/-- A reply time of a node, of which the last 64 are kept (R305). -/
def State.sampleReply (s : State) (node t : Nat) : State :=
  s.modAttn fun a =>
    let xs := Table.getD a.replyTimes node [] ++ [t]
    { a with replyTimes := Table.set a.replyTimes node (xs.drop (xs.length - 64)) }

/-- A record is placed for the participants whose contributions it brings (R253, R254, R261, R294). The reply time of a first forward is
sampled here, though its OK reply waits for CONTINUE (R305; DESIGN CHOICE, log entry 94). -/
def State.placeRecord (s : State) (ctx k : Nat) (b : List Byte) : State :=
  match s.req ctx with
  | none => s
  | some r =>
    match s.layout r.layout with
    | none => s
    | some l =>
      match r.judge l k b with
      | .malformed => s.bump Ctr.firnRecordFail
      | .mismatch => s.bump Ctr.firnMismatch
      | .again => s.bump Ctr.firnDup
      | .badBlock => s.endReq ctx (Ans.retry Reason.cairnBlock)
      | .take mask f =>
        let mine := (List.zip (List.range r.parts.length) r.parts).filter fun x => x.1 != 0 && bit mask x.1
        let s := if r.pass.first then mine.foldl (fun s x => s.sampleReply x.2.node (s.now - x.2.forwardedAt)) s else s
        (s.modReq ctx fun r => { f r with parts := mine.foldl (fun ps x => modifyAt ps x.1 fun p => { p with placed := true }) r.parts }).advance ctx

/-- The participant whose contribution comes first in what has landed: the lowest of a record's PART_MASK, or that of a block. -/
def landedNumber (k : Nat) (data : List Byte) : Nat :=
  if recordFrameOk data then ((List.range 16).find? fun i => bit (fieldAt data 6 2) i).getD k else k

/-- Whether the partial of a lower participant for the same request is still in the queue of this cycle: the home's own, or one that
lands (R256, R270; log entry 79). -/
def State.recordAhead (s : State) (ctx n : Nat) : Bool :=
  s.pending.any fun i => match i with
    | .homePartialComplete c => c == ctx && decide (0 < n) && (s.req ctx).any fun r => !r.ownDone
    | .landingRecordPlace p slot data =>
      (s.landingOf (s.peerOf p.qp) slot data).any fun x => x.1 == ctx && decide (landedNumber x.2 data < n)
    | _ => false

/-- Of the records that wait, the first of the lowest participant. -/
def lowestHeld (l : List (Nat × Nat × List Byte)) : Option (Nat × Nat × List Byte) :=
  l.foldl (fun (b : Option (Nat × Nat × List Byte)) x => match b with
    | none => some x
    | some y => if x.1 < y.1 then some x else some y) none

/-- The records that have landed for a request are placed, each in its turn (R256, R270). -/
def State.placeHeld (s : State) (ctx fuel : Nat) : State :=
  match fuel with
  | 0 => s
  | fuel + 1 =>
    match (s.req ctx).bind fun r => lowestHeld r.held with
    | none => s
    | some x =>
      if s.recordAhead ctx x.1 then s else
      State.placeHeld ((s.modReq ctx fun r => { r with held := r.held.erase x }).placeRecord ctx x.2.1 x.2.2) ctx fuel

/-- The records of a request whose turn has come. -/
def State.placeTurn (s : State) (ctx : Nat) : State := s.placeHeld ctx (((s.req ctx).map (·.held.length)).getD 0)

/-- What of landed records still waits at the end of the cycle is placed. -/
def State.placeAll (s : State) : State := s.attn.reqs.foldl (fun s x => s.placeTurn x.1) s

/-- HOME_PARTIAL_COMPLETE. -/
def execHomePartialComplete (ctx : Nat) (s : State) : Host.Outcome State Fault Refusal := .next ((s.partialComplete ctx).placeTurn ctx)

/-- Whether the CRC-32C of what came to a landing slot holds: that of a candidate block or of a record, as the slot awaits it, or
of either where nothing is awaited (R257, R315). -/
def landedCrcOk (awaitsBlock : Option Bool) (data : List Byte) : Bool :=
  match awaitsBlock with
  | some true => crcSealed data
  | some false => recordCrcOk data
  | none => recordCrcOk data || crcSealed data

/-- LANDING_RECORD_PLACE: an RDMA WRITE with immediate into the landing area. The CRC of a record or of a candidate block that fails is
reported (R255, R294, R621, R629). What comes after its context has ended counts in FIRN_LATE where its CRC and header hold, whatever its
body (log entry 95). -/
def execLandingRecordPlace (p : QpPsn) (slot : Nat) (data : List Byte) (s : State) : Host.Outcome State Fault Refusal :=
  if !s.takesCommands || !s.rts p.qp || (s.qp p.qp).kind != .node then .next s else
  let (ok, s) := s.wireOk p.qp
  if !ok then .next s else
  let (next, s) := s.inOrder p.qp p.psn
  if !next then .next s else
  let s := s.ackMessage p.qp data.length
  let holder := s.landingOf (s.peerOf p.qp) slot data
  let awaited := (holder.bind fun x => s.req x.1).map fun r => r.pass == .cairnScore
  let block := awaited == some true
  let (struck, s) := if block then s.unitStruck 21 3 else s.checkStruck Blk.firn 0 19
  let data := if block then struckCrc struck data else struckRecord struck data
  let s := if landedCrcOk awaited data then s else s.checkFailed (if block then Blk.ctx else Blk.firn) slot struck
  match holder with
  | none => .next (s.bump (if recordFrameOk data || crcSealed data then Ctr.firnLate else Ctr.firnRecordFail))
  | some (ctx, k) => .next ((s.modReq ctx fun r => { r with held := r.held ++ [(landedNumber k data, k, data)] }).placeTurn ctx)

/-! ## Replies and the end (R295, R299, R300, R303, R306) -/

/-- The higher of two scores; the lower row among equals (R246). -/
def higher (a : Option (W32 × Nat)) (b : W32 × Nat) : Option (W32 × Nat) :=
  match a with
  | none => some b
  | some x =>
    if !fp32Le b.1.toNat x.1.toNat || (fp32Le x.1.toNat b.1.toNat && decide (b.2 < x.2)) then some b else some x

/-- The failure replies of a request's participants that are still in the queue of this cycle: participant, status, PARAM0 (R299). -/
def State.failures (s : State) (ctx : Nat) (r : Req) : List (Nat × Nat × Nat) :=
  s.pending.filterMap fun i => match i with
    | .participantReply c k st _ p0 =>
      if c = ctx && k ≠ 0 && k < r.parts.length && st ≠ 0 && st.toNat < 16 then some (k, st.toNat, p0.toNat) else none
    | _ => none

/-- A participant's failure ends its request, but for two cases of one cycle: the release of the result write wins, and of several
failures that of the lowest participant is taken (R299). The highest score of the cycle's breaches is reported (R246, R247). A
reply by NODE_STATE is of a participant that is lost (R307). -/
def State.partFailed (s : State) (ctx : Nat) (r : Req) (k : Nat) (status reason p0 : Nat) : State :=
  let others := s.failures ctx r
  if s.releaseWins ctx then s
  else if others.any (fun x => x.1 < k) then
    if status = Status.anchorBreach then s.modReq ctx fun r => { r with breachHigh := higher r.breachHigh (BitVec.ofNat 32 p0, p0 / 2 ^ 32) } else s
  else if reason = Reason.nodeState then s.endReq ctx (Ans.miss Reason.participantLost)
  else
    let breaches := p0 :: (others.filter fun x => x.2.1 == Status.anchorBreach).map fun x => x.2.2
    let top := breaches.foldl (fun a x => higher a (BitVec.ofNat 32 x, x / 2 ^ 32)) r.breachHigh
    s.endReq ctx { status := status, reason := reason
                   p0 := if status = Status.anchorBreach then (top.map fun x => x.1.toNat + 2 ^ 32 * x.2).getD 0 else 0 }

/-- PARTICIPANT_REPLY: a participant's reply to a forward (R291, R299, R304, R305). A status that R14 does not define makes it malformed:
it is no reply. -/
def execParticipantReply (ctx participant : Nat) (status : BitVec 8) (reason : W16) (param0 : W64) (s : State) :
    Host.Outcome State Fault Refusal :=
  match s.req ctx with
  | none => .next s
  | some r =>
    match (if r.isForward || participant = 0 || status.toNat ≥ 16 then none else r.parts[participant]?) with
    | none => .next s
    | some p =>
      if status ≠ 0 then
        .next ((s.sampleReply p.node (s.now - p.forwardedAt)).partFailed ctx r participant status.toNat reason.toNat param0.toNat)
      else
        let done := decide (p.oks + 1 ≥ if r.exact || r.cairn then 2 else 1)
        let s := s.modReq ctx fun r => { r with parts := modifyAt r.parts participant fun p =>
          { p with oks := p.oks + 1, replied := p.replied || done } }
        let s := if done then s.sampleReply p.node (s.now - p.forwardedAt) else s
        .next ((s.advance ctx).foresee ctx)

/-- RESULT_RECORD_DONE: the result record is finished and its write released; the request ends OK (R295, R299). -/
def execResultRecordDone (ctx : Nat) (s : State) : Host.Outcome State Fault Refusal :=
  match s.req ctx with
  | none => .next s
  | some r =>
    match s.layout r.layout with
    | none => .next s
    | some l =>
      if !r.readyForResult then .next s else
      let s := s.modAttn fun a =>
        let xs := a.releaseTimes ++ [s.now - r.triggeredAt]
        { a with releaseTimes := xs.drop (xs.length - 64) }
      .next (s.endReq ctx { status := Status.ok, result := s.resultRecord r l, item := r.graze.item, keep := true })

/-- GRAZE_DEADLINE: unless the result write is released in the same cycle (R299, R306). -/
def execGrazeDeadline (ctx : Nat) (s : State) : Host.Outcome State Fault Refusal :=
  match s.req ctx with
  | none => .next s
  | some r => .next (if !r.isForward && s.now ≥ r.deadline then s.failReq ctx (Ans.miss Reason.deadlinePassed) else s)

/-- PARTICIPANT_DEADLINE (R303, R306). -/
def execParticipantDeadline (ctx : Nat) (s : State) : Host.Outcome State Fault Refusal :=
  match s.req ctx with
  | none => .next s
  | some r => .next (if r.isForward && s.clk.ptp ≥ r.deadline then s.endReq ctx (Ans.miss Reason.deadlinePassed) else s)

/-! ## Kept results (R386 to R389) -/

/-- GONE with a reason. -/
def Ans.gone (reason : Nat) : Ans := { status := Status.gone, reason := reason }

/-- A named request without a kept reply: why RESULT_FETCH and RESULT_RELEASE answer GONE (R387, R389). -/
def goneReason (rc : Option Record) : Nat :=
  match rc.map fun (r : Record) => r.state with
  | some .released => Reason.resultReleased
  | some .expired => Reason.resultExpired
  | _ => Reason.unknownRequest

/-- RESULT_FETCH (R387, R388). -/
def State.fetchResult (s : State) (c : Cmd) (ctx : CmdCtx) : State :=
  if c.payload.length ≠ 16 then s.finish ctx (Ans.param Reason.payloadFormat) else
  let it := resultItemAt c.payload 0
  if !itemFits ctx.src it 0 then s.finish ctx (Ans.param Reason.resultSpace) else
  match s.record ctx.subscriber c.hdr.param0 with
  | none => s.finish ctx (Ans.gone Reason.unknownRequest)
  | some rc =>
    match rc.state, rc.reply with
    | .inProgress, _ =>
      let (e, s) := s.estimateFor ctx.subscriber c.hdr.param0
      s.finish ctx { status := Status.notReady, reason := Reason.requestInProgress, p0 := e }
    | .ended, some rp =>
      let a : Ans := { status := rp.status, reason := rp.reason, p0 := rp.param0.toNat, p1 := rp.param1.toNat }
      if rc.kept.isEmpty then (s.setRecord { rc with delivered := true }).finish ctx { a with again := rc.delivered }
      else if itemFits ctx.src it rc.kept.length then
        (s.setRecord { rc with delivered := true, resultDelivered := true }).finish ctx
          { a with result := rc.kept, item := it, again := rc.resultDelivered }
      else s.finish ctx (Ans.param Reason.resultSpace)
    | _, _ => s.finish ctx (Ans.gone (goneReason (some rc)))

/-- RESULT_RELEASE (R389). -/
def State.releaseResult (s : State) (c : Cmd) (ctx : CmdCtx) : State :=
  s.noPayload c ctx fun s =>
    match s.record ctx.subscriber c.hdr.param0 with
    | none => s.finish ctx (Ans.gone Reason.unknownRequest)
    | some rc =>
      match rc.state with
      | .inProgress => s.finish ctx (Ans.state Reason.resultInProgress)
      | .ended => (s.closeRecord rc .released).finish ctx (Ans.ok)
      | _ => s.finish ctx (Ans.gone (goneReason (some rc)))

/-- The request that a waiting command ends, if it ends one: the release of its result, its deadline, or a participant's failure. -/
def State.endedBy (s : State) (i : Instr) : Option Nat :=
  match i with
  | .resultRecordDone ctx => if (s.req ctx).any (·.readyForResult) then some ctx else none
  | .grazeDeadline ctx => if (s.req ctx).any fun r => !r.isForward && decide (s.now ≥ r.deadline) then some ctx else none
  | .participantReply ctx _ status _ _ => if status != 0 then some ctx else none
  | _ => none

/-- The RESULT_FETCH or RESULT_RELEASE that a block command brings. -/
def resultCmd (i : Instr) : Option Cmd :=
  match i with
  | .resultFetch c => some c
  | .resultRelease c => some c
  | _ => none

/-- Whether something of the same cycle goes ahead of a fetch or release of a request: its end, and those from lower QPs that name the
request (R390; log entry 79). -/
def State.resultAhead (s : State) (c : Cmd) (ctx : CmdCtx) : Bool :=
  let same := fun (d : Cmd) => s.subscriberOf d.src == ctx.subscriber && d.hdr.param0 == c.hdr.param0
  s.pending.any (fun i =>
    ((s.endedBy i).bind s.req).any (fun r => r.cmd.subscriber == ctx.subscriber && r.cmd.requestId == c.hdr.param0) ||
    (resultCmd i).any fun d => same d && decide (srcKey d.src < srcKey ctx.src)) ||
  s.net.fetches.any fun x => same x.1 && decide (srcKey x.2.src ≤ srcKey ctx.src)

/-- What a fetch or a release does, by its opcode. -/
def State.resultPass (s : State) (c : Cmd) (ctx : CmdCtx) : State :=
  if ctx.opcode = 0x0305 then s.fetchResult c ctx else s.releaseResult c ctx

/-- A fetch or release is taken, or stands behind what goes ahead of it in its cycle, in QP order (R390). -/
def State.atResult (s : State) (c : Cmd) (ctx : CmdCtx) : State :=
  if s.resultAhead c ctx then
    s.modNet fun n =>
      { n with
        fetches := n.fetches.filter (fun x => decide (srcKey x.2.src ≤ srcKey ctx.src)) ++ [(c, ctx)] ++
          n.fetches.filter (fun x => !decide (srcKey x.2.src ≤ srcKey ctx.src)) }
  else s.resultPass c ctx

/-- At the end of a cycle the fetches and releases that stood behind others are taken in turn (R390). -/
def State.passFetches (s : State) : State :=
  s.net.fetches.foldl (fun s x => s.resultPass x.1 x.2) (s.modNet fun n => { n with fetches := [] })

/-- RESULT_FETCH. -/
def execResultFetch (c : Cmd) (s : State) : Host.Outcome State Fault Refusal :=
  .next (s.onArrive 0x0305 c fun c ctx s => s.atResult c ctx)

/-- RESULT_RELEASE. -/
def execResultRelease (c : Cmd) (s : State) : Host.Outcome State Fault Refusal :=
  .next (s.onArrive 0x0306 c fun c ctx s => s.atResult c ctx)

/-- RECORD_KEEP_EXPIRY: KEEP_MS has passed since the request ended (R382, R386). -/
def execRecordKeepExpiry (subscriber : Nat) (requestId : W64) (s : State) : Host.Outcome State Fault Refusal :=
  match s.record subscriber requestId with
  | none => .next s
  | some rc =>
    .next (if rc.state == .ended && s.now ≥ rc.keepUntil then s.closeRecord rc .expired else s)

/-! ## Layouts and modifier programs (R58 to R60, R213 to R215) -/

/-- Whether a layout slot is bound: to a conversation, to a published version whose content names it (R60), or to a request in
progress of a conversation that has been closed (R56, R90). -/
def State.layoutInUse (s : State) (slot : Nat) : Bool :=
  (s.attn.reqs.any fun r => r.2.layout == slot) || (s.convs.any fun c => c.2.layout == slot) || (s.regions.versions.any fun v => v.2.content != 0 && v.2.layout == slot)

/-- LAYOUT_DEFINE. -/
def execLayoutDefine (c : Cmd) (s : State) : Host.Outcome State Fault Refusal :=
  .next (s.onArrive 0x0307 c fun c ctx s =>
    let slot := c.hdr.targetId.toNat
    let l := Layout.decode c.payload
    if !Layout.recordOk c.payload then s.finish ctx (Ans.param Reason.layoutFormat)
    else if l.pageBytes > Config.dataBytes then s.finish ctx (Ans.param Reason.layoutTooLarge)
    else if s.layoutInUse slot then s.finish ctx (Ans.state Reason.layoutInUse)
    else (s.modAttn fun a => { a with layouts := Table.set a.layouts slot l }).finish ctx (Ans.ok))

/-- Whether an item of a gate row is an attention request that names a modifier slot. -/
def RowItem.usesModifier (slot : Nat) : RowItem → Bool
  | .cmd c _ => (c.hdr.opcode == 0x0301 || c.hdr.opcode == 0x0302 || c.hdr.opcode == 0x0304) && fieldAt c.payload 11 1 == slot
  | .append _ => false

/-- Whether a request or pass in progress uses a modifier slot (R214). A request that waits at its gate row is in progress: it has been
accepted and not answered (DEDUCED, log entry 83). -/
def State.modifierInUse (s : State) (slot : Nat) : Bool :=
  (s.convs.any fun c => c.2.row.any (RowItem.usesModifier slot)) || (s.attn.reqs.any fun r => r.2.graze.modSlot == slot) || (s.drifts.any fun d => d.state != .idle && d.modSlot == slot)

/-- MODIFIER_LOAD: the reply carries the tag in PARAM0 (R213 to R215). -/
def execModifierLoad (c : Cmd) (s : State) : Host.Outcome State Fault Refusal :=
  .next (s.onArrive 0x0308 c fun c ctx s =>
    let slot := c.hdr.targetId.toNat
    if !Modifier.recordOk c.payload then s.finish ctx (Ans.param Reason.modifierFormat)
    else if slot = 0 then s.finish ctx (Ans.param Reason.modifierSlot)
    else if s.modifierInUse slot then s.finish ctx (Ans.state Reason.modifierInUse)
    else
      let m := Modifier.decode c.payload
      (s.modAttn fun a => { a with modifiers := Table.set a.modifiers slot m }).finish ctx (Ans.ok m.tag.toNat))

end Sys2Proof.Machine
end

