-- ==== Sys2Proof/Machine/Row.lean ====
section
/-! DEFINITION. The pass of a conversation's gate row (R61 to R65): its next waiting command or append is judged against
the state that the event before it left. -/
namespace Sys2Proof.Machine

/-- A command that waited at its row passes: the meaning of its opcode at the gate. -/
def State.passCommand (s : State) (cid : Nat) (c : Cmd) (ctx : CmdCtx) : State :=
  match c.hdr.opcode.toNat with
  | 0x0201 => s.openConv c ctx
  | 0x0203 => s.sealAt cid ctx
  | 0x0204 => s.truncateAt cid c ctx
  | 0x0205 => s.forkAt cid c ctx
  | 0x0206 => s.closeAt cid ctx
  | 0x0207 => s.pinAt cid c ctx
  | 0x0208 => s.statAt cid c ctx
  | 0x0209 => s.offerAt cid c ctx
  | 0x020C => s.leaseAt cid c ctx
  | 0x0301 => s.attendAt cid c ctx false false
  | 0x0302 => s.attendAt cid c ctx true false
  | 0x0304 => s.attendAt cid c ctx false true
  | 0x0405 => s.attachAt cid c.hdr.targetId c ctx
  | 0x0406 => s.detachAt cid c.hdr.targetId ctx
  | _ => s

/-- The gates that an item of a row passes. -/
def RowItem.gates (it : RowItem) (cid : Nat) : List Nat :=
  match it with
  | .cmd c _ => gatesOf c cid
  | .append _ => [cid]

/-- A CONV_OPEN that waits at the gate of a conversation that was FREE passes, behind what goes ahead of it there in its cycle (R62). -/
def State.passOpen (s : State) (cid : Nat) (c : Cmd) (ctx : CmdCtx) : State :=
  if ctx.arrival = s.now && s.ahead cid (srcKey ctx.src + 1) then s
  else (s.modNet fun n => { n with opens := n.opens.filter fun x => x.2 != ctx }).openConv c ctx

/-- The front item of a row passes, behind what goes ahead of it at the gate (R62, R64). An append whose freeze waits for a hot frame
stays at the front (R157, R178). -/
def State.passRow (s : State) (cid : Nat) : State :=
  let s := s.gateFirst cid
  match s.openFirst cid, (s.conv cid).map (·.row) with
  | some (c, ctx), _ => s.passOpen cid c ctx
  | none, some (item :: rest) =>
    if (s.heldNext cid).isSome || (item.gates cid).any fun k => s.ahead k (if item.arrival = s.now then item.key + 1 else 1) then s else
    let s' := s.modConv cid fun c => { c with row := rest }
    match item with
    | .cmd c ctx => s'.passCommand cid c ctx
    | .append a =>
      match s'.passAppend a with
      | (true, t) => t
      | (false, t) => t.modConv cid fun c => { c with row := .append { a with stalled := true } :: c.row }
  | none, _ => s

/-- GATE_ROW_PASS. -/
def execGateRowPass (cid : Nat) (s : State) : Host.Outcome State Fault Refusal := .next (s.passRow cid)

end Sys2Proof.Machine
end

