-- ==== Sys2Proof/Machine/Tile.lean ====
section
/-! DEFINITION. The tiles at work: row groups and descriptors (R199 to R219, R224, R225, R245, R246, R346), power states
(R185, R186), failure, spares and substitution (R226 to R233, R348). -/
namespace Sys2Proof.Machine

/-! ## What a tile needs of a request or drift pass -/

/-- The inputs of a row group's scores: the environment of R199 to R219, the staged rows, their format and length, the
rows of one KV head, and whether the pass forms no weights (R202). -/
structure Job where
  env : ScoreEnv
  rows : List (List Byte)
  fmt : Nat
  len : Nat
  perHead : Nat
  scoreOnly : Bool

/-- The job of a piece of work, if its request or pass is still there. -/
def State.job (s : State) (w : Work) : Option Job :=
  if w.drift then
    let d := s.drift w.ctx
    (s.layout d.layout).map fun l =>
      let n := d.tokens * d.heads
      { env := { layout := l, modifier := d.modifier, scale := d.scale.toNat, perHead := d.heads, qpos := d.qpos, qseg := d.qseg
                 anchor := fun i => d.anchors.getD (w.group.head * n + i) 0 }
        rows := d.rows, fmt := d.rowFormat, len := d.rowLen, perHead := n, scoreOnly := false }
  else
    match s.req w.ctx with
    | none => none
    | some r => (s.layout r.layout).map fun l =>
      let n := r.graze.tokens * r.graze.heads
      { env := { layout := l, modifier := r.modifier, scale := r.graze.scale.toNat, perHead := r.graze.heads
                 qpos := r.graze.qpos, qseg := r.graze.qseg, anchor := fun i => r.anchors.getD (w.group.head * n + i) 0 }
        rows := r.rows, fmt := r.rowFormat, len := r.rowLen, perHead := n, scoreOnly := r.pass == .scoreOnly }

/-- What one descriptor adds to a row group: sums and maxima row by row, NaN scores and saturated value elements met,
the highest score with its lowest row, and whether a weight reached 2^8 (R202, R212, R218, R219, R245, R246). -/
structure TileOut where
  sums : List Partial := []
  maxima : List W32 := []
  nans : Nat := 0
  sats : Nat := 0
  high : Option (W32 × Nat) := none
  breach : Bool := false

/-- Whether a maximum is of a row that had a score. -/
def scored (m : Nat) : Bool := m != fp32Inf + 0x80000000

/-- Works the positions of one descriptor for a row group. -/
def Job.work (j : Job) (g : Group) (ps : List Position) : TileOut :=
  let at_ := fun (i : Nat) => (g.lo + i, (rowElems j.fmt j.len (j.rows.getD (g.head * j.perHead + g.lo + i) [])).getD [])
  let rows := (List.range (g.hi + 1 - g.lo)).map at_
  let maxima := rows.map fun x => j.env.rowMax g.head x.1 x.2 ps
  if j.scoreOnly then { maxima := maxima.map (BitVec.ofNat 32) } else
  let sums := rows.map fun x => j.env.rowSum g.head x.1 x.2 ps
  { sums := sums.map (·.1)
    nans := (sums.map (·.2.1)).sum
    sats := j.env.valueSats g.head g.lo (rows.map (·.2)) ps
    high := (List.zip rows maxima).foldl (fun a x =>
      if scored x.2 then higher a (BitVec.ofNat 32 x.2, g.head * j.perHead + x.1.1) else a) none
    breach := sums.any fun x => x.2.2.isSome }

/-- Adds sums row by row; an empty list is none yet. -/
def addRows (a b : List Partial) : List Partial := if a.isEmpty then b else addPartials a b

/-- The larger maxima row by row; an empty list is none yet. -/
def addMaxima (a b : List W32) : List W32 := if a.isEmpty then b else maxRows a b

/-- Replaces the rows of a list from an index on by a function of them and other rows. -/
def mergeAt {α : Type} (f : α → α → α) (l : List α) (off : Nat) (xs : List α) : List α :=
  l.take off ++ List.zipWith f (l.drop off) xs ++ l.drop (off + xs.length)

/-! ## The queue of a tile (R225, R346) -/

/-- Query slots and accumulator bytes that a row group takes (R183, R197). -/
def State.groupSize (s : State) (w : Work) : Nat × Nat :=
  match s.job w with
  | none => (0, 0)
  | some j =>
    let rows := w.group.hi + 1 - w.group.lo
    (ceilDiv (rows * rowBytes j.fmt j.len) 65536, rows * (16 * j.env.layout.valueLen + 16))

/-- The place of the first piece of work in a queue that satisfies a condition, graze and cairn requests before drift
passes (R346). -/
def firstWork (q : List Work) (f : Work → Bool) : Option Nat :=
  match q.findIdx? fun w => f w && !w.drift with
  | some i => some i
  | none => q.findIdx? f

/-- Whether a PLL is locked; the domains of one that is not are stopped (R679, R682). -/
def State.pllOn (s : State) (n : Nat) : Bool := s.clk.pll.getD n false

/-- ROW_GROUP_ACCEPT: the next waiting row group takes its query slots and accumulator bytes, once they are free. -/
def execRowGroupAccept (tile : Nat) (s : State) : Host.Outcome State Fault Refusal :=
  let t := s.tile tile
  if t.power != .run || !s.pllOn 0 then .next s else
  match firstWork t.queue fun w => !w.accepted with
  | none => .next s
  | some i =>
    let held := (t.queue.filter (·.accepted)).map s.groupSize
    let need := ((t.queue[i]?).map s.groupSize).getD (0, 0)
    if (held.map (·.1)).sum + need.1 ≤ 6 && (held.map (·.2)).sum + need.2 ≤ 1179648 then
      .next (s.modTile tile fun t => { t with queue := modifyAt t.queue i fun w => { w with accepted := true } })
    else .next s

/-! ## The end of a row group (R224, R236, R251) -/

/-- A row group whose score pass has ended stays staged at its tile (R301). -/
def State.keepStaged (s : State) (tile i : Nat) (w : Work) : State :=
  s.modTile tile fun t => { t with queue := setAt t.queue i w.stay, idleSince := s.now }

/-- A piece of work leaves its tile; the tile is idle from now on if it was its last. -/
def State.takeOff (s : State) (tile i : Nat) : State :=
  s.modTile tile fun t =>
    let q := t.queue.take i ++ t.queue.drop (i + 1)
    { t with queue := q, idleSince := s.now }

/-- A tile emits a row group's partial: it is added to the request's or pass's rows, and the frames that its
descriptors named are settled. After a score pass the row group stays staged (R142, R224, R236, R251, R301). -/
def State.emitWork (s : State) (tile i : Nat) (w : Work) : State :=
  let s := if (s.job w).any (·.scoreOnly) then s.keepStaged tile i w else s.takeOff tile i
  let s := w.descs.foldl (fun s d => s.settleFrame d.tier d.frame) s
  match s.job w with
  | none => s
  | some j =>
    let off := w.group.head * j.perHead + w.group.lo
    if w.drift then
      s.modDrift w.ctx fun d => { d with sums := mergeAt Partial.add d.sums off w.sums, accLeft := d.accLeft - 1 }
    else
      s.modReq w.ctx fun r =>
        { r with
          outstanding := r.outstanding - 1
          partials := if w.sums.isEmpty then r.partials else mergeAt Partial.add r.partials off w.sums
          maxima := if w.maxima.isEmpty then r.maxima
            else mergeAt (fun x y => BitVec.ofNat 32 (fp32Max x.toNat y.toNat)) r.maxima off w.maxima }

/-! ## Failures met at a descriptor -/

/-- A request's pass starts again from nothing when its page has been repaired: its work is dropped (R178, R616). -/
def State.restartPass (s : State) (ctx : Nat) : State :=
  match s.req ctx with
  | none => s
  | some r =>
    match s.layout r.layout with
    | none => s
    | some l => (s.dropWork false ctx).modReq ctx fun r => { r.emptySums l with outstanding := 0 }

/-- A page that a tile could not read: the request waits for its repair, a drift pass aborts (R177, R178, R353, R616). -/
def State.unreadableAt (s : State) (w : Work) (pid : Nat) : State :=
  if w.drift then
    s.detectAbort w.ctx Reason.driftLocalFailure none Status.poisoned Reason.pagePoisoned
  else ((s.restartPass w.ctx).repairOrPoison pid).stallReq w.ctx [pid]

/-- A breach of the anchor: the request ends everywhere on the node, with the highest score of the cycle's breaches; a drift pass aborts
(R245 to R247, R348). -/
def State.breachAt (s : State) (w : Work) (high : Option (W32 × Nat)) : State :=
  let s := s.bump Ctr.anchorBreach
  let waiting := if w.drift then [] else ((s.req w.ctx).map fun r => s.failures w.ctx r).getD []
  let high := (waiting.filter fun x => x.2.1 == Status.anchorBreach).foldl (fun a x => higher a (BitVec.ofNat 32 x.2.2, x.2.2 / 2 ^ 32)) high
  let p0 := match high with
    | none => 0
    | some (x, row) => x.toNat + 2 ^ 32 * row
  if w.drift then
    s.detectAbort w.ctx Reason.driftLocalFailure none Status.anchorBreach Reason.breachWeight (BitVec.ofNat 64 p0)
  else s.endReq w.ctx { status := Status.anchorBreach, reason := Reason.breachWeight, p0 := p0 }

/-- The time from a descriptor's issue, or from the tile's last end of work, to its consumption, of which the last 1,024
are kept (R305). -/
def State.samplePage (s : State) (layout since : Nat) : State :=
  s.modAttn fun a =>
    let xs := a.pageTimes ++ [(layout, s.now - since)]
    { a with pageTimes := xs.drop (xs.length - 1024) }

/-! ## Substitution (R226 to R233) -/

/-- Spare tiles not already chosen as a substitute. -/
def State.freeSpares (s : State) : List Nat :=
  (List.range 72).filter fun p =>
    (s.tile p).role == .spare && !(s.attn.logicals.any fun l => l.substitute == some p)

/-- The least number of spares of the node's grade; with no profile loaded there is no grade, and G1's 4 is taken (R231; DESIGN
CHOICE, log entry 84). -/
def State.sparesMin (s : State) : Nat :=
  match (s.node.profile.map (·.grade)).getD 1 with
  | 2 => 6
  | 3 => 8
  | _ => 4

/-- Number of spare tiles (R231). -/
def State.spares (s : State) : Nat := (s.attn.tiles.filter fun t => t.role == .spare).length

/-- Whether the node serves. -/
def State.serves (s : State) : Bool := s.node.state == .serving || s.node.state == .degraded

/-- Work of an abandoned row group, to be done again from its first descriptor (R228, R348). -/
def Work.again (w : Work) : Work :=
  { w with
    accepted := false, sums := [], maxima := [], done := 0
    descs := (w.descs.take w.done).map (fun d => { d with seen := true }) ++ w.descs.drop w.done }

/-- Whether a logical tile serves, or has served, another pair of a request in the pass in hand (R224). -/
def Req.servesOther (r : Req) (n pair : Nat) : Bool := r.served.any fun x => x.1 == n && x.2 != pair

/-- Descriptors that come to a row group already at a tile go before its last one, which stays flagged LAST (R224). -/
def Work.join (x w : Work) : Work :=
  { x with descs := x.descs.dropLast ++ (w.descs.map fun d => { d with last := false }) ++ x.descs.drop (x.descs.length - 1) }

/-- Gives a request's moved work to a logical tile: it joins the pair's row group if the tile, or the substitute that it waits for, still
has it. A tile that has emitted
the pair's partial is given the row group once more, which R224 and R230 do not foresee (DEDUCED, log entry 84). -/
def State.giveWork (s : State) (n : Nat) (w : Work) : State :=
  let same := fun (x : Work) => !x.drift && x.ctx == w.ctx && x.pair == w.pair && !x.descs.isEmpty
  let s := s.modReq w.ctx fun r => { r with served := addOnce r.served (n, w.pair) }
  let l := s.logical n
  let joined := fun (s : State) => s.modReq w.ctx fun r => { r with outstanding := r.outstanding - 1 }
  if l.valid && l.substitute.isNone then
    match (s.tile l.phys).queue.findIdx? same with
    | none => s.issueWork n w
    | some i => joined (s.modTile l.phys fun t => { t with queue := modifyAt t.queue i fun x => x.join w })
  else match l.abandoned.findIdx? same with
    | none => s.issueWork n w
    | some i => joined (s.modLogical n fun l => { l with abandoned := modifyAt l.abandoned i fun x => x.join w })

/-- A piece of work is taken from those that a logical tile's failure has left. -/
def State.takeAbandoned (s : State) (n : Nat) (w : Work) : State :=
  s.modLogical n fun l => { l with abandoned := l.abandoned.erase w }

/-- Work whose logical tile has no substitute moves within its pair, or to the lowest bound tile free for the pair, or
ends its request (R230). The pair's next bound position takes it even where it serves, by R230's second bullet, another pair of the
request: the first bullet names it (log entry 84). A staged row group without descriptors is staged again where its pair's next
descriptors go. -/
def State.moveWork (s : State) (n : Nat) (w : Work) : State :=
  match s.req w.ctx with
  | none => s
  | some r =>
    if w.descs.isEmpty then s.takeAbandoned n w else
    match s.layout r.layout with
    | none => s
    | some l =>
      let pairs := (r.pairs l).length
      let ts := pairTiles (cidFold r.cid % 64) (setWidth r.width pairs) pairs w.pair
      let live := fun k => (s.logical k).live
      match redirect live ts ((ts.findIdx? (· == n)).getD 0) with
      | some m => (s.takeAbandoned n w).giveWork m w
      | none =>
        match (List.range 64).find? fun m => live m && !r.servesOther m w.pair with
        | some m => (s.takeAbandoned n w).giveWork m w
        | none => s.endReq w.ctx (Ans.state Reason.tilesUnbound)

/-- Chooses the lowest spare for a logical tile, which wakes; without one the tile stays unbound, its work moves, and
drift passes abort (R227, R230, R353). -/
def State.chooseSubstitute (s : State) (n : Nat) : State :=
  match s.freeSpares with
  | p :: _ => (s.modLogical n fun l => { l with substitute := some p }).modTile p fun t => { t with wakeDue := some (s.now + 1600) }
  | [] =>
    let ws := (s.logical n).abandoned
    let s := s.modLogical n fun l => { l with substitute := none }
    let s := s.abortPasses (fun _ => true) Reason.driftLocalFailure
    (ws.filter fun w => !w.drift).foldl (fun s w => s.moveWork n w) s

/-- The row groups of a pass (R197, R345). -/
def Drift.groups (d : Drift) (l : Layout) : List Group :=
  (List.range l.kvHeads).flatMap fun h =>
    (rowGroups d.rowFormat d.rowLen l.valueLen (d.tokens * d.heads)).map fun g => { head := h, lo := g.1, hi := g.2 }

/-- The time that the rest of a step's accumulation is estimated to take, in the manner of R305: wake, the descriptors queued for the
busiest tile, those to be issued again among them, and the longest substitution under way (R342). -/
def State.accumNs (s : State) (d : Drift) (l : Layout) : Nat :=
  let queued := fun (x : Logical) => (((s.tile x.phys).queue ++ x.abandoned).map fun w => w.left.length).sum
  let busiest := (s.attn.logicals.map queued).foldl max 0
  let rows := ((d.groups l).map fun g => g.hi + 1 - g.lo).foldl max 0
  let wake := (s.attn.tiles.map fun t => if t.queue.isEmpty then 0 else t.power.wakeNs).foldl max 0
  let subst := ((List.range 64).map s.substLeft).foldl max 0
  wake + busiest * meanOr ((s.attn.pageTimes.filter fun x => x.1 == d.layout).map (·.2)) (pageTimeNs l rows) + subst

/-- A member estimates the end of the accumulation of its step against the close of the window (R342). -/
def State.foreseeStep (s : State) (slot : Nat) : State :=
  let d := s.drift slot
  match s.layout d.layout with
  | none => s
  | some l =>
    if d.accumulated ≤ d.step && decide (s.clk.ptp + s.accumNs d l + 500 > d.start (d.step + 1)) then
      s.detectAbort slot Reason.driftComputeLate
    else s

/-- At a substitution every request whose work waits for it, and every pass, is judged against its deadline (R233, R342). -/
def State.foreseeSubstitute (s : State) (n : Nat) : State :=
  let ctxs := ((s.logical n).abandoned.filter fun w => !w.drift).foldl (fun l w => addOnce l w.ctx) []
  let s := ctxs.foldl State.foreseeSubst s
  (List.range 16).foldl (fun s slot =>
    if (s.drift slot).state == .ready || (s.drift slot).state == .running then s.foreseeStep slot else s) s

/-- The event of R231: while the node serves, its spares have fallen below the minimum from `before`. Its DETAIL, which the manual
does not give, is the number of spares left (DESIGN CHOICE, log entry 84). -/
def State.checkSpares (s : State) (before : Nat) : State :=
  if s.serves && decide (s.sparesMin ≤ before) && decide (s.spares < s.sparesMin) then s.raise Blk.tile Reason.tileSpares s.spares else s

/-- The event and count of a tile's failure (R226, R629, R633). -/
def State.reportTile (s : State) (p : Nat) (cause : TileFault) (injected : Bool) : State :=
  match cause with
  | .sram =>
    let s := (s.bump Ctr.wcUncorrected).modBlock Blk.tile fun b => b.note s.clk.rime 31 injected
    s.raise Blk.tile Reason.tileSramFault p injected
  | .residue =>
    (s.modBlock Blk.tile fun b => b.note s.clk.rime 29 injected).raise Blk.tile
      Reason.tileResidueFault p injected
  | .test => s.raise Blk.tile Reason.tileTestFail p injected

/-- A tile fails: it is OFF for the rest of the run, its row groups are abandoned, and a spare is chosen for the logical
tile that it served or was about to serve (R226 to R232). -/
def State.failTile (s : State) (p : Nat) (cause : TileFault) (injected : Bool := false) : State :=
  let t := s.tile p
  let before := s.spares
  if t.role != .active && t.role != .spare then s else
  let s := (s.reportTile p cause injected).bump Ctr.tileFault
  let s := s.modTile p fun t => { t with role := .failed, power := .off, logical := none, wakeDue := none, queue := [] }
  let s := match t.logical with
    | none => s
    | some n =>
      let s := s.modLogical n fun l => { l with valid := false, abandoned := l.abandoned ++ t.queue.map Work.again }
      (s.chooseSubstitute n).foreseeSubstitute n
  let s := match s.attn.logicals.findIdx? fun l => l.substitute == some p with
    | none => s
    | some n => ((s.modLogical n fun l => { l with substitute := none }).chooseSubstitute n).foreseeSubstitute n
  s.checkSpares before

/-- The active tiles whose failures wait in the queue of this cycle and whose logical number is below a tile's, in ascending logical
number, with their causes (R227; log entry 79). -/
def State.failsAhead (s : State) (tile : Nat) : List (Nat × TileFault) :=
  let mine := (s.tile tile).logical.getD 0
  let all : Table (Nat × TileFault) := s.pending.foldl (fun l i =>
    match i with
    | .tileFail p c =>
      match (s.tile p).role, (s.tile p).logical with
      | .active, some n => if n < mine && (Table.get l n).isNone then Table.set l n (p, c) else l
      | _, _ => l
    | _ => l) []
  all.map (·.2)

/-- TILE_FAIL: of the active tiles that fail in one cycle, the lower logical number is served first (R227). -/
def execTileFail (tile : Nat) (cause : TileFault) (s : State) : Host.Outcome State Fault Refusal :=
  .next (((s.failsAhead tile).foldl (fun s x => s.failTile x.1 x.2) s).failTile tile cause)

/-- SPARE_BIND: the spare, once awake, has been tested; it is bound and takes the abandoned work, or fails and the next spare is
taken (R227, R228, R232). -/
def execSpareBind (logical : Nat) (testPassed : Bool) (s : State) : Host.Outcome State Fault Refusal :=
  match (s.logical logical).substitute with
  | none => .next s
  | some p =>
    if s.now < (s.tile p).wakeDue.getD 0 then .next s
    else if testPassed then
      let ws := (s.logical logical).abandoned
      let before := s.spares
      let s := s.modLogical logical fun l => { l with phys := p, valid := true, substitute := none, abandoned := [] }
      let s := s.modTile p fun t =>
        { t with role := .active, power := .run, logical := some logical, idleSince := s.now, wakeDue := none, queue := ws, lastTest := s.now }
      .next ((s.bump Ctr.tileSubst).checkSpares before)
    else .next (s.failTile p .test)

/-- SPARE_TEST: every 10 s of Rime time (R232). -/
def execSpareTest (tile : Nat) (testPassed : Bool) (s : State) : Host.Outcome State Fault Refusal :=
  let t := s.tile tile
  if t.role != .spare || s.now < t.lastTest + 10000000000 then .next s
  else if testPassed then .next (s.modTile tile fun t => { t with lastTest := s.now })
  else .next (s.failTile tile .test)

/-! ## Power (R185, R186) -/

/-- Whether an active tile has had no descriptor since an instant. -/
def Tile.idleFor (t : Tile) (now ns : Nat) : Bool := t.role == .active && t.queue.all (fun w => w.left.isEmpty) && decide (now ≥ t.idleSince + ns)

/-- TILE_CLOCK_STOP. -/
def execTileClockStop (tile : Nat) (s : State) : Host.Outcome State Fault Refusal :=
  let t := s.tile tile
  .next (if t.power == .run && t.idleFor s.now s.regs.stopAfterNs then s.modTile tile fun t => { t with power := .clockStop } else s)

/-- TILE_GATE. -/
def execTileGate (tile : Nat) (s : State) : Host.Outcome State Fault Refusal :=
  let t := s.tile tile
  .next (if (t.power == .run || t.power == .clockStop) && s.regs.gateAfterUs != 0 && t.idleFor s.now (1000 * s.regs.gateAfterUs) then
    s.modTile tile fun t => { t with power := .gated }
  else s)

/-- TILE_WAKE: a tile ordered out of CLOCK_STOP or GATED reaches RUN; a spare that has been chosen does at its binding (R186). -/
def execTileWake (tile : Nat) (s : State) : Host.Outcome State Fault Refusal :=
  match (s.tile tile).wakeDue with
  | none => .next s
  | some t => .next (if s.now ≥ t && (s.tile tile).role == .active then s.modTile tile fun t => { t with power := .run, wakeDue := none } else s)

/-! ## One descriptor (R199 to R219) -/

/-- The highest score of a request or pass so far (R246). -/
def State.noteHigh (s : State) (w : Work) (high : Option (W32 × Nat)) : State :=
  match high with
  | none => s
  | some x =>
    if w.drift then s.modDrift w.ctx fun d => { d with high := higher d.high x }
    else s.modReq w.ctx fun r => { r with high := higher r.high x }

/-- The highest score that a breach reports (R246). -/
def State.highOf (s : State) (w : Work) (high : Option (W32 × Nat)) : Option (W32 × Nat) :=
  if w.drift then (s.drift w.ctx).high.or high else ((s.req w.ctx).bind (·.high)).or high

/-- The thawed positions of a descriptor, or none where its page cannot be read (R123, R126, R616). -/
def State.readDescriptor (s : State) (l : Layout) (d : Descriptor) (values : Bool) : Option (List Position) × State :=
  match s.readThaw d.tier d.frame fun s => (s.thawPage l d.tier d.frame d.firstToken d.valid values).isSome with
  | (true, s) => (s.thawPage l d.tier d.frame d.firstToken d.valid values, s)
  | (false, s) => (none, s)

/-- A read of a warm frame that ends more than 2 µs after its descriptor's issue is counted, once for the descriptor (R178). -/
def State.noteLate (s : State) (d : Descriptor) : State :=
  if d.tier = .warm && !d.seen && decide (s.now > d.issued + 2000) then s.bump Ctr.stallWarmLate else s

/-- A tile works the next descriptor of a piece of work; after the last it emits (R219, R224). At a breach the NaN scores of the whole
descriptor count, and the saturated values of positions without a breaching weight, which the manual leaves open (DESIGN CHOICE, log
entry 95). -/
def State.workDescriptor (s : State) (tile i : Nat) (w : Work) (d : Descriptor) (j : Job) : State :=
  match (s.noteLate d).readDescriptor j.env.layout d (!j.scoreOnly) with
  | (none, s) => s.unreadableAt w d.pid
  | (some ps, s) =>
    let out := j.work w.group ps
    let s := ((s.bumpBy Ctr.nanScore out.nans).bumpBy Ctr.valueSat out.sats).samplePage d.layout (max d.issued (s.tile tile).idleSince)
    let s := s.noteHigh w out.high
    if out.breach then s.breachAt w (s.highOf w out.high) else
    let w' := { w with sums := addRows w.sums out.sums, maxima := addMaxima w.maxima out.maxima, done := w.done + 1 }
    if w'.done ≥ w'.descs.length then s.emitWork tile i w'
    else s.modTile tile fun t => { t with queue := setAt t.queue i w' }

/-- TILE_DESCRIPTOR: the tile's SRAM and residue points, then the next descriptor of its row group in work: a drift group
in work is not interrupted, else graze and cairn requests come first (R219, R226, R346, R635). -/
def execTileDescriptor (tile : Nat) (s : State) : Host.Outcome State Fault Refusal :=
  let t := s.tile tile
  if t.power != .run || !s.pllOn 0 then .next s else
  match (t.queue.findIdx? fun w => w.accepted && w.done > 0).or (firstWork t.queue fun w => w.accepted && !w.left.isEmpty) with
  | none => .next s
  | some i =>
    match t.queue[i]? with
    | none => .next s
    | some w =>
      match s.injected Blk.tile (72 + tile) with
      | (some _, s) => .next (((s.failsAhead tile).foldl (fun s x => s.failTile x.1 x.2) s).failTile tile .residue true)
      | (none, s) =>
        match s.injected Blk.tile tile with
        | (some 1, s) => .next (((s.failsAhead tile).foldl (fun s x => s.failTile x.1 x.2) s).failTile tile .sram true)
        | (k, s) =>
          let s := if k = some 0 then (s.wordCorrected Blk.tile).modTile tile fun t => { t with corrected := min (t.corrected + 1) 65535 } else s
          match w.left, s.job w with
          | d :: _, some j =>
            if k = some 2 then .next ((s.poisonConsumedAt Blk.tile tile true).unreadableAt w d.pid)
            else .next (s.workDescriptor tile i w d j)
          | _, _ => .next (s.takeOff tile i)

end Sys2Proof.Machine
end

