-- ==== Sys2Proof/Machine/Drift.lean ====
section
/-! DEFINITION. Drift passes (R317 to R362): arming, preparation, READY and BEAT, the steps and their windows, block
sends and landings, aborts, and the release of results. Instants of a pass are PTP ns. -/
namespace Sys2Proof.Machine

/-! ## The arm block (R325 to R330) -/

/-- The step durations and the member table of an arm block of k members (R326). -/
def armDurations (b : List Byte) (k : Nat) : List Nat := (List.range k).map fun i => fieldAt b (128 + 4 * i) 4
def armMembers (b : List Byte) (k : Nat) : List (Nat × Nat) :=
  (List.range k).map fun i => (fieldAt b (128 + 4 * k + 16 * i) 4, fieldAt b (128 + 4 * k + 16 * i + 4) 4)

/-- SCHEDULE_DIGEST of an arm block (R329). -/
def armDigest (ring layer : Nat) (b : List Byte) : W64 :=
  let k := fieldAt b 2 1
  digest64 (le 2 ring ++ le 2 layer ++ slice b 2 1 ++ slice b 4 1 ++ slice b 7 1 ++ slice b 16 8 ++ slice b 128 (20 * k))

/-- Whether two ranges of positions overlap. -/
def rangesCross (a b : Nat × Nat) : Bool := decide (a.1 < b.1 + b.2) && decide (b.1 < a.1 + a.2)

/-- Whether the ranges of a list are disjoint. -/
def disjointRanges (l : List (Nat × Nat)) : Bool :=
  match l with
  | [] => true
  | x :: rest => rest.all (fun y => !rangesCross x y) && disjointRanges rest

/-- The fields of R324 to R328 that give DRIFT_PARAM, apart from the regions. -/
def armFieldsOk (h : Hdr) (b : List Byte) (l : Layout) : Bool :=
  let k := fieldAt b 2 1
  let ms := armMembers b k
  h.targetId.toNat < 65536 && h.param0 == 0 && h.param1 == 0 && decide (h.layer.toNat < l.layers) &&
  b.length == 128 + 20 * k && fieldAt b 0 1 == 1 && fieldAt b 1 1 == 0 && fieldAt b 5 1 ≤ 63 && 1 ≤ fieldAt b 7 1 &&
  fieldAt b 7 1 ≤ 128 && fieldAt b 14 1 ≤ 1 && fieldAt b 15 1 ≤ 2 && 1 ≤ fieldAt b 44 4 && fieldAt b 44 4 ≤ 262144 &&
  1 ≤ fieldAt b 60 4 && fieldAt b 60 4 ≤ 1000000 && zeroAt b 88 40 &&
  (armDurations b k).all (fun d => 20000 ≤ d && d ≤ 1000000000) &&
  ms.all (fun m => 1 ≤ m.2 && m.2 ≤ 262144) && (List.range k).all (fun i => zeroAt b (128 + 4 * k + 16 * i + 8) 8) &&
  disjointRanges ms && (ms.map (·.2)).sum ≤ 4194304

/-- Rows of a pass at a member (R334). -/
def Drift.rowCount (d : Drift) (l : Layout) : Nat := d.tokens * d.heads * l.kvHeads

/-- A member's pass as a graze block, for the checks and the staging that graze and drift share. -/
def Drift.asGraze (d : Drift) : Graze :=
  { tokens := d.tokens, format := d.format, heads := d.heads, mode := d.mode, scale := d.scale, anchor := d.anchors.headD 0
    anchorForm := d.anchorForm, modSlot := d.modSlot, rotation := 0, rotDims := 0, absorb := d.absorb, target := d.target
    key := d.key, resultLen := 0, cairnK := 0, cairnSink := 0, cairnWeight := 0, qpos := d.qpos, qseg := d.qseg
    anchors := d.anchors, rotationBlock := [], query := [] }

/-- The pass that an arm block asks for. -/
def parseArm (h : Hdr) (b : List Byte) : Drift :=
  let k := fieldAt b 2 1
  { ring := h.targetId.toNat % 65536, layer := h.layer.toNat, members := k, member := fieldAt b 3 1, layout := fieldAt b 4 1
    modSlot := fieldAt b 5 1, format := fieldAt b 6 1, heads := fieldAt b 7 1, scale := BitVec.ofNat 32 (fieldAt b 8 4)
    anchors := [toSigned 16 (fieldAt b 12 2)], anchorForm := fieldAt b 14 1, mode := fieldAt b 15 1
    takeover := fieldAt b 16 8, digest := BitVec.ofNat 64 (fieldAt b 24 8), queryRegion := BitVec.ofNat 64 (fieldAt b 32 8)
    queryOffset := fieldAt b 40 4, tokens := fieldAt b 44 4, blockRegion := BitVec.ofNat 64 (fieldAt b 48 8)
    blockOffset := fieldAt b 56 4, windowUs := fieldAt b 60 4, absorb := BitVec.ofNat 64 (fieldAt b 64 8)
    target := BitVec.ofNat 64 (fieldAt b 72 8), key := BitVec.ofNat 32 (fieldAt b 80 4)
    durations := armDurations b k, blocks := armMembers b k, rowFormat := fieldAt b 6 1 }

/-- Bytes of the query area's parts: QPOS, QSEG, ANCHORS, rows (R327). -/
def queryParts (d : Drift) (l : Layout) (rowElements : Nat) : Nat × Nat × Nat × Nat :=
  (roundUp (4 * d.tokens) 16, roundUp (2 * d.tokens) 16, if d.anchorForm = 1 then roundUp (2 * d.rowCount l) 16 else 0,
   roundUp (d.rowCount l * rowBytes d.format rowElements) 16)

/-- Length of the query area. -/
def queryLen (d : Drift) (l : Layout) (rowElements : Nat) : Nat :=
  let p := queryParts d l rowElements
  p.1 + p.2.1 + p.2.2.1 + p.2.2.2

/-- Length of a member's block staging (R328). -/
def Drift.stagingLen (d : Drift) (l : Layout) : Nat :=
  let n := (d.blocks.getD d.member (0, 0)).2
  n * l.layerBytes + 2 * n

/-- Whether a byte range lies in a region or version. -/
def State.inRegion (s : State) (id : W64) (off n : Nat) : Bool := decide (off + n ≤ s.lengthOf id)

/-- Pages of a member's block (R333). -/
def Drift.blockPages (d : Drift) (l : Layout) (j : Nat) : Nat := l.kvHeads * ceilDiv (d.blocks.getD j (0, 0)).2 l.tokens

/-- Frames that an arm takes: own block, one landing buffer, accumulators with queries (R334). -/
def Drift.frameNeeds (d : Drift) (l : Layout) (len : Nat) : Nat × Nat × Nat :=
  let rows := d.rowCount l
  (d.blockPages l d.member, ((List.range d.members).map (d.blockPages l)).foldl max 0,
   ceilDiv (rows * (16 * l.valueLen + 16)) 65536 + ceilDiv (rows * rowBytes d.rowFormat len) 65536)

/-- Z of R350. -/
def driftRecordSize (mode ev : Nat) : Nat := roundUp (worstResult mode 4096 ev) 64

/-- The send windows of a pass (R338). -/
def Drift.windows (d : Drift) : List (Nat × Nat) := (List.range (d.members - 1)).map fun i => (d.start i + 500, d.start (i + 1) - 500)

/-- The NODE QP to a member. -/
def State.memberQp (s : State) (d : Drift) (m : Nat) : Nat := s.nodeQp ((s.ringMembers d.ring).getD m 0)

/-- Whether the windows of an arm overlap those of another pass on its port, or exceed the 512 entries (R330, R508). -/
def State.gateConflict (s : State) (d : Drift) (port : Nat) : Bool :=
  decide ((s.port port).drift.length + 2 * (d.members - 1) > 512) ||
  s.drifts.any fun x => x.state != .idle && x.port == port && x.windows.any fun a => d.windows.any fun b =>
    decide (a.1 < b.2) && decide (b.1 < a.2)

/-- The checks of R330 on the block and the node's tables, in the order of the table. -/
def State.armRefusal (s : State) (c : Cmd) (d : Drift) : Option Ans :=
  let b := c.payload
  let k := d.members
  let members := s.ringMembers d.ring
  if c.hdr.targetId.toNat ≥ 65536 || members.length != k || k < 2 || k > 64 || members[d.member]? != some s.nodeId then
    some (Ans.param Reason.driftRing)
  else match s.layout d.layout with
    | none => some (Ans.param Reason.driftParam)
    | some l =>
      if !armFieldsOk c.hdr b l then some (Ans.param Reason.driftParam)
      else match s.sourceRefusal d.queryRegion, s.sourceRefusal d.blockRegion with
        | some a, _ => some a
        | none, some a => some a
        | none, none =>
          let g := d.asGraze
          if armDigest d.ring d.layer b != d.digest then some (Ans.param Reason.driftDigest)
          else if d.takeover < s.clk.ptp + 500000 || d.takeover > s.clk.ptp + 10000000000 then some (Ans.param Reason.driftLead)
          else if !queryFormatOk d.format (s.rowElements g l) then some (Ans.param Reason.queryFormat)
          else if !s.inRegion d.queryRegion d.queryOffset (queryLen d l (s.rowElements g l)) ||
            !s.inRegion d.blockRegion d.blockOffset (d.stagingLen l) then some (Ans.param Reason.driftParam)
          else if d.scale = 0 || fp32Neg d.scale.toNat || !fp32Finite d.scale.toNat then some (Ans.param Reason.scoreScale)
          else match s.modifier d.modSlot with
            | none => some (Ans.param Reason.modifierSlot)
            | some m =>
              if m.usesVector && l.kvHeads * d.heads > 256 then some (Ans.param Reason.modifierHeads)
              else match s.absorbRefusal g l d.layout with
                | some a => some a
                | none =>
                  if s.gateConflict d (s.portOf (s.memberQp d d.succ)) then some (Ans.param Reason.driftGate)
                  else if fieldAt b 84 4 < ceilDiv (d.rowCount l) 4096 * driftRecordSize d.mode l.valueLen then
                    some (Ans.param Reason.resultSpace)
                  else none

/-- The refusals of R330 that depend on what the node already holds. -/
def State.armBusy (s : State) (d : Drift) : Option Ans :=
  if s.drifts.any fun x => x.state != .idle && x.ring == d.ring then some (Ans.state Reason.driftState)
  else if !s.clk.locked || s.clk.offset.natAbs > 100 then some (Ans.state Reason.driftClock)
  else if s.drifts.all fun x => x.state != .idle then
    let first := (s.drifts.map fun x => x.release - s.clk.ptp).foldl min (10 ^ 12)
    some (Ans.throttled Reason.driftRingsFull (ceilDiv first 1000))
  else none

/-- Puts a gate entry in its place by instant, a close before an open of the same instant: windows that touch do not
overlap (R508). -/
def insertGate (e : Nat × Bool × Nat) (l : List (Nat × Bool × Nat)) : List (Nat × Bool × Nat) :=
  l.filter (fun x => decide (x.1 < e.1) || (x.1 == e.1 && (!x.2.1 || e.2.1))) ++ [e] ++
  l.filter (fun x => !(decide (x.1 < e.1) || (x.1 == e.1 && (!x.2.1 || e.2.1))))

/-! ## Messages of a pass (R336, R337) -/

/-- The 64 bytes of READY (R336). -/
def State.readyMessage (s : State) (d : Drift) : List Byte :=
  le 2 d.ring ++ le 1 d.member ++ zeros 5 ++ le 8 d.takeover ++ le 8 d.digest.toNat ++ le 8 d.ownBase.toNat ++
  le 8 (65536 * (d.landingFrames.headD []).length) ++ le 4 (s.keyOf d.ownKey) ++ zeros 20

/-- The 16 bytes of BEAT (R337). -/
def Drift.beatBytes (d : Drift) : List Byte := le 2 d.ring ++ le 1 d.member ++ zeros 13

/-- Sends a message to both neighbours; once where they are one node. -/
def State.sendNeighbours (s : State) (d : Drift) (bs : List Byte) : State := (s.sendMember d d.pred bs).sendMember d d.succ bs

/-- The slot of the pass of a ring. -/
def State.passOf (s : State) (ring : Nat) : Option Nat := s.drifts.findIdx? fun d => d.state != .idle && d.ring == ring

/-- Whether a QP is that of a member of a ring. -/
def State.fromMember (s : State) (d : Drift) (m qp : Nat) : Bool := (s.ringMembers d.ring)[m]? == some (s.peerOf qp)

/-! ## Blocks (R332, R339, R340, R345) -/

/-- The frames of the block that step n accumulates and sends, once it is there (R319, R339). -/
def Drift.stepFrames (d : Drift) (l : Layout) (n : Nat) : Option (List Nat) :=
  if n = 0 then (if d.frozen then some d.block else none)
  else if d.verified.contains (n - 1) then
    some ((d.landingFrames.getD ((n - 1) % 2) []).take (d.blockPages l ((d.member + d.members - n) % d.members)))
  else none

/-- Advances the trigger counter of a step's block send (R339, R469). -/
def State.advanceBlock (s : State) (slot n : Nat) : State :=
  s.modDrift slot fun d => { d with counters := modifyAt d.counters n Trigger.advance }

/-- Posts the block send of a step once its counter has fired and the successor is ready; the scheduler holds it until the
window opens (R339, R340, R469). -/
def State.postBlock (s : State) (slot n : Nat) : State :=
  let d := s.drift slot
  match s.layout d.layout with
  | none => s
  | some l =>
    match (if d.readySucc && ((d.counters[n]?).any Trigger.fired) && !d.sends.contains n then d.stepFrames l n else none) with
    | none => s
    | some fs =>
      let base := d.landingAddr.toNat + n % 2 * d.landingStride.toNat
      let imm := BitVec.ofNat 32 (d.ring * 65536 + n * 1024 + (d.member + d.members - n) % d.members * 16)
      let ops := (List.zip (List.range fs.length) fs).map fun x =>
        WireOp.write (BitVec.ofNat 64 (base + 65536 * x.1)) d.landingKey (s.readFrame .hot x.2 0 Config.frameBytes)
          (if x.1 + 1 = fs.length then some imm else none)
      (s.modDrift slot fun d => { d with sends := d.sends ++ [n] }).post (s.memberQp d d.succ) 5 ops (.driftBlock slot n) false
        (some (slot, n))

/-- Whether a program holds CAUSAL (R205). -/
def Modifier.causal (m : Modifier) : Bool := m.ops.any fun w => opCode w == 7

/-- The descriptors of a block for a row group: the sealed pages of its KV head, those that R347 leaves out apart. -/
def State.blockDescs (s : State) (slot : Nat) (d : Drift) (g : Group) (fs : List Nat) : List Descriptor :=
  let tail := fun (f off n : Nat) => fieldAt (s.readFrame .hot f (Config.dataBytes + off) n) 0 n
  let top := ((List.range (g.hi + 1 - g.lo)).map fun i => d.qpos.getD ((g.lo + i) / d.heads) 0).foldl max 0
  let mine := fs.filter fun f => tail f 18 1 == g.head && !(d.modifier.causal && decide (top < tail f 12 4))
  (List.zip (List.range mine.length) mine).map fun x =>
    { pid := 0, tier := .hot, frame := x.2, frameGen := s.frameGen .hot x.2, firstToken := tail x.2 12 4, index := tail x.2 8 4
      layer := d.layer, head := g.head, layout := d.layout, valid := tail x.2 19 1, isSealed := true
      last := x.1 + 1 == mine.length, shared := false, ctx := slot, seq := x.1, issued := s.now }

/-- Starts the accumulation of the next step, once its block is there and the one before has ended: group j goes to
logical tile j mod 64, or the next bound one (R230, R341, R345). -/
def State.startAccum (s : State) (slot : Nat) : State :=
  let d := s.drift slot
  match s.layout d.layout with
  | none => s
  | some l =>
    match (if d.accIssued || d.rows.isEmpty || d.state == .idle || d.accumulated ≥ d.members then none else d.stepFrames l d.accumulated) with
    | none => s
    | some fs =>
      let gs := d.groups l
      let works := (List.zip (List.range gs.length) gs).filterMap fun x =>
        let ds := s.blockDescs slot d x.2 fs
        if ds.isEmpty then none else
        ((List.range 64).map fun k => (x.1 + k) % 64).find? (fun n => (s.logical n).live) |>.map fun n =>
          (n, ({ ctx := slot, drift := true, pair := x.1, group := x.2, descs := ds, arrival := s.now } : Work))
      let s := s.modDrift slot fun d => { d with accIssued := true, accLeft := works.length }
      works.foldl (fun s w => s.queueWork w.1 w.2) s

/-- The bytes of a range for a pass, or its abort (R353, R616). -/
def State.readForPass (s : State) (slot : Nat) (id : W64) (off n : Nat) : Option (List Byte) × State :=
  match s.readRange id off n with
  | (.ok b, s) => (some b, s)
  | (.error a, s) => (none, s.detectAbort slot Reason.driftLocalFailure none a.status a.reason)

/-- A frame of a pass that cannot be read: it is retired where a word of it is UNCORRECTABLE, and the pass aborts (R174, R353). -/
def State.checkPassFrame (s : State) (slot f : Nat) : Bool × State :=
  let abort := fun (s : State) => s.detectAbort slot Reason.driftLocalFailure none Status.poisoned Reason.pagePoisoned
  match s.checkFrame .hot f with
  | (.good, s) => (true, s)
  | (.unreadable, s) => (false, abort (s.retireFrame .hot f))
  | (.poisoned, s) => (false, abort s)

/-- Freezes one KV head's page of a block into a frame, whose rows are read for its seal (R174, R332). -/
def State.freezeBlockPage (s : State) (slot : Nat) (d : Drift) (l : Layout) (staging : List Byte) (h i f : Nat) : State :=
  if (s.drift slot).state == .idle then s else
  let m := d.blocks.getD d.member (0, 0)
  let fill := min l.tokens (m.2 - i * l.tokens)
  let per := if l.latent then l.layerBytes else 4 * l.headDim
  let s := (List.range fill).foldl (fun s p =>
    let t := i * l.tokens + p
    let elems := bf16s (slice staging (t * l.layerBytes + h * per) per)
    let key := elems.take l.keyLen
    let s := s.writeFrame .hot f (l.keyAt p) (l.freezeKey key)
    let s := if l.latent then s else s.writeFrame .hot f (l.valueAt p) (freezeField l.valueFormat (elems.drop l.keyLen))
    let s := s.writeFrame .hot f (Config.dataBytes + 64 + 2 * p) (slice staging (m.2 * l.layerBytes + 2 * t) 2)
    s.bumpBy Ctr.freezeSat (freezeSats l.keyFormat key + (if l.latent then 0 else freezeSats l.valueFormat (elems.drop l.keyLen)))) s
  let sats := ((List.range fill).map fun p =>
    let elems := bf16s (slice staging ((i * l.tokens + p) * l.layerBytes + h * per) per)
    freezeSats l.keyFormat (elems.take l.keyLen) + (if l.latent then 0 else freezeSats l.valueFormat (elems.drop l.keyLen))).sum
  let (ok, s) := s.checkPassFrame slot f
  if !ok then s else
  s.writeFrame .hot f 0 (sealBlockFrame l d.layout (m.1 + i * l.tokens) i d.layer h fill sats (s.readFrame .hot f 0 Config.frameBytes))

/-- When both parts of the preparation are complete, the member sends READY to both neighbours (R335). -/
def State.readyIfDone (s : State) (slot : Nat) : State :=
  let d := s.drift slot
  if d.frozen && !d.rows.isEmpty && !d.sentReady then
    let s := s.modDrift slot fun d => { d with sentReady := true, state := .ready, beatSent := s.now }
    (s.sendNeighbours d (s.readyMessage d)).startAccum slot
  else s

/-- DRIFT_BLOCK_FROZEN: the block staging is frozen into sealed pages, and the first block send may go (R332, R339). -/
def execDriftBlockFrozen (slot : Nat) (s : State) : Host.Outcome State Fault Refusal :=
  let d := s.drift slot
  if d.state != .armed || d.frozen then .next s else
  match s.layout d.layout with
  | none => .next s
  | some l =>
    match s.readForPass slot d.blockRegion d.blockOffset (d.stagingLen l) with
    | (none, s) => .next s
    | (some b, s) =>
      let per := ceilDiv (d.blocks.getD d.member (0, 0)).2 l.tokens
      let s := (List.zip (List.range d.block.length) d.block).foldl
        (fun s x => s.freezeBlockPage slot d l b (x.1 / per) (x.1 % per) x.2) s
      if (s.drift slot).state == .idle then .next s else
      let s := (s.modDrift slot fun d => { d with frozen := true }).advanceBlock slot 0
      .next ((s.postBlock slot 0).readyIfDone slot)

/-- Reads and stages a pass's query area: positions, segments, anchors and rows; none at a non-finite element (R193,
R327, R332). -/
def State.stageQuery (s : State) (d : Drift) (l : Layout) (b : List Byte) : Option Drift :=
  let p := queryParts d l (s.rowElements d.asGraze l)
  let g := { d.asGraze with query := b.drop (p.1 + p.2.1 + p.2.2.1) }
  (s.stageRows g l d.layer).map fun rows =>
    { d with
      qpos := (List.range d.tokens).map fun t => fieldAt b (4 * t) 4
      qseg := (List.range d.tokens).map fun t => fieldAt b (p.1 + 2 * t) 2
      anchors := (List.range (d.rowCount l)).map fun r =>
        if d.anchorForm = 1 then toSigned 16 (fieldAt b (p.1 + p.2.1 + 2 * r) 2) else d.anchors.headD 0
      rows := rows
      sums := List.replicate (d.rowCount l) (Partial.zero l.valueLen) }

/-- DRIFT_PREP_DONE: the query rows are read, checked and staged, the absorb region's pages worked among it (R30, R332, R335). -/
def execDriftPrepDone (slot : Nat) (s : State) : Host.Outcome State Fault Refusal :=
  let d := s.drift slot
  if d.state != .armed || !d.rows.isEmpty then .next s else
  match s.layout d.layout with
  | none => .next s
  | some l =>
    match s.readForPass slot d.queryRegion d.queryOffset (queryLen d l (s.rowElements d.asGraze l)) with
    | (none, s) => .next s
    | (some b, s) =>
      match s.thawAbsorb d.asGraze l d.layer with
      | (_ :: _, s) => .next (s.detectAbort slot Reason.driftLocalFailure none Status.poisoned Reason.pagePoisoned)
      | ([], s) =>
      match s.stageQuery d l b with
      | none => .next (s.detectAbort slot Reason.driftLocalFailure none Status.refusedParam Reason.queryNonfinite)
      | some d' => .next ((s.modDrift slot fun _ => d').readyIfDone slot)

/-! ## READY and BEAT (R335, R337) -/

/-- A READY of a neighbour is taken; its digest is compared first, and one of another T0 has another digest (R329, R335, R336). -/
def State.takeReady (s : State) (qp slot : Nat) (b : List Byte) : State :=
  let d := s.drift slot
  let m := fieldAt b 2 1
  if !s.abortable d || !s.fromMember d m qp || (m != d.pred && m != d.succ) then s
  else if d.takeover != fieldAt b 8 8 || BitVec.ofNat 64 (fieldAt b 16 8) != d.digest then s.detectAbort slot Reason.driftNeighbourDigest
  else
    let s := if m = d.pred then s.modDrift slot fun d => { d with readyPred := true, beatPred := s.now } else s
    let s := if m = d.succ then s.modDrift slot fun d =>
        { d with
          readySucc := true, beatSucc := s.now, landingAddr := BitVec.ofNat 64 (fieldAt b 24 8)
          landingStride := BitVec.ofNat 64 (fieldAt b 32 8), landingKey := BitVec.ofNat 32 (fieldAt b 40 4) }
      else s
    s.postBlock slot 0

/-! ## Arming (R324 to R335, R358, R359) -/

/-- The READY messages of a pass that came before it was armed are taken; those of earlier passes of the ring are dropped (R335). -/
def State.takeReadies (s : State) (slot : Nat) : State :=
  let d := s.drift slot
  let mine := s.readies.filter fun x => fieldAt x.2 0 2 == d.ring && fieldAt x.2 8 8 == d.takeover
  let s := { s with readies := s.readies.filter fun x => !(fieldAt x.2 0 2 == d.ring && decide (fieldAt x.2 8 8 ≤ d.takeover)) }
  mine.foldl (fun s x => s.takeReady x.1 slot x.2) s

/-- A READY that no pass of its ring can take yet is kept, the last 64 of them (R335; log entry 97). -/
def State.keepReady (s : State) (qp : Nat) (b : List Byte) : State :=
  let l := s.readies ++ [(qp, b)]
  { s with readies := l.drop (l.length - 64) }

/-- An accepted pass takes its slot, frames, gate entries, trigger counters and landing key (R334, R338, R339). -/
def State.armPass (s : State) (slot : Nat) (d : Drift) (l : Layout) (ctx : CmdCtx) : State :=
  let m := (s.modifier d.modSlot).getD {}
  let need := d.frameNeeds l l.keyLen
  match s.takeKey 0 true false, s.allocFrames .hot (.drift slot) (need.1 + 2 * need.2.1 + need.2.2) with
  | none, _ => s.finish ctx (Ans.throttled Reason.keyTableFull 1000)
  | some _, none =>
    s.finish ctx (Ans.throttled Reason.driftFrames (s.hint .hot (need.1 + 2 * need.2.1 + need.2.2 - s.allocatable .hot)))
  | some (key, s), some _ =>
    match s.allocFrames .hot (.drift slot) (need.1 + 2 * need.2.1 + need.2.2) with
    | none => s
    | some (fs, s) =>
      let (base, s) := s.drawWord
      let port := s.portOf (s.memberQp d d.succ)
      let s := s.modAttn fun a => { a with triggersUsed := a.triggersUsed + (d.members - 1) }
      let s := s.modPort port fun p =>
        { p with drift := (d.windows.flatMap fun w => [(w.1, true, slot), (w.2, false, slot)]).foldl (fun l e => insertGate e l) p.drift }
      let s := if d.absorb = 0 then s else s.useVersion (driftUser slot) d.absorb.toNat
      State.takeReadies (slot := slot) <| s.modDrift slot fun _ =>
        { d with
          state := .armed, cmd := some { ctx with deadline := d.release + 1000 * d.windowUs }, modifier := m, frames := fs
          block := fs.take need.1
          landingFrames := [(fs.drop need.1).take need.2.1, (fs.drop (need.1 + need.2.1)).take need.2.1]
          rowFormat := if d.absorb = 0 then d.format else 0, rowLen := l.keyLen, ownKey := key, ownBase := base, port := port
          minWidth := s.regs.minWidth
          counters := (List.range (d.members - 1)).map fun n => { threshold := 1, work := [.driftBlock slot n] } }

/-- CANCEL of an armed pass (R358). -/
def State.cancelPass (s : State) (c : Cmd) (ctx : CmdCtx) : State :=
  let hit := (List.range 16).find? fun i =>
    let d := s.drift i
    s.abortable d && d.ring == c.hdr.targetId.toNat && d.takeover == fieldAt c.payload 16 8
  match hit with
  | none => s.finish ctx (Ans.state Reason.driftState)
  | some i => (s.detectAbort i Reason.driftCancelled).finish ctx (Ans.ok)

/-- ATTN_DRIFT_ARM (R324 to R334, R358, R359). -/
def State.takeArm (s : State) (c : Cmd) (ctx : CmdCtx) : State :=
  if 24 ≤ c.payload.length && bit (fieldAt c.payload 1 1) 0 then s.cancelPass c ctx else
  let d := parseArm c.hdr c.payload
  match s.armRefusal c d, s.layout d.layout with
  | some a, _ => s.finish ctx a
  | none, none => s.finish ctx (Ans.param Reason.driftParam)
  | none, some l =>
    match s.armBusy d with
    | some a => s.finish ctx a
    | none =>
      let need := d.frameNeeds l l.keyLen
      let n := need.1 + 2 * need.2.1 + need.2.2
      if n > s.allocatable .hot then s.finish ctx (Ans.throttled Reason.driftFrames (s.hint .hot (n - s.allocatable .hot)))
      else if s.attn.triggersUsed + (d.members - 1) > Config.triggers then s.finish ctx (Ans.throttled Reason.triggerFull 10)
      else match s.aborts.find? fun a => a.ring == d.ring && a.takeover == d.takeover with
        | some a =>
          s.finish ctx { status := Status.collectiveAbort, reason := a.reason, p0 := a.param0.toNat, p1 := a.param1.toNat }
        | none =>
          match s.drifts.findIdx? fun x => x.state == .idle with
          | none => s
          | some slot => s.armPass slot d l ctx

/-- ATTN_DRIFT_ARM. -/
def execAttnDriftArm (c : Cmd) (s : State) : Host.Outcome State Fault Refusal :=
  .next (s.onArrive 0x0303 c fun c ctx s => s.takeArm c ctx)

/-! ## The events of READY and BEAT -/

/-- DRIFT_READY_RECV. -/
def execDriftReadyRecv (p : QpPsn) (message : List Byte) (s : State) : Host.Outcome State Fault Refusal :=
  match s.receiveRaw p.qp p.psn message with
  | (none, s) => .next s
  | (some b, s) =>
    if b.length != 64 || !zeroAt b 3 5 || !zeroAt b 44 20 then .next s else
    match s.passOf (fieldAt b 0 2) with
    | none => .next (s.keepReady p.qp b)
    | some slot => .next (if s.abortable (s.drift slot) then s.takeReady p.qp slot b else s.keepReady p.qp b)

/-- DRIFT_READY_DEADLINE: T0 - 20 µs has come without both READY messages sent and received (R335). -/
def execDriftReadyDeadline (slot : Nat) (s : State) : Host.Outcome State Fault Refusal :=
  match s.unready slot with
  | none => .next s
  | some m => .next (s.detectAbort slot Reason.driftNotReady (some m))

/-- DRIFT_BEAT_SEND: every 8 µs from the first READY until the release instant (R337). -/
def execDriftBeatSend (slot : Nat) (s : State) : Host.Outcome State Fault Refusal :=
  let d := s.drift slot
  if d.state == .idle || d.state == .writing || !d.sentReady || s.now < d.beatSent + 8000 || s.clk.ptp ≥ d.release then .next s
  else .next ((s.modDrift slot fun d => { d with beatSent := s.now }).sendNeighbours d d.beatBytes)

/-- DRIFT_BEAT_RECV. -/
def execDriftBeatRecv (p : QpPsn) (message : List Byte) (s : State) : Host.Outcome State Fault Refusal :=
  match s.receiveRaw p.qp p.psn message with
  | (none, s) => .next s
  | (some b, s) =>
    match (if b.length = 16 && zeroAt b 3 13 then s.passOf (fieldAt b 0 2) else none) with
    | none => .next s
    | some slot =>
      let m := fieldAt b 2 1
      if !s.fromMember (s.drift slot) m p.qp then .next s else
      .next (s.modDrift slot fun d =>
        { d with
          beatPred := if m = d.pred then s.now else d.beatPred
          beatSucc := if m = d.succ then s.now else d.beatSucc })

/-- DRIFT_BEAT_SILENCE: 24 µs without a BEAT from a neighbour that was ready (R337). -/
def execDriftBeatSilence (slot : Nat) (side : Side) (s : State) : Host.Outcome State Fault Refusal :=
  match s.silentSide slot side with
  | none => .next s
  | some m => .next ((s.bump Ctr.beatMiss).detectAbort slot Reason.driftMemberSilent (some m))

/-! ## Steps (R338 to R342) -/

/-- The close of the window of the step in hand: an abort, or after the last step the hold before release (R341, R361). -/
def State.closeWindow (s : State) (slot : Nat) : State :=
  let d := s.drift slot
  match d.late with
  | some reason => s.detectAbort slot reason
  | none => if d.step + 1 = d.members then s.modDrift slot fun d => { d with state := .holding } else s

/-- DRIFT_WINDOW_CLOSE. -/
def execDriftWindowClose (slot : Nat) (s : State) : Host.Outcome State Fault Refusal :=
  let d := s.drift slot
  .next (if d.state == .running && decide (s.clk.ptp + 500 ≥ d.start (d.step + 1)) then s.closeWindow slot else s)

/-- DRIFT_STEP_START: T0, or the start of the next step, whose predecessor's window has closed (R338, R342). -/
def execDriftStepStart (slot : Nat) (s : State) : Host.Outcome State Fault Refusal :=
  let d := s.drift slot
  if d.state == .ready && decide (s.clk.ptp ≥ d.takeover) then
    .next (((s.modDrift slot fun d => { d with state := .running, step := 0 }).startAccum slot).foreseeStep slot)
  else if d.state == .running && decide (d.step + 1 < d.members) && decide (s.clk.ptp ≥ d.start (d.step + 1)) then
    let s := s.closeWindow slot
    if (s.drift slot).state != .running then .next s else
    .next (((s.modDrift slot fun d => { d with step := d.step + 1 }).startAccum slot).foreseeStep slot)
  else .next s

/-- DRIFT_ACCUM_DONE: every row group of the step has been accumulated (R341). -/
def execDriftAccumDone (slot : Nat) (s : State) : Host.Outcome State Fault Refusal :=
  let d := s.drift slot
  if !d.accIssued || d.accLeft ≠ 0 then .next s
  else .next ((s.modDrift slot fun d => { d with accIssued := false, accumulated := d.accumulated + 1 }).startAccum slot)

/-- Verifies the SEAL of each page of a landed block (R133, R340); where a frame cannot be read the pass aborts (R174, R353). -/
def State.sealsHold (s : State) (slot : Nat) (fs : List Nat) : Bool × State :=
  fs.foldl (fun (acc : Bool × State) f =>
    if (acc.2.drift slot).state == .idle then acc else
    match acc.2.checkPassFrame slot f with
    | (false, s) => (false, s)
    | (true, s) =>
      let (ok, s) := s.verifySeal f (s.readFrame .hot f 0 Config.frameBytes)
      (acc.1 && ok, s)) (true, s)

/-- A landing is checked (R340). -/
def State.landBlock (s : State) (slot : Nat) (imm : W32) : State :=
  let d := s.drift slot
  match s.layout d.layout with
  | none => s
  | some l =>
    let n := bits imm.toNat 15 10
    let j := bits imm.toNat 9 4
    let fs := (d.landingFrames.getD (n % 2) []).take (d.blockPages l j)
    if n != d.verified.length || n + 2 > d.members || j != (d.member + 2 * d.members - 1 - n) % d.members || bits imm.toNat 3 0 != 0 then
      s.detectAbort slot Reason.driftBlockCheck
    else
      let (ok, s) := s.sealsHold slot fs
      if !ok then s.detectAbort slot Reason.driftBlockCheck
      else
        let s := s.modDrift slot fun d => { d with verified := d.verified ++ [n] }
        ((s.advanceBlock slot (n + 1)).postBlock slot (n + 1)).startAccum slot

/-- DRIFT_BLOCK_LAND: the last write of a block send, with its immediate, from the predecessor. -/
def execDriftBlockLand (qp : Nat) (imm : W32) (s : State) : Host.Outcome State Fault Refusal :=
  match s.passOf (imm.toNat / 65536) with
  | none => .next (s.bump Ctr.immIgnored)
  | some slot =>
    let d := s.drift slot
    if !s.fromMember d d.pred qp || !s.abortable d then .next (s.bump Ctr.immIgnored) else .next (s.landBlock slot imm)

/-! ## Aborts (R354 to R359) -/

/-- An ABORT is received: a pass not past its release adopts it and relays it once, unless one of lower ORIGIN comes in the same
cycle; later ones, and those past the release, are counted; all are remembered (R354 to R357, R359). -/
def State.takeAbort (s : State) (a : Abort) : State :=
  let known := s.aborts.any fun m => m.ring == a.ring && m.takeover == a.takeover
  match s.drifts.findIdx? fun d => d.state != .idle && d.ring == a.ring && d.takeover == a.takeover with
  | none =>
    let late := s.released.contains (a.ring, a.takeover)
    let s := if late then s.bump Ctr.driftAbortLate else if known then s.bump Ctr.driftAbortDup else s
    if known then s else s.rememberAbort a
  | some slot =>
    let d := s.drift slot
    if s.clk.ptp > d.release then (if known then s else s.rememberAbort a).bump Ctr.driftAbortLate
    else if s.lowerAbort slot a.origin then s.bump Ctr.driftAbortDup
    else ((if known then s else s.rememberAbort a).sendNeighbours d a.bytes).abortPass slot a

/-- DRIFT_ABORT_RECV. -/
def execDriftAbortRecv (p : QpPsn) (message : List Byte) (s : State) : Host.Outcome State Fault Refusal :=
  match s.receiveRaw p.qp p.psn message with
  | (none, s) => .next s
  | (some b, s) =>
    match Abort.parse b with
    | none => .next s
    | some a => .next (s.takeAbort a)

/-- DRIFT_ABORT_FORGET (R359). -/
def execDriftAbortForget (ring takeover : Nat) (s : State) : Host.Outcome State Fault Refusal :=
  .next { s with aborts := s.aborts.filter fun a => !(a.ring == ring && a.takeover == takeover && decide (s.now ≥ a.at_ + 2000000000)) }

/-! ## The release (R349 to R351) -/

/-- Record c of a pass's result (R350). -/
def State.driftRecord (s : State) (d : Drift) (l : Layout) (c : Nat) : List Byte :=
  let rows := (d.sums.drop (4096 * c)).take 4096
  let anchors := (d.anchors.drop (4096 * c)).take 4096
  let kind := if d.mode = 0 then 2 else if d.mode = 1 then 3 else 1
  let h : FirnHdr :=
    { kind := kind, flags := flagsOf rows + (if d.anchorForm = 1 then 4 else 0), source := s.nodeId, mask := 1
      requestId := (d.cmd.map fun x => x.requestId.toNat).getD 0, layer := d.layer
      anchor := if d.anchorForm = 1 then 0 else d.anchors.headD 0, snapshot := (d.blocks.map (·.2)).sum
      firstRow := 4096 * c, rowCount := rows.length, ev := l.valueLen, modTag := d.modifier.tag.toNat }
  if kind = 1 then firnRecord h d.minWidth (if d.anchorForm = 1 then some anchors else none) rows
  else h.encode (normBody kind rows) ++ normBody kind rows

/-- The QP on which a pass writes its result: that of its arm. -/
def State.driftQp (s : State) (d : Drift) : Option Nat :=
  match d.cmd.map (fun (x : CmdCtx) => x.src) with
  | some (.qp i) => some i
  | some (.lane _) => s.hostQpOf laneSubscriber
  | none => none

/-- DRIFT_RELEASE: at T_rel with no abort, the rows are normalised and the result records written (R349, R350). -/
def execDriftRelease (slot : Nat) (s : State) : Host.Outcome State Fault Refusal :=
  let d := s.drift slot
  match s.layout d.layout with
  | none => .next s
  | some l =>
    if d.state != .holding || s.clk.ptp < d.release then .next s else
    let n := ceilDiv d.sums.length 4096
    let s := (s.dropDriftGates slot).modDrift slot fun d => { d with state := .writing, resultsLeft := n }
    match s.driftQp d with
    | none => .next s
    | some q =>
      .next ((List.range n).foldl (fun s c =>
        s.writeChain q (BitVec.ofNat 64 (d.target.toNat + c * driftRecordSize d.mode l.valueLen)) d.key (s.driftRecord d l c)
          (.driftResult slot)) s)

/-- A pass ends: what it holds is released, its slot is IDLE, and its arm is answered (R351, R361). -/
def State.endPass (s : State) (slot : Nat) (a : Ans) : State :=
  let d := s.drift slot
  let s := ((s.cancelSends slot).releaseDrift slot).modDrift slot fun _ => {}
  let past := s.released ++ [(d.ring, d.takeover)]
  let s := { s with released := past.drop (past.length - 64) }
  match d.cmd with
  | none => s
  | some ctx => s.finish ctx a

/-- DRIFT_RESULT_ACKED: result writes have been acknowledged; with the last the arm replies OK (R351). -/
def execDriftResultAcked (slot : Nat) (s : State) : Host.Outcome State Fault Refusal :=
  if (s.drift slot).state != .writing then .next s else
  let n := (s.net.acked.filter (· == .driftResult slot)).length
  let s := s.modNet fun x => { x with acked := x.acked.filter (· != .driftResult slot) }
  let s := s.modDrift slot fun d => { d with resultsLeft := d.resultsLeft - n }
  .next (if (s.drift slot).resultsLeft = 0 then (s.bump Ctr.driftDone).endPass slot (Ans.ok) else s)

/-- DRIFT_RESULT_DEADLINE: T_rel + RESULT_WINDOW_US has come first (R351). -/
def execDriftResultDeadline (slot : Nat) (s : State) : Host.Outcome State Fault Refusal :=
  let d := s.drift slot
  .next (if d.state != .idle && decide (s.clk.ptp ≥ d.release + 1000 * d.windowUs) then s.endPass slot (Ans.miss Reason.driftResultLate) else s)

end Sys2Proof.Machine
end

