-- ==== Sys2Proof/Machine/Shaper.lean ====
section
/-! DEFINITION. Gates and the credit shaper of the egress scheduler (R502 to R508), which a pause, a link and a register write settle
as well as a selection does. -/
namespace Sys2Proof.Machine

/-! ## Frames -/

/-- Bytes of a frame on the wire: 78 of headers and 20 of preamble and gap over its payload (R504, R344). -/
def wireBytes (n : Nat) : Nat := n + 98

/-- Time of wire bytes at a rate in Mb/s, in ns. -/
def wireNs (n rate : Nat) : Nat := ceilDiv (8000 * n) (max 1 rate)

/-! ## Gates (R505, R506, R508) -/

/-- The parts of a cycle: first and end instant within it, and gate states; the last holds until the cycle ends. -/
def gateParts (cycle at_ : Nat) (entries : List (Nat × Nat)) : List (Nat × Nat × Nat) :=
  match entries with
  | [] => []
  | [(g, _)] => [(at_, cycle, g)]
  | (g, n) :: rest => (at_, at_ + n, g) :: gateParts cycle (at_ + n) rest

/-- The place of an instant in a list's cycle. -/
def GateList.place (g : GateList) (t : Nat) : Nat :=
  let c := max 1 g.cycle
  if t < g.base then (c - (g.base - t) % c) % c else (t - g.base) % c

/-- Whether a list opens a class at an instant. -/
def GateList.opens (g : GateList) (cls t : Nat) : Bool :=
  (gateParts g.cycle 0 g.entries).any fun p => decide (p.1 ≤ g.place t) && decide (g.place t < p.2.1) && bit p.2.2 cls

/-- The next instant at which a list closes a class that is open; none where it never does. -/
def GateList.closes (g : GateList) (cls t : Nat) : Option Nat :=
  let ps := (gateParts g.cycle 0 g.entries).filter fun p => !bit p.2.2 cls && decide (p.1 < p.2.1)
  let x := g.place t
  match ps.find? fun p => decide (p.1 > x) with
  | some p => some (t + (p.1 - x))
  | none => ps.head?.map fun p => t + (p.1 + g.cycle - x)

/-- Whether a frame that ends at an instant clears the next close of a class's base gate, a pending change counted (R506,
R507). -/
def Port.clears (p : Port) (cls t fin : Nat) : Bool :=
  let within := fun (c : Option Nat) => match c with
    | none => true
    | some x => decide (fin ≤ x)
  match p.pendingList with
  | none => within (p.oper.closes cls t)
  | some (g, at_) =>
    if fin ≤ at_ then within (p.oper.closes cls t)
    else within ((p.oper.closes cls t).filter fun x => decide (x < at_)) && g.opens cls at_ && within (g.closes cls at_)

/-- Whether class 5 is open on a port: inside a window of an armed pass (R508). -/
def Port.driftGate (p : Port) : Bool := p.driftOpen && (p.drift.head?.map fun e => !e.2.1).getD false

/-- Whether a class's gate is open on a port at an instant (R505, R508). -/
def Port.classOpen (p : Port) (cls t : Nat) : Bool :=
  if cls = 7 then true else if cls = 5 then p.driftGate else p.oper.opens cls t

/-- Whether a frame that ends at an instant fits before the next close of a class's gate (R506). -/
def Port.classFits (p : Port) (cls t fin : Nat) : Bool :=
  if cls = 7 then true else if cls = 5 then (p.drift.head?.map fun e => decide (fin ≤ e.1)).getD false else p.clears cls t fin

/-! ## The credit shaper (R502, R503) -/

/-- SHAPE_EN and IDLE_SLOPE of a class. -/
def State.shaped (s : State) (cls : Nat) : Bool := bit (s.regs.svc.getD cls 0).toNat 31
def State.slope (s : State) (cls : Nat) : Nat := (s.regs.svc.getD cls 0).toNat % 65536

/-- The open time of a class before a place of a cycle. -/
def openBefore (ps : List (Nat × Nat × Nat)) (cls x : Nat) : Nat :=
  (ps.map fun p => if bit p.2.2 cls then min p.2.1 x - min p.1 x else 0).sum

/-- The open time of a class under a list in the n ns from an instant. -/
def GateList.openNs (g : GateList) (cls t n : Nat) : Nat :=
  let ps := gateParts g.cycle 0 g.entries
  let c := max 1 g.cycle
  let x := g.place t
  n / c * openBefore ps cls c +
    if x + n % c ≤ c then openBefore ps cls (x + n % c) - openBefore ps cls x
    else openBefore ps cls c - openBefore ps cls x + openBefore ps cls (x + n % c - c)

/-- The open time of a class on a port in the n ns from a PTP instant. Class 5 is settled whenever it opens or closes. -/
def Port.openNs (p : Port) (cls t n : Nat) : Nat :=
  if cls = 7 then n else if cls = 5 then (if p.driftGate then n else 0) else p.oper.openNs cls t n

/-- The instants at which the frames of a class that wait on a port were posted. -/
def State.postedAt (s : State) (port cls : Nat) : List Nat :=
  (s.net.egress.filter fun m => m.cls == cls && !m.held && s.portOf m.qp == port).map (·.posted) ++
  (s.net.control.filter fun w => w.cls == cls && s.portOf w.qp == port).map (·.posted)

/-- A class's credit is brought up to an instant: it rises while frames wait, gate open and priority not paused, and a positive credit
of a queue that was empty is 0 (R502). -/
def State.settleCredit (s : State) (port cls t : Nat) : State :=
  if !s.shaped cls then s else
  let p := s.port port
  let last := Table.getD p.creditAt cls t
  let old := Table.getD p.credit cls 0
  let new := match s.postedAt port cls with
    | [] => min old 0
    | x :: xs =>
      let first := xs.foldl min x
      let since := max last first
      let base := if first > last then min old 0 else old
      if p.paused.any fun x => x.1 == cls then base
      else base + ((p.openNs cls (s.clk.ptp + since - s.now) (t - since) * s.slope cls * 1600 : Nat) : Int)
  s.modPort port fun p => { p with credit := Table.set p.credit cls new, creditAt := Table.set p.creditAt cls (max last t) }

/-- Every credit of a port is brought up to an instant. -/
def State.settlePort (s : State) (port t : Nat) : State := (List.range 8).foldl (fun s c => s.settleCredit port c t) s

/-- Every credit is brought up to the present: what follows changes the queues or gates of a port. -/
def State.settleCredits (s : State) : State := (List.range s.portCount).foldl (fun s p => s.settlePort p s.now) s

/-- The credits before a write of SVC_CTLn: each port's are settled up to its next frame boundary under the old slopes, and a class that
was not shaped begins there (R504). -/
def State.settleWrite (s : State) : State :=
  (List.range s.portCount).foldl (fun s p =>
    let t := max s.now (s.port p).busyUntil
    (s.settlePort p t).modPort p fun x =>
      { x with creditAt := (List.range 8).foldl (fun a c => Table.set a c (max t (Table.getD a c t))) x.creditAt }) s

/-- The fall of a class's credit over a frame: sendSlope for its whole time (R502). -/
def State.spendCredit (s : State) (port cls bytes : Nat) : State :=
  if !s.shaped cls then s else
  let fall := 8 * bytes * (16000 - s.slope cls * (1600000 / s.lineRate))
  s.modPort port fun p =>
    { p with credit := Table.set p.credit cls (Table.getD p.credit cls 0 - (fall : Int))
             creditAt := Table.set p.creditAt cls (s.now + wireNs bytes s.lineRate) }

end Sys2Proof.Machine
end

