-- ==== Sys2Proof/Machine/Tier.lean ====
section
/-! DEFINITION. Moves between tiers (R140 to R157, R572), spill images and recalls (R166 to R173, R659), repair (R174 to
R177), and the patrol scrub (R618). -/
namespace Sys2Proof.Machine

/-! ## Frames moved (R165) -/

/-- Counts a frame that a tier's evictor has moved, for the hints of the next millisecond (R165). -/
def State.noteMove (s : State) (t : Tier) : State :=
  let keep := fun (l : List Nat) => l.filter (fun x => decide (x + 1000000 ≥ s.now)) ++ [s.now]
  s.modTiers fun x =>
    match t with
    | .hot => { x with hotMoves := keep x.hotMoves }
    | .warm => { x with warmMoves := keep x.warmMoves }

/-! ## The spill keys and the image (R168, R652, R659) -/

/-- The tenant secret and R_e as the derivations of the spill keys take them (R652). -/
def State.spillSeed (s : State) : List Byte :=
  ((s.trust.tenant.map (·.secret)).getD []) ++ Config.freshSecret s.trust.rotation ++ le 4 s.epoch

/-- The spill XTS keys and the spill GMAC key (R652). -/
def State.spillXts (s : State) : List Byte := sha512 (ascii "LHD-FN40-SPILLX" ++ s.spillSeed)
def State.spillGmac (s : State) : List Byte := sha (ascii "LHD-FN40-SPILLG" ++ s.spillSeed)

/-- The tweak, and the IV, of block b of an image (R659). -/
def spillTweak (count b : Nat) : Nat := count % 2 ^ 64 + 2 ^ 64 * b

/-- FRAME of an image: the sixteen blocks of 4,096 bytes encrypted (R659). -/
def State.spillFrame (s : State) (count : Nat) (frame : List Byte) : List Byte :=
  ((List.range 16).map fun b => fitTo 4096 (Config.xtsEncrypt s.spillXts (spillTweak count b) (slice frame (4096 * b) 4096))).flatten

/-- TAGS of an image over its encrypted FRAME, sixteen of 16 bytes (R659). -/
def State.spillTags (s : State) (count : Nat) (enc : List Byte) : List Byte :=
  ((List.range 16).map fun b => fitTo 16 (Config.gmac s.spillGmac (spillTweak count b) (slice enc (4096 * b) 4096))).flatten

/-- The SPILL_TICKET of a slot (R168). -/
def SpillAt.ticket (x : SpillAt) : Nat := x.generation * 2 ^ 24 + x.slot

/-- The header fields of an image, offsets 65,536 to 65,599 (R168). -/
def State.spillHeader (s : State) (p : Page) (x : SpillAt) : List Byte :=
  le 6 p.cid ++ le 2 p.key.layer ++ le 4 p.key.index ++ le 1 p.key.head ++ le 1 p.layout ++ le 2 s.nodeId ++ le 4 x.ticket ++
  le 4 s.epoch ++ zeros 40

/-- A spill image (R168). -/
def State.spillImage (s : State) (p : Page) (x : SpillAt) (frame : List Byte) : List Byte :=
  let enc := s.spillFrame x.count frame
  let b := enc ++ s.spillHeader p x ++ s.spillTags x.count enc
  b ++ le 8 (crc64 b)

/-- Whether CHECK of a spill image is correct (R168). -/
def imageCheckOk (image : List Byte) : Bool := image.length == 65864 && fieldAt image 65856 8 == crc64 (image.take 65856)

/-- The frame that an image holds, if R171 accepts it but for its SEAL. -/
def State.openImage (s : State) (p : Page) (x : SpillAt) (image : List Byte) : Option (List Byte) :=
  let enc := image.take 65536
  if imageCheckOk image && slice image 65536 64 == s.spillHeader p x && slice image 65600 256 == s.spillTags x.count enc then
    some ((List.range 16).map fun b => Config.xtsDecrypt s.spillXts (spillTweak x.count b) (slice enc (4096 * b) 4096)).flatten
  else none

/-! ## What starts and ends a move -/

/-- Pages of a move have a SEAL to verify: the sealed ones, raw frames of a published version apart (R133, R516). -/
def State.hasSeal (s : State) (pid : Nat) (p : Page) : Bool :=
  p.isSealed &&
  match p.version with
  | none => true
  | some h => match Table.get s.regions.versions h.toNat with
    | none => true
    | some v => v.pages.contains pid

/-- A copy that comes from outside the node's own memories is verified; a failure is counted (R137). -/
def State.sealHolds (s : State) (pid : Nat) (p : Page) (frame : List Byte) : Bool × State :=
  if frame.length == Config.frameBytes && !s.hasSeal pid p then (true, s) else s.verifySeal p.targetFrame frame

/-- A move of a page that has come to be readable but is still RESIDENT or SPILLED starts where a target frame is
available; else it stays wanted (R141, R155, R157). -/
def State.tryMove (s : State) (pid : Nat) (k : MoveKind) (t : Tier) : State := (s.startMove pid k t).getD s

/-- A recall starts: a warm frame is taken, and the recall SEND names the spill slot and a free landing slot (R170). A
promotion wanted behind it stays queued. Without a frame or a landing slot it waits; the requests that wait for the page are judged
again when it starts (R179). -/
def State.startRecall (s : State) (pid : Nat) : State :=
  match s.page pid with
  | none => s
  | some p =>
    match p.spill with
    | none => s
    | some x =>
      match Table.get s.tiers.targets x.target with
      | none => s
      | some g =>
        match (List.range g.landingSlots).find? fun k => !(g.recalls.any fun r => r.1 == k) with
        | none => s
        | some k =>
          match s.startMove pid .refetch .warm with
          | none => s
          | some s =>
            let s := s.modPage pid fun q => { q with queued := if p.queued = some .promote then some .promote else none }
            let s := s.modTiers fun t =>
              { t with targets := Table.modify t.targets x.target fun g => { g with recalls := g.recalls ++ [(k, pid)] } }
            let landing := Table.getD g.landingGen k 0 * 2 ^ 24 + k
            (s.post g.qp 0 [.send (le 4 x.ticket ++ le 4 landing ++ zeros 8)]).judgeStalls pid

/-- The move queued behind one that has ended starts at once, unless its target is the tier just entered (R150). -/
def State.startQueued (s : State) (pid : Nat) : State :=
  match s.page pid with
  | none => s
  | some p =>
    let clear := s.modPage pid fun p => { p with queued := none }
    match p.queued with
    | none => s
    | some .promote => if p.state = .spilled then s.startRecall pid else if p.tier = .hot then clear else s.tryMove pid .promote .hot
    | some .evictHot => if p.tier = .warm then clear else s.tryMove pid .evictHot .warm
    | some .refetch => if p.state = .spilled then s.startRecall pid else clear
    | some .repair => clear.repairOrPoison pid
    | some .evictWarm => clear

/-- The directory names the target frame: the page is RESIDENT there (R141, R144, R152). A page that nothing refers to
any more is freed with the target frame (R145). A frame retired meanwhile stays so (R174). A page whose sealing waited for its repair is
sealed (R40, R134), and a resync copy that waited for the page goes (R581). -/
def State.enterTarget (s : State) (pid : Nat) (p : Page) : State :=
  let s := s.modPage pid fun q =>
    { q with
      tier := p.targetTier, frame := p.targetFrame, noFrame := false, state := .resident, moveKind := none, touch := s.ageTick
      awaitsHot := q.awaitsHot && p.targetTier == .warm }
  let retired := Table.get (s.frames p.targetTier) p.targetFrame == some .retired
  let s := if retired then s else s.useFrame p.targetTier p.targetFrame (.page pid)
  if p.refs = 0 ∧ p.users = [] then s.freePage pid
  else
    let s := match (s.page pid).bind (·.sealDue) with
      | some (fill, w) => s.sealPage pid fill w
      | none => s
    let s := if p.targetTier = .warm && !p.pinnedBy.isEmpty && p.queued.isNone then s.wantMove pid .promote else s
    let s := if s.recover.resyncLeft.contains pid && (p.moveKind = some .refetch || p.moveKind = some .repair) then
      s.twinWhole pid 4 2 (.resync pid) else s
    (s.resumeStalled pid).startQueued pid

/-- The copy phase of a move within the node ends: the page's bytes stand in the target frame. A source that cannot be
read turns the move into a repair (R141, R151, R174). -/
def State.switchPage (s : State) (pid : Nat) : State :=
  match s.page pid with
  | none => s
  | some p =>
    match s.soundPage pid with
    | (false, s) => s
    | (true, s) =>
      let s := s.writeFrame p.targetTier p.targetFrame 0 (s.readFrame p.tier p.frame 0 Config.frameBytes)
      let s := match p.moveKind with
        | some .evictHot => (s.bump Ctr.evictHot).noteMove .hot
        | _ => s.bump Ctr.promote
      (s.leaveFrame p.tier p.frame).enterTarget pid p

/-- MOVE_SWITCH_POINT: the end of the copy phase of a promotion or a hot eviction (R141). -/
def execMoveSwitchPoint (page : Nat) (s : State) : Host.Outcome State Fault Refusal :=
  match s.page page with
  | none => .next s
  | some p =>
    if p.state = .moving && (p.moveKind = some .promote || p.moveKind = some .evictHot) then .next (s.switchPage page) else .next s

/-! ## Evictors (R147 to R157) -/

/-- The page of a tier that its evictor selects: the smallest TOUCH, the lowest frame among equals (R153). A page that an append not
yet committed has filled is not selected: it may be opened again, and an open page stays hot (R39, R135). -/
def State.oldestPage (s : State) (t : Tier) (f : Page → Bool) : Option Nat :=
  let older := fun (a b : Nat × Page) => decide (a.2.touch < b.2.touch) || (a.2.touch == b.2.touch && decide (a.2.frame < b.2.frame))
  (s.tiers.pages.filter fun p => p.2.tier == t && p.2.evictable && s.firm p.2 && f p.2).foldl (fun (acc : Option (Nat × Page)) p =>
    match acc with
    | none => some p
    | some q => if older p q then some p else acc) none |>.map (·.1)

/-- Whether an evictor runs: from below EVICT_START until EVICT_STOP (R156). -/
def evictorRuns (running : Bool) (avail start stop : Nat) : Bool := decide (avail < start) || (running && decide (avail < stop))

/-- HOT_EVICT: while the hot evictor runs and a warm frame is available, the oldest page it may select begins its move to
warm (R153, R156, R157). -/
def execHotEvict (s : State) : Host.Outcome State Fault Refusal :=
  let s := s.modTiers fun t =>
    { t with hotEvicting := evictorRuns t.hotEvicting (s.avail .hot) s.regs.hotEvictStart s.regs.hotEvictStop }
  if !s.tiers.hotEvicting || s.avail .warm = 0 then .next s else
  match s.oldestPage .hot (fun _ => true) with
  | none => .next s
  | some pid => .next (s.tryMove pid .evictHot .warm)

/-- A page's image is written to a slot of a spill target (R167 to R169, R659). The source is read first (R151, R174). -/
def State.spillPage (s : State) (pid target slot : Nat) : State :=
  match s.page pid, Table.get s.tiers.targets target with
  | some p, some g =>
    match s.soundPage pid with
    | (false, s) => s
    | (true, s) =>
      let count := s.trust.spillCount + 1
      let x : SpillAt := { target := target, slot := slot, generation := Table.getD g.generations slot 0, count := count }
      let image := s.spillImage p x (s.readFrame p.tier p.frame 0 Config.frameBytes)
      let s := s.modTrust fun t => { t with spillCount := count }
      let s := s.modTiers fun t =>
        { t with targets := Table.modify t.targets target fun g => { g with used := g.used ++ [slot] } }
      let s := s.modPage pid fun p => { p with state := .moving, moveKind := some .evictWarm, spill := some x, moveStarted := s.now }
      s.post g.qp 0 [.write (BitVec.ofNat 64 (g.bufferAddr.toNat + 69632 * slot)) g.bufferKey image (some (BitVec.ofNat 32 x.ticket))]
        (.spill pid)
  | _, _ => s

/-- WARM_EVICT: while the warm evictor runs and a spill target has a free slot, the oldest page it may select is written
out: none of a published region, and none that a request past its gate refers to (R149, R153, R156). An evictor halted for want of a
slot starts again from its EVICT_START (DESIGN CHOICE, log entry 82). -/
def execWarmEvict (s : State) : Host.Outcome State Fault Refusal :=
  let free := s.pickSpill
  let s := s.modTiers fun t =>
    { t with
      warmEvicting := free.isSome && evictorRuns t.warmEvicting (s.avail .warm) s.regs.warmEvictStart s.regs.warmEvictStop }
  if !s.tiers.warmEvicting then .next s else
  match s.oldestPage .warm (fun p => p.version.isNone && p.users.isEmpty), free with
  | some pid, some (target, slot) => .next (s.spillPage pid target slot)
  | _, _ => .next s

/-- SPILL_IMAGE_ACK: the target's acknowledgement is the switch point into the spill slot; the warm frame is left (R142,
R144, R169). -/
def execSpillImageAck (page : Nat) (s : State) : Host.Outcome State Fault Refusal :=
  if !s.net.acked.contains (.spill page) then .next s else
  let s := s.modNet fun n => { n with acked := n.acked.filter (· != .spill page) }
  match s.page page with
  | none => .next s
  | some p =>
    if p.state != .moving || p.moveKind != some .evictWarm then .next s else
    let s := (s.leaveFrame p.tier p.frame).modPage page fun q =>
      { q with state := .spilled, moveKind := none, tier := .warm, noFrame := true, touch := s.ageTick }
    let s := (s.bump Ctr.evictWarm).noteMove .warm
    if p.refs = 0 ∧ p.users = [] then .next (s.freePage page) else .next (s.startQueued page)

/-! ## Promotion (R146, R572) -/

/-- PROMOTE_START: a warm page that is wanted hot, or that a CONV_PIN covers, begins its move (R146). -/
def execPromoteStart (page : Nat) (s : State) : Host.Outcome State Fault Refusal :=
  match s.page page with
  | none => .next s
  | some p =>
    if p.state = .resident && p.tier = .warm && (p.queued = some .promote || !p.pinnedBy.isEmpty) then
      .next (s.tryMove page .promote .hot)
    else .next s

/-- PROMOTED_PAGE_HOT_MOVE: an open page that a promotion left in its warm frame takes the frame that the hot evictor has
freed, before any other hot allocation (R572). -/
def execPromotedPageHotMove (page : Nat) (s : State) : Host.Outcome State Fault Refusal :=
  match s.page page with
  | none => .next s
  | some p =>
    if !p.awaitsHot || p.state != .resident then .next s else
    match s.allocReserve .hot .leaving with
    | none => .next s
    | some (f, s) =>
      .next (s.modPage page fun p =>
        { p with state := .moving, moveKind := some .promote, targetTier := .hot, targetFrame := f, queued := none, moveStarted := s.now })

/-! ## Recall (R170 to R172) -/

/-- RECALL_START: a spilled page that a request, a pin or a copy waits for is asked for (R144, R170), but not while a repair of it
waits for a frame (R172, R176). -/
def execRecallStart (page : Nat) (s : State) : Host.Outcome State Fault Refusal :=
  match s.page page with
  | none => .next s
  | some p =>
    if p.state = .spilled && p.queued != some .repair &&
        (p.queued = some .refetch || p.queued = some .promote || !p.pinnedBy.isEmpty) then .next (s.startRecall page)
    else .next s

/-- The recall that a landing ticket names at the target of a QP (R170, R437). -/
def State.recallOf (s : State) (qp : Nat) (ticket : Nat) : Option (Nat × Nat × Nat) :=
  s.tiers.targets.findSome? fun t =>
    if t.2.qp != qp || Table.getD t.2.landingGen (ticket % 2 ^ 24) 0 != ticket / 2 ^ 24 then none
    else (t.2.recalls.find? fun r => r.1 == ticket % 2 ^ 24).map fun r => (t.1, r.1, r.2)

/-- A recall's landing slot is free again: its generation rises, as a spill slot's does (R167, R437). -/
def State.freeLanding (s : State) (target slot : Nat) : State :=
  s.modTiers fun t =>
    { t with targets := Table.modify t.targets target fun g =>
        { g with
          recalls := g.recalls.filter fun r => r.1 != slot
          landingGen := Table.set g.landingGen slot ((Table.getD g.landingGen slot 0 + 1) % 256) } }

/-- A recalled image is accepted and installed in its warm frame, and its spill slot freed; or the page is repaired
(R171, R172). -/
def State.landRecall (s : State) (target slot pid : Nat) (image : List Byte) : State :=
  match s.page pid with
  | none => s.freeLanding target slot
  | some p =>
    if p.moveKind != some .refetch then s.freeLanding target slot else
    let (struck, s) := s.checkStruck Blk.spill 0 18
    let image := if struck then flipAt image 65856 else image
    let s := if imageCheckOk image then s else s.checkFailed Blk.spill pid struck
    match p.spill.bind fun x => s.openImage p x image with
    | none => (s.freeLanding target slot).recallFailed pid
    | some frame =>
      let (ok, s) := s.sealHolds pid p frame
      if !ok then (s.freeLanding target slot).recallFailed pid else
      let s := (s.freeLanding target slot).writeFrame p.targetTier p.targetFrame 0 frame
      let s := match p.spill with
        | none => s
        | some x => s.freeSpill x
      let s := s.modTiers fun t =>
        { t with targets := Table.modify t.targets target fun g =>
            { g with recallTimes := (g.recallTimes ++ [s.now - p.moveStarted]).drop (g.recallTimes.length + 1 - 64) } }
      let s := (s.bump Ctr.refetch).modPage pid fun q => { q with spill := none }
      s.enterTarget pid { p with spill := none }

/-- The target of a QP whose landing slot a ticket names: the one that waits for that recall, else the first (R437). -/
def State.landingOn (s : State) (qp ticket : Nat) : Option SpillTarget :=
  match s.recallOf qp ticket with
  | some (t, _, _) => Table.get s.tiers.targets t
  | none => (s.tiers.targets.find? fun t => t.2.qp == qp && decide (ticket % 2 ^ 24 < t.2.landingSlots)).map (·.2)

/-- An image is written where its ticket's landing slot stands in the landing area: 69,632 bytes a slot, under the target's landing
key; or the packet is answered with a NAK (R170, R437, R466, R483, R517; log entry 93). -/
def State.placeImage (s : State) (qp ticket : Nat) (image : List Byte) : Bool × State :=
  match s.landingOn qp ticket with
  | none => (false, s.nakError qp (s.qp qp).rqPsn .remoteAccess)
  | some g =>
    match s.writeTarget { qp := qp, psn := 0, addr := g.landingAddr + BitVec.ofNat 64 (69632 * (ticket % 2 ^ 24)), key := g.landingKey,
                          len := image.length } with
    | some (.region id, off) =>
      match s.region id with
      | none => (false, s.nakError qp (s.qp qp).rqPsn .remoteAccess)
      | some r =>
        if r.state == .poisoned then (false, s.nakError qp (s.qp qp).rqPsn .remoteOperational)
        else (true, s.writeRegion r off image)
    | _ => (false, s.nakError qp (s.qp qp).rqPsn .remoteAccess)

/-- RECALL_LANDING: an RDMA WRITE with immediate into a landing slot, on the target's QP (R170, R465, R635). -/
def execRecallLanding (p : QpPsn) (ticket : W32) (image : List Byte) (s : State) : Host.Outcome State Fault Refusal :=
  if !s.takesCommands || !s.rts p.qp || (s.qp p.qp).kind != .spill then .next s else
  let (ok, s) := s.wireOk p.qp
  if !ok then .next s else
  let (next, s) := s.inOrder p.qp p.psn
  if !next then .next s else
  let (placed, s) := s.placeImage p.qp ticket.toNat image
  if !placed then .next s else
  let s := s.ackMessage p.qp image.length
  match s.recallOf p.qp ticket.toNat with
  | none => .next s
  | some (target, slot, pid) =>
    match s.injected Blk.spill 1 with
    | (some _, s) => .next s
    | (none, s) => .next (s.landRecall target slot pid image)

/-- RECALL_TIMEOUT: 4 ms after its SEND (R172). -/
def execRecallTimeout (page : Nat) (s : State) : Host.Outcome State Fault Refusal :=
  match s.page page with
  | none => .next s
  | some p =>
    if p.state = .moving && p.moveKind = some .refetch && decide (s.now ≥ p.moveStarted + 4000000) then
      let slots := s.tiers.targets.flatMap fun t => (t.2.recalls.filter fun r => r.2 == page).map fun r => (t.1, r.1)
      .next ((slots.foldl (fun s x => s.freeLanding x.1 x.2) s).recallFailed page)
    else .next s

/-! ## Repair (R175 to R177) -/

/-- A repair copy is installed in the frame reserved for it (R175). -/
def State.installRepair (s : State) (pid : Nat) (p : Page) (frame : List Byte) : State :=
  let s := s.writeFrame p.targetTier p.targetFrame 0 frame
  let s := if p.outside then s else s.leaveFrame p.tier p.frame
  match p.spill with
  | some x => ((s.freeSpill x).modPage pid fun q => { q with spill := none }).enterTarget pid { p with spill := none }
  | none => s.enterTarget pid p

/-- Whether a page is being repaired. -/
def Page.repairing (p : Page) : Bool := p.state == .moving && p.moveKind == some .repair

/-- The copy of a page under repair is verified under R137 and installed, or it is lost (R175 to R177). -/
def State.landRepair (s : State) (page : Nat) (b : List Byte) : State :=
  match s.page page with
  | none => s
  | some p =>
    if !p.repairing then s else
    match s.sealHolds page p b with
    | (false, s) => s.repairFailed page
    | (true, s) => s.installRepair page p b

/-- Whether a write addresses the frame that the node has reserved for a page's repair copy, and its immediate holds that frame's number
and zeros above it (R465; log entry 14). -/
def Page.reserved (p : Page) (m : RdmaMsg) : Bool :=
  p.repairing && m.key == 0 && m.addr.toNat == p.targetFrame * 65536 && m.imm == some (BitVec.ofNat 32 (p.targetFrame % 2 ^ 24)) && m.data.length == Config.frameBytes

/-- REPAIR_COPY_LAND: an RDMA WRITE with immediate brings the copy into the reserved frame, and is acknowledged; where no repair of the
page waits for it, or its immediate is not that frame's number, it is counted only. A copy whose source has failed is lost (R175 to R177,
R462, R465, R477). -/
def execRepairCopyLand (page : Nat) (copy : Option RdmaMsg) (s : State) : Host.Outcome State Fault Refusal :=
  match copy with
  | none => .next (if ((s.page page).map Page.repairing).getD false then s.repairFailed page else s)
  | some m =>
    match s.receiveMsg m with
    | (none, s) => .next s
    | (some .duplicate, s) => .next ((s.bump Ctr.dupReq).ackNow m.qp)
    | (some _, s) =>
      let s := s.ackMessage m.qp m.data.length
      .next (if (s.qp m.qp).kind == .node && ((s.page page).map fun p => p.reserved m).getD false then s.landRepair page m.data
        else s.bump Ctr.immIgnored)

/-- The repairs that wait for a frame start where one is available; they run beside whatever is commanded (R155, R175; log
entry 1). -/
def State.resumeRepairs (s : State) : State :=
  (s.tiers.pages.filter fun p => p.2.queued == some .repair && p.2.moveKind.isNone).foldl (fun s p => s.repairOrPoison p.1) s

/-! ## Patrol scrub (R618) -/

/-- The words of a frame that an earlier error has left CORRECTED are written back as codewords. -/
def State.scrubCorrected (s : State) (t : Tier) (f : Nat) : State :=
  let base := frameAddr t f / 32
  s.modTiers fun x =>
    { x with flips := x.flips.filter fun p =>
        !(decide (base ≤ p.1) && decide (p.1 < base + 2048) && (match flipClass p.2 with
          | .corrected _ _ => true
          | _ => false)) }

/-- A twin copy found UNCORRECTABLE: it is freed and its frame retired; a fresh warm frame takes its place in the grant, and
the page is asked for from its home as a repair copy in class 2 (R618). -/
def State.refetchTwin (s : State) (f owner index : Nat) : State :=
  match s.recover.twinCopies.find? fun c => c.owner == owner && c.index == index with
  | none => s
  | some c =>
    let s := s.modRecover fun r => { r with twinCopies := r.twinCopies.filter fun c => !(c.owner == owner && c.index == index) }
    let s := s.retireFrame .warm f
    match s.allocReserve .warm (.grant owner index) with
    | none => s
    | some (g, s) =>
      let s := s.modPartner owner fun p => { p with given := setAt p.given index g }
      s.post (s.nodeQp owner) 2 [.send (le 6 c.cid ++ le 2 c.layer ++ le 4 c.page ++ le 1 c.head ++ zeros 1 ++ le 4 index)]

/-- A granted frame that holds no copy is retired, and a fresh warm frame takes its place in the grant (R174, R555). -/
def State.regrant (s : State) (f owner index : Nat) : State :=
  let s := s.retireFrame .warm f
  match s.allocReserve .warm (.grant owner index) with
  | none => s
  | some (g, s) => s.modPartner owner fun p => { p with given := setAt p.given index g }

/-- What a scrub pass does with a frame whose words it has read: every frame with an UNCORRECTABLE word is retired; a page's is an
unreadable read, a region's poisons the region, a pass's aborts the pass (R174, R353, R517, R618). -/
def State.scrubFound (s : State) (t : Tier) (f : Nat) (found : ReadClass) : State :=
  match found, Table.get (s.frames t) f with
  | .good, _ => s
  | .unreadable, some (.page pid) => (s.retireFrame t f).repairOrPoison pid
  | .poisoned, some (.page pid) => s.repairOrPoison pid
  | .unreadable, some (.twinCopy owner index) => s.refetchTwin f owner index
  | .unreadable, some (.grant owner index) => s.regrant f owner index
  | .unreadable, some (.region id) => (s.retireFrame t f).poisonRegion id
  | .unreadable, some (.drift slot) =>
    let s := s.retireFrame t f
    if s.abortable (s.drift slot) then s.detectAbort slot Reason.driftLocalFailure none Status.poisoned Reason.pagePoisoned else s
  | .unreadable, _ => s.retireFrame t f
  | .poisoned, _ => s

/-- Whether scrubbing is enabled for a tier (R619). -/
def State.scrubs (s : State) (t : Tier) : Bool :=
  match t with
  | .hot => s.regs.scrubHot
  | .warm => s.regs.scrubWarm

/-- SCRUB_PASS: the patrol scrub comes to a frame (R618). A frame number outside the tier names no frame: a fault. -/
def execScrubPass (tier : Tier) (frame : Nat) (s : State) : Host.Outcome State Fault Refusal :=
  if frame ≥ tierFrames tier then .fault .noSuchFrame
  else if !s.scrubs tier then .next s
  else
    let (found, s) := s.checkWords tier frame
    .next ((s.scrubCorrected tier frame).scrubFound tier frame found)

end Sys2Proof.Machine
end

