-- ==== Sys2Proof/Machine/Rdma.lean ====
section
/-! DEFINITION. The RoCEv2 transport (R446 to R493): writes and reads received, twin writes received (R554 to R559),
acknowledgements, retries, congestion and pauses, links, and repair fetches. -/
namespace Sys2Proof.Machine

/-! ## Twin copies held for another node (R554 to R559) -/

/-- The key of a twin record: its owner and CID. -/
def twinKey (owner cid : Nat) : Nat := owner * 2 ^ 48 + cid

/-- The twin record held for an owner's conversation. -/
def State.twinRecordOf (s : State) (owner cid : Nat) : Option TwinRecord := Table.get s.recover.twinRecords (twinKey owner cid)

/-- The copy that stands in a granted frame. -/
def State.copyAt (s : State) (owner index : Nat) : Option TwinCopy :=
  s.recover.twinCopies.find? fun c => c.owner == owner && c.index == index

/-- Replaces the copy of a granted frame; a new one comes behind those that stand in other frames. -/
def State.setCopy (s : State) (c : TwinCopy) : State :=
  let here := fun (x : TwinCopy) => x.owner == c.owner && x.index == c.index
  s.modRecover fun r =>
    { r with twinCopies := if r.twinCopies.any here then r.twinCopies.map fun x => if here x then c else x else r.twinCopies ++ [c] }

/-- The copy that a tail header names (R130): no rows yet. -/
def TwinCopy.ofHeader (owner index frame now : Nat) (h : List Byte) : TwinCopy :=
  { owner := owner, index := index, frame := frame, cid := fieldAt h 0 6, layout := fieldAt h 6 1, page := fieldAt h 8 4
    layer := fieldAt h 16 2, head := fieldAt h 18 1, rows := [], tail := false, lastWrite := now }

/-- Bytes of a tail header. -/
def headerAt : Nat := Config.dataBytes

/-- Whether a tail header names the page that a copy is of (R130). -/
def TwinCopy.names (c : TwinCopy) (h : List Byte) : Bool :=
  fieldAt h 0 6 == c.cid && fieldAt h 8 4 == c.page && fieldAt h 16 2 == c.layer && fieldAt h 18 1 == c.head

/-- Places bytes of a twin write. The tail header of another page opens a new copy: the frame held that page's bytes, if any (R130,
R554, R559). -/
def State.placeTwin (s : State) (owner pos : Nat) (bs : List Byte) : State :=
  let index := pos / 65536
  match s.givenFrame owner index with
  | none => s
  | some f =>
    let s := s.useFrame .warm f (.twinCopy owner index)
    let known := ((s.copyAt owner index).map fun c => c.names bs).getD false
    if pos % 65536 = headerAt && bs.length = 64 && !known then
      ((s.clearFrame .warm f).writeFrame .warm f headerAt bs).setCopy (TwinCopy.ofHeader owner index f s.now bs)
    else s.writeFrame .warm f (pos % 65536) bs

/-- The position of the row that ends at an offset's write (R109, R110). -/
def Layout.rowAt (l : Layout) (off : Nat) : Nat :=
  if l.latent then off / max 1 l.keyRow else (off - l.tokens * l.keyRow) / max 1 l.valueRow

/-- Rows that a whole page gives: its FILL where it is sealed, else those below the record's length (R134, R556). -/
def State.wholeRows (s : State) (c : TwinCopy) (h : List Byte) : List Nat :=
  if bit (fieldAt h 7 1) 0 then List.range (fieldAt h 19 1)
  else match s.twinRecordOf c.owner c.cid with
    | none => []
    | some r => (List.range r.layoutRecord.tokens).filter fun p =>
        decide (c.page * r.layoutRecord.tokens + p < r.committed.getD c.layer 0)

/-- The version and its frame, counted from 0, that a granted frame holds (R516). -/
def State.versionPlace (s : State) (owner index : Nat) : Option (TwinVersion × Nat) :=
  s.recover.twinVersions.findSome? fun v =>
    if v.owner = owner then (v.frames.findIdx? (· == index)).map fun k => (v, k) else none

/-- Frames before the first page of a version's content, its first frame standing in a frame of the warm tier (R528). -/
def State.headFrames (s : State) (v : TwinVersion) : Nat :=
  if v.content ≠ 2 then v.frames.length else
  match (v.frames.head?).bind (s.givenFrame v.owner) with
  | none => 0
  | some f => prefixHead (fieldAt (s.readFrame .warm f 4 4) 0 4) / 65536

/-- A frame of a version has arrived: a copy of no conversation's page (R516). -/
def TwinCopy.ofVersion (owner index frame now k : Nat) : TwinCopy :=
  { owner := owner, index := index, frame := frame, cid := 2 ^ 48, layout := 0, page := k, layer := 0, head := 0, rows := []
    tail := false, lastWrite := now }

/-- A whole page has arrived: a resync or repair copy, or a copy made by a fork, a truncation or a publication. A sealed
page whose SEAL fails counts as an uncorrectable copy (R137, R581, R618). -/
def State.takeWhole (s : State) (owner index : Nat) (verify : Bool) : State :=
  match s.givenFrame owner index with
  | none => s
  | some f =>
    let h := s.readFrame .warm f headerAt 64
    let place := s.versionPlace owner index
    let isSealed := bit (fieldAt h 7 1) 0 && place.all fun x => decide (s.headFrames x.1 ≤ x.2)
    let s := s.setCopy (match place with
      | some x => TwinCopy.ofVersion owner index f s.now x.2
      | none =>
        let c := TwinCopy.ofHeader owner index f s.now h
        { c with rows := s.wholeRows c h, tail := isSealed })
    if verify && isSealed then
      match s.verifySeal f (s.readFrame .warm f 0 Config.frameBytes) with
      | (true, s) => s
      | (false, s) => s.refetchTwin f owner index
    else s

/-- A KIND 1 write ends with a row: its position is held (R554, R557). -/
def State.takeRow (s : State) (owner index off : Nat) : State :=
  match s.copyAt owner index with
  | none => s
  | some c =>
    match s.twinRecordOf owner c.cid with
    | none => s.setCopy { c with lastWrite := s.now }
    | some r => s.setCopy { c with rows := addOnce c.rows (r.layoutRecord.rowAt off), tail := false, lastWrite := s.now }

/-- A KIND 2 write ends with a page tail: the page is sealed at its FILL, or open again (R39, R136). -/
def State.takeTail (s : State) (owner index : Nat) : State :=
  match s.copyAt owner index, s.givenFrame owner index with
  | some c, some f =>
    let h := s.readFrame .warm f headerAt 64
    s.setCopy (if bit (fieldAt h 7 1) 0 then { c with rows := List.range (fieldAt h 19 1), tail := true, lastWrite := s.now }
      else { c with tail := false, lastWrite := s.now })
  | _, _ => s

/-- A conversation state of a code of R66. -/
def ConvState.ofCode (n : Nat) : ConvState :=
  if n = 1 then .opened else if n = 2 then .sealed else if n = 3 then .moving else if n = 4 then .lost else .free

/-- Reads a twin record (R428, R556): the image's checks, then 64 CRCs a layer. -/
def parseTwinRecord (owner now : Nat) (b : List Byte) : Option TwinRecord :=
  let l := Layout.decode (b.take 16)
  let n := fieldAt b 17 1
  let k := fieldAt b 18 2
  let ext := 64 + 4 * l.layers
  let att := ext + 16 * n
  let crcs := att + 8 * k
  if b.length = crcs + 256 * l.layers && zeroAt b 24 40 && 1 ≤ n && n ≤ 16 && k ≤ 64 && fieldAt b 16 1 ≤ 4 then
    let committed := (List.range l.layers).map fun i => fieldAt b (64 + 4 * i) 4
    some { owner := owner, home := fieldAt b ext 2, state := ConvState.ofCode (fieldAt b 16 1), layoutRecord := l, layout := 0
           epoch := fieldAt b 20 4, committed := committed, lastWrite := now
           crcs := (List.range l.layers).map fun i =>
             let m := committed.getD i 0
             (List.range (min 64 m)).filterMap fun j =>
               let t := m - min 64 m + j
               let v := fieldAt b (crcs + 256 * i + 4 * (t % 64)) 4
               if v = 0 then none else some (t, BitVec.ofNat 32 v)
           extents := (List.range n).map fun i =>
             { node := fieldAt b (ext + 16 * i) 2, first := fieldAt b (ext + 16 * i + 4) 4, last := fieldAt b (ext + 16 * i + 8) 4 }
           attached := (List.range k).map fun i => BitVec.ofNat 64 (fieldAt b (att + 8 * i) 8) }
  else none

/-- Rows that a record's lengths cut (R557). -/
def TwinCopy.cutTo (c : TwinCopy) (r : TwinRecord) : TwinCopy :=
  { c with rows := c.rows.filter fun p => decide (c.page * r.layoutRecord.tokens + p < r.committed.getD c.layer 0) }

/-- The CRC of an append whose rows follow: the last 64 of each of its layers are held (R76, R556; log entry 14). -/
def State.takeCrc (s : State) (owner cid : Nat) (b : List Byte) : State :=
  match s.twinRecordOf owner cid with
  | none => s
  | some r =>
    let crcs := (List.range (fieldAt b 6 2)).foldl (fun l k => modifyAt l (fieldAt b 4 2 + k) fun x =>
      (x ++ [(fieldAt b 0 4, BitVec.ofNat 32 (fieldAt b 8 4))]).drop ((x.length + 1) - 64)) r.crcs
    s.modRecover fun x => { x with twinRecords := Table.set x.twinRecords (twinKey owner cid) { r with crcs := crcs } }

/-- The home tells the saturated elements of a page's rows (R119; log entry 14). -/
def State.takeSats (s : State) (owner cid : Nat) (b : List Byte) : State :=
  let tokens := fieldAt b 8 2
  let rows := (List.range tokens).map fun k => (satKey (fieldAt b 0 2) (fieldAt b 2 1) (fieldAt b 4 4 * tokens + k), fieldAt b (10 + 2 * k) 2)
  s.modRecover fun x =>
    { x with
      twinSats := Table.set x.twinSats (twinKey owner cid)
        (rows.foldl (fun t r => if r.2 = 0 then Table.erase t r.1 else Table.set t r.1 r.2) (Table.getD x.twinSats (twinKey owner cid) [])) }

/-- The home tells in which frames the pages lie that a conversation shares with others (R554, R571; log entry 14). -/
def State.takeShared (s : State) (owner cid : Nat) (b : List Byte) : State :=
  s.modRecover fun x =>
    { x with
      twinShared := Table.set x.twinShared (twinKey owner cid) ((List.range (b.length / 12)).map fun k =>
        ({ layer := fieldAt b (12 * k) 2, head := fieldAt b (12 * k + 2) 1, index := fieldAt b (12 * k + 4) 4 }, fieldAt b (12 * k + 8) 4)) }

/-- The home tells the frames of a version of its own, and a NAME of it (R516, R575; log entry 14). -/
def State.takeVersion (s : State) (owner : Nat) (b : List Byte) : State :=
  let h := BitVec.ofNat 64 (fieldAt b 0 8)
  let name := BitVec.ofNat 64 (fieldAt b 24 8)
  s.modRecover fun x =>
    let old := (x.twinVersions.find? fun v => v.owner == owner && v.handle == h).map (·.names)
    { x with
      twinVersions := (x.twinVersions.filter fun v => !(v.owner == owner && v.handle == h)) ++
        [{ owner := owner, handle := h, content := fieldAt b 8 8, length := fieldAt b 16 8, names := addOnce (old.getD []) name
           frames := (List.range ((b.length - 32) / 4)).map fun k => fieldAt b (32 + 4 * k) 4 }] }

/-- The home has freed pages whose copies stand in frames of its grant: the copies are gone, and the frames return to the grant (R559; log
entry 14). -/
def State.takeFreed (s : State) (owner : Nat) (b : List Byte) : State :=
  ((List.range (b.length / 4)).map fun k => fieldAt b (4 * k) 4).foldl (fun s index =>
    let s := s.modRecover fun x =>
      { x with
        twinVersions := x.twinVersions.filter fun v => !(v.owner == owner && v.frames.contains index)
        twinCopies := x.twinCopies.filter fun c => !(c.owner == owner && c.index == index) }
    match s.givenFrame owner index with
    | none => s
    | some f => s.useFrame .warm f (.grant owner index)) s

/-- What the twin knows of a conversation beside its copies ends with its record (R559). -/
def State.dropRecordOf (s : State) (key : Nat) : State :=
  s.modRecover fun x =>
    { x with
      twinRecords := Table.erase x.twinRecords key, twinSats := Table.erase x.twinSats key, twinShared := Table.erase x.twinShared key }

/-- A twin record arrives: it replaces the one held, and cuts the twinned lengths; that of a closed conversation ends it
(R556, R557, R559). What the home tells beside it comes to places of their own (log entry 14). -/
def State.takeRecord (s : State) (owner pos : Nat) (b : List Byte) : State :=
  let cid := pos % 2 ^ 48
  if pos / 2 ^ 48 = 1 then s.takeSats owner cid b
  else if pos / 2 ^ 48 = 2 then s.takeShared owner cid b
  else if pos / 2 ^ 48 = 3 then s.takeFreed owner b
  else if pos / 2 ^ 48 = 4 then s.takeVersion owner b
  else if b.length = 12 then s.takeCrc owner cid b else
  match parseTwinRecord owner s.now b with
  | none => s
  | some r =>
    let s := if r.state = .free then s.dropRecordOf (twinKey owner cid)
      else s.modRecover fun x => { x with twinRecords := Table.set x.twinRecords (twinKey owner cid) r }
    s.modRecover fun x =>
      { x with
        twinCopies := x.twinCopies.map fun c => if c.owner == owner && c.cid == cid then c.cutTo r else c }

/-- What a twin immediate says of the write that carries it (R555, R465): KIND 0 is a repair copy for a frame of the
grant (R618). -/
def State.takeTwinImm (s : State) (owner : Nat) (imm : W32) (pos : Nat) (data : List Byte) : State :=
  let index := imm.toNat % 2 ^ 24
  match imm.toNat / 2 ^ 28 with
  | 0 => s.takeWhole owner index true
  | 1 => if data.length = Config.frameBytes then s.takeWhole owner index false else s.takeRow owner index (pos % 65536)
  | 2 => s.takeTail owner index
  | 3 => s.takeRecord owner pos data
  | 4 => s.takeWhole owner index true
  | _ => s

/-! ## The responder (R462 to R467, R477, R482 to R487) -/

/-- A message admitted under a key revoked in this cycle is waited for by that revocation (R485, R486). -/
def State.awaitLate (s : State) (qp : Nat) (key : W32) : State :=
  match s.lateKey key with
  | none => s
  | some x => s.modRegions fun r =>
      { r with revokes := Table.modify r.revokes x.sequence fun v => { v with waits := addOnce v.waits qp } }

/-- Whether a write or a read addresses a POISONED region (R517). -/
def State.poisonedTarget (s : State) (id : W64) : Bool := ((s.region id).map fun r => r.state == .poisoned).getD false

/-- A write into a POISONED region is answered with a NAK of remote operational error (R517). -/
def WriteTarget.barred (t : WriteTarget) (s : State) : Bool :=
  match t with
  | .region id => s.poisonedTarget id
  | _ => false

/-- A window is written by its bound QP only (R466). -/
def State.windowBars (s : State) (qp : Nat) (t : WriteTarget) : Bool :=
  match t with
  | .region id => ((s.region id).map fun r => r.window && r.qp != qp).getD false
  | _ => false

/-- The frame of a byte of a pass's landing buffers. -/
def Drift.landingFrame (d : Drift) (off : Nat) : Option Nat :=
  let n := (d.landingFrames.headD []).length
  (d.landingFrames.getD (off / 65536 / max 1 n) [])[off / 65536 % max 1 n]?

/-- Places bytes in the landing buffers of a pass, frame by frame. -/
def State.placeDrift (s : State) (slot off : Nat) (bs : List Byte) : State :=
  (List.range ((off + bs.length + 65535) / 65536 - off / 65536)).foldl (fun s k =>
    let fr := off / 65536 + k
    let lo := max off (fr * 65536)
    let hi := min (off + bs.length) ((fr + 1) * 65536)
    match (s.drift slot).landingFrame (fr * 65536) with
    | none => s
    | some f => s.writeFrame .hot f (lo - fr * 65536) (slice bs (lo - off) (hi - lo))) s

/-- Places bytes at an offset of a write's target. -/
def State.place (s : State) (t : WriteTarget) (off : Nat) (bs : List Byte) : State :=
  match t with
  | .region id => s.writeRange id off bs
  | .drift slot => s.placeDrift slot off bs
  | .twin owner => s.placeTwin owner off bs

/-- What the immediate of a write that has been placed means where it landed (R465). A drift block's is judged by
DRIFT_BLOCK_LAND. -/
def State.takeImm (s : State) (qp : Nat) (t : WriteTarget) (off len : Nat) (imm : W32) : State :=
  match t with
  | .drift _ => s
  | .twin owner => s.takeTwinImm owner imm off (zeros len)
  | .region id =>
    match s.region id with
    | none => s.bump Ctr.immIgnored
    | some r =>
      if !r.window || r.state != .live then s.bump Ctr.immIgnored else
      let slot := off / max 1 r.slotBytes
      let b := s.readRegion r (slot * r.slotBytes) r.slotBytes
      s.takeTicket qp id r slot imm (b.take (r.slotBytes - 32)) (b.drop (r.slotBytes - 32))

/-- A FENCED node acknowledges no twin write (R564). -/
def State.mutes (s : State) (qp : Nat) (key : W32) : Bool := s.node.state == .fenced && (s.qp qp).kind == .node && key == 0

/-- Whether a QP has a message admitted under the key of a revocation: a write in progress, or a READ not yet answered (R484, R486). -/
def Qp.holds (q : Qp) (v : Revoke) : Bool := (q.admitted.bind (·.key)) == some (v.number / 256) || q.readKeys.contains v.number

/-- The revocations that waited for messages of a QP go on where it has none left (R486). -/
def State.settleWaits (s : State) (i : Nat) : State :=
  s.modRegions fun r =>
    { r with revokes := r.revokes.map fun v => (v.1, { v.2 with waits := v.2.waits.filter fun j => j != i || (s.qp i).holds v.2 }) }

/-- A QP's admitted message has ended (R486). -/
def State.endAdmitted (s : State) (i : Nat) : State := (s.modQp i fun q => { q with admitted := none }).settleWaits i

/-- Packets of an admitted write are placed; after the last the message is acknowledged and its immediate taken (R462,
R465, R484). A FENCED node acknowledges no twin write (R564). -/
def State.placePart (s : State) (m : RdmaMsg) (a : Admitted) : State :=
  let s := s.place a.target a.next m.data
  let s := s.modQp m.qp fun q => { q with rqPsn := (q.rqPsn + packets m.data.length q.mtu) % 2 ^ 24, nakSent := false }
  if m.more ≠ 0 then s.modQp m.qp fun q => { q with admitted := some { a with next := a.next + m.data.length } }
  else
    let s := s.endAdmitted m.qp
    let s := if s.node.state == .fenced && a.target == .twin (s.peerOf m.qp) then s else s.ackNow m.qp
    match a.imm with
    | none => s
    | some imm => s.takeImm m.qp a.target a.off a.len imm

/-- RDMA_WRITE_RECV: packets of an RDMA WRITE, with or without immediate. The first is admitted by its key check; the rest
need none (R465, R477, R483, R484). -/
def execRdmaWriteRecv (m : RdmaMsg) (s : State) : Host.Outcome State Fault Refusal :=
  match s.receiveMsg m with
  | (none, s) => .next s
  | (some .duplicate, s) => .next (if s.mutes m.qp m.key then s.bump Ctr.dupReq else (s.bump Ctr.dupReq).ackNow m.qp)
  | (some _, s) =>
    match (s.qp m.qp).admitted with
    | some a => .next (s.placePart m a)
    | none =>
      match s.writeTarget m with
      | none => .next (s.nakError m.qp m.psn .remoteAccess)
      | some (t, off) =>
        if s.windowBars m.qp t then .next (s.nakError m.qp m.psn .remoteAccess)
        else if t.barred s then .next (s.nakError m.qp m.psn .remoteOperational)
        else if t == .twin (s.peerOf m.qp) && s.node.state == .fenced then .next s
        else
          let key := match t with
            | .twin _ => none
            | _ => some (m.key.toNat / 256)
          .next ((s.awaitLate m.qp m.key).placePart m { key := key, target := t, next := off, off := off, len := m.len, imm := m.imm })

/-- Posts the response to an RDMA READ, whose packets carry the request's PSN onwards (R467). -/
def State.respond (s : State) (qp psn : Nat) (op : WireOp) : State :=
  let id := s.net.nextMsg
  (s.post qp 0 [op]).modNet fun n => { n with egress := n.egress.map fun x => if x.uid == id then { x with respPsn := psn } else x }

/-- RDMA_READ_RECV: the range is read when the first packet passes its key check, and answered in order (R448, R467,
R477, R483). What cannot be read leaves with its ICRC inverted (R617). -/
def execRdmaReadRecv (m : RdmaMsg) (s : State) : Host.Outcome State Fault Refusal :=
  match s.receiveMsg m with
  | (none, s) => .next s
  | (some cls, s) =>
    if m.len > 16 * 2 ^ 20 || (s.qp m.qp).reads ≥ 16 then .next (s.nakError m.qp m.psn .invalidRequest) else
    match (s.keyHolds m.key (·.read)).bind fun k => (s.keySpan (m.key.toNat / 256) k).map fun x => (k, x) with
    | none => .next (s.nakError m.qp m.psn .remoteAccess)
    | some (k, _, base, len) =>
      if k.region = 0 || m.addr.toNat < base || m.addr.toNat + m.len > base + len then
        .next (s.nakError m.qp m.psn .remoteAccess)
      else if s.poisonedTarget k.region then .next (s.nakError m.qp m.psn .remoteOperational)
      else
        let s := if cls = .duplicate then s.bump Ctr.dupReq
          else s.modQp m.qp fun q => { q with rqPsn := (q.rqPsn + packets m.len q.mtu) % 2 ^ 24, nakSent := false }
        let s := (s.modQp m.qp fun q => { q with reads := q.reads + 1, readKeys := q.readKeys ++ [m.key.toNat] }).awaitLate m.qp m.key
        match s.readRange k.region (m.addr.toNat - base) m.len with
        | (.ok b, s) => .next (s.respond m.qp m.psn (.readResponse b))
        | (.error _, s) => .next ((s.bump Ctr.poisonEgress).respond m.qp m.psn (.badIcrc m.len))

/-- TWIN_WRITE_RECV: a twin write of one message with its twin immediate (R554 to R559). A FENCED node acknowledges none
(R564). -/
def execTwinWriteRecv (qp psn : Nat) (imm : W32) (offset : Nat) (data : List Byte) (s : State) :
    Host.Outcome State Fault Refusal :=
  let m : RdmaMsg := { qp := qp, psn := psn, addr := BitVec.ofNat 64 offset, data := data, len := data.length, imm := some imm }
  match s.receiveMsg m with
  | (none, s) => .next s
  | (some .duplicate, s) => .next (if s.mutes qp 0 then s.bump Ctr.dupReq else (s.bump Ctr.dupReq).ackNow qp)
  | (some _, s) =>
    if (s.qp qp).kind != .node || s.node.state == .fenced then .next s else
    let owner := s.peerOf qp
    let isRecord := imm.toNat / 2 ^ 28 == 3
    if !isRecord && ((s.givenFrame owner (offset / 65536)).isNone || offset % 65536 + data.length > 65536 ||
        offset / 65536 != imm.toNat % 2 ^ 24) then .next (s.nakError qp psn .remoteAccess)
    else
      let s := if isRecord then s else s.placeTwin owner offset data
      .next ((s.ackMessage qp data.length).takeTwinImm owner imm offset data)

/-! ## The requester: acknowledgements and retries (R473 to R475) -/

/-- Packets of a message (R446). -/
def Msg.packets (m : Msg) (mtu : Nat) : Nat := (m.ops.map fun o => Machine.packets o.size mtu).sum

/-- PSN of a message's last packet. -/
def Msg.lastPsn (m : Msg) (mtu : Nat) : Nat := ((m.psn.getD 0) + m.packets mtu + 2 ^ 24 - 1) % 2 ^ 24

/-- Whether an acknowledgement of a PSN covers another. -/
def psnCovers (ack psn : Nat) : Bool := decide ((ack + 2 ^ 24 - psn) % 2 ^ 24 < 2 ^ 23)

/-- One step of the jitter generator: the 16-bit Galois LFSR with taps 0xB400 (R473). -/
def lfsrStep (x : Nat) : Nat := if x % 2 = 1 then Nat.xor (x / 2) 0xB400 else x / 2

/-- Starts the ACK timer of a QP with messages outstanding, with the next jitter (R473). -/
def State.armTimer (s : State) (i : Nat) : State :=
  s.modQp i fun q =>
    if q.unacked.isEmpty then { q with timeoutAt := none } else
    let x := lfsrStep q.lfsr
    let base := min (16 * 2 ^ (q.timeoutExp + q.timeouts)) 4000
    { q with lfsr := x, timeoutAt := some (s.now + 1000 * (base + base * x / 2 ^ 19)) }

/-- A message has been acknowledged: what waited for it goes on, or is left for its own row (R38, R169, R351, R558, R562,
R581). -/
def State.tagAcked (s : State) (t : Tag) : State :=
  match t with
  | .append cid uid =>
    if ((s.conv cid).map fun c => c.passed.any fun a => a.uid == uid).getD false then
      s.modNet fun n => { n with acked := n.acked ++ [t] }
    else s
  | .extent cid id =>
    if ((s.conv cid).map fun c => c.extentMoves.any fun m => m.id == id).getD false then
      s.modNet fun n => { n with acked := n.acked ++ [t] }
    else s
  | .spill _ | .resync _ | .publish _ | .driftResult _ => s.modNet fun n => { n with acked := n.acked ++ [t] }
  | .twinRecord w =>
    match Table.get s.net.waiting w with
    | none => s
    | some x => s.releaseWaiting x.cid w
  | .prefixCopy cid w =>
    match Table.get s.net.waiting w with
    | none => s
    | some x => (s.modNet fun n => { n with waiting := Table.erase n.waiting w }).commitPrefix cid x.ctx
  | .moveRecord cid => s.moveRecorded cid
  | .freed j fs => s.modPartner j fun p =>
      { p with
        grantsFree := p.grantsFree ++ fs.filter fun f => p.freed.any fun x => x.1 == f
        freed := p.freed.filter fun x => !fs.contains x.1 }
  | .hostRecord ctx => s.recordDelivered ctx
  | .none | .driftBlock _ _ | .forward _ _ | .twin _ => s

/-- Whether a message is a twin write: a stamp, or a write under a twin immediate (R555, R561). -/
def Msg.isTwinWrite (m : Msg) : Bool :=
  match m.ops.getLast? with
  | some (.write _ key _ (some imm)) => key == 0 && (m.cls == 4 || imm.toNat / 2 ^ 28 != 0)
  | _ => false

/-- Whether an acknowledgement advances the oldest unacknowledged PSN of a QP: it covers that one, and one that has been given out (R473). -/
def Qp.advances (q : Qp) (psn : Nat) : Bool :=
  decide ((psn + 1 + 2 ^ 24 - q.sqUna) % 2 ^ 24 ≤ (q.sqPsn + 2 ^ 24 - q.sqUna) % 2 ^ 24) && decide ((psn + 1 + 2 ^ 24 - q.sqUna) % 2 ^ 24 ≠ 0)

/-- The messages of a QP that an acknowledgement covers end; one that advances the oldest unacknowledged PSN, be it within a message,
restarts the retry counts and the timer; an acknowledged twin write is contact (R473, R562). -/
def State.takeAck (s : State) (i psn : Nat) : State :=
  let q := s.qp i
  if !q.advances psn then s else
  let done := q.unacked.filter fun m => psnCovers psn (m.lastPsn q.mtu)
  let s := s.modQp i fun q =>
    { q with unacked := q.unacked.filter fun m => !psnCovers psn (m.lastPsn q.mtu)
             sqUna := (psn + 1) % 2 ^ 24, retries := 0, rnrRetries := 0, timeouts := 0 }
  let s := s.armTimer i
  let s := done.foldl (fun s m => s.tagAcked m.tag) s
  if q.kind = .node && done.any Msg.isTwinWrite then s.contact (s.peerOf i) else s

/-- The packets of a message below the oldest unacknowledged PSN: those that need not leave again (R474). -/
def Msg.acked (m : Msg) (mtu una : Nat) : Nat :=
  match m.psn with
  | none => 0
  | some p => if (una + 2 ^ 24 - p) % 2 ^ 24 < m.packets mtu then (una + 2 ^ 24 - p) % 2 ^ 24 else 0

/-- Retransmission from the oldest unacknowledged PSN: the messages stand first in line again, and of the first of them the packets that
have been acknowledged do not leave again (R474). -/
def State.resend (s : State) (i : Nat) : State :=
  let q := s.qp i
  let back := fun (m : Msg) => { m with sent := m.acked q.mtu q.sqUna }
  (s.modQp i fun q => { q with unacked := [], timeoutAt := none }).modNet fun n =>
    { n with egress := q.unacked.map back ++ n.egress.map fun m => if m.qp == i && m.psn.isSome then back m else m }

/-- One retry of R474, or the error after the seventh. -/
def State.retry (s : State) (i : Nat) : State :=
  if (s.qp i).retries ≥ 7 then s.qpError i Reason.retryExhausted
  else (s.modQp i fun q => { q with retries := q.retries + 1 }).resend i

/-- RDMA_ACK_RECV (R473, R562, R635). -/
def execRdmaAckRecv (qp psn : Nat) (s : State) : Host.Outcome State Fault Refusal :=
  if !s.rts qp then .next s else
  match s.injected Blk.rdma 1 with
  | (some _, s) => .next s
  | (none, s) => .next (s.takeAck qp psn)

/-- RDMA_NAK_RECV: a sequence NAK acknowledges what lies below its PSN and counts a retry; any other is fatal (R474,
R478). -/
def execRdmaNakRecv (qp psn : Nat) (kind : NakKind) (s : State) : Host.Outcome State Fault Refusal :=
  if !s.rts qp then .next s else
  match kind with
  | .sequence => .next ((s.takeAck qp ((psn + 2 ^ 24 - 1) % 2 ^ 24)).retry qp)
  | .remoteAccess => .next (s.qpError qp Reason.remoteAccess)
  | .remoteOperational => .next (s.qpError qp Reason.remoteOperational)
  | .invalidRequest => .next (s.qpError qp Reason.invalidRequest)

/-- ACK_TIMEOUT: the local ACK timer has run out (R473, R474). -/
def execAckTimeout (qp : Nat) (s : State) : Host.Outcome State Fault Refusal :=
  match (s.qp qp).timeoutAt with
  | none => .next s
  | some t =>
    if !s.rts qp || s.now < t then .next s
    else .next (((s.bump Ctr.retryTimeout).modQp qp fun q => { q with timeouts := q.timeouts + 1 }).retry qp)

/-- RNR_NAK_RECV: the wait for the timer that the NAK carries, or the error after the seventh (R475). -/
def execRnrNakRecv (qp timerNs : Nat) (s : State) : Host.Outcome State Fault Refusal :=
  if !s.rts qp then .next s
  else if (s.qp qp).rnrRetries ≥ 7 then .next (s.qpError qp Reason.rnrExhausted)
  else .next (s.modQp qp fun q =>
    { q with rnrRetries := q.rnrRetries + 1, rnrUntil := some (s.now + timerNs), timeoutAt := none })

/-- RNR_TIMER_EXPIRY (R475). -/
def execRnrTimerExpiry (qp : Nat) (s : State) : Host.Outcome State Fault Refusal :=
  match (s.qp qp).rnrUntil with
  | none => .next s
  | some t =>
    if !s.rts qp || s.now < t then .next s else .next ((s.modQp qp fun q => { q with rnrUntil := none }).resend qp)

/-! ## Congestion (R489, R490) -/

/-- CE_PACKET_RECV: at most one CNP per QP per 50 µs (R489). -/
def execCePacketRecv (qp : Nat) (s : State) : Host.Outcome State Fault Refusal :=
  let due := match (s.qp qp).lastCnpSent with
    | none => true
    | some t => decide (s.now ≥ t + 50000)
  if !s.rts qp || !due then .next s
  else .next (((s.modQp qp fun q => { q with lastCnpSent := some s.now }).sendControl qp .cnp).bump Ctr.cnpSent)

/-- CNP_RECV: on_cnp of R490; the 55 µs period restarts. -/
def execCnpRecv (qp : Nat) (s : State) : Host.Outcome State Fault Refusal :=
  if !s.rts qp then .next s
  else .next ((s.modQp qp fun q =>
    { q with rt := q.rc, rc := max (q.rc - q.rc * q.alpha / 2048) 100, alpha := q.alpha + (1024 - q.alpha) / 16, stage := 0
             periodStart := s.now }).bump Ctr.cnpRcvd)

/-- RATE_RECOVERY_PERIOD: 55 µs without a CNP; one that comes in the same cycle goes first, and the period restarts (R490; log entry 79). -/
def execRateRecoveryPeriod (qp : Nat) (s : State) : Host.Outcome State Fault Refusal :=
  if !s.rts qp || s.now < (s.qp qp).periodStart + 55000 || s.pending.contains (.cnpRecv qp) then .next s
  else .next (s.modQp qp fun q =>
    let rt := if q.stage + 1 > 5 then min (q.rt + 4000) s.lineRate else q.rt
    { q with alpha := q.alpha - q.alpha / 16, stage := q.stage + 1, rt := rt, rc := max ((q.rc + rt) / 2) 100
             periodStart := q.periodStart + 55000 })

/-! ## Pauses and links (R491, R492, R495) -/

/-- PAUSE_FRAME_RECV: honoured under the profile's PFC bit, for the SERVICE values of its QPs, unless they are being
disregarded (R491, R492). -/
def execPauseFrameRecv (port priority : Nat) (pause : Bool) (s : State) : Host.Outcome State Fault Refusal :=
  let p := s.port port
  let active := (s.node.profile.map (·.pfc)).getD false
  let honoured := s.net.qps.any fun q => q.2.state == .rts && (q.2.kind == .node || q.2.service == priority)
  let ignored := match Table.get p.ignoring priority with
    | none => false
    | some t => decide (s.now < t)
  if !active || !honoured || ignored then .next s
  else .next ((s.settleCredit port priority s.now).modPort port fun p =>
    { p with paused := if pause then (if p.paused.any (fun x => x.1 == priority) then p.paused else p.paused ++ [(priority, s.now)])
                       else p.paused.filter fun x => x.1 != priority })

/-- PFC_STORM_TIMER: a priority paused for 100 ms without interruption (R492). The event's reason is a free value: R493
gives it none. -/
def execPfcStormTimer (port priority : Nat) (s : State) : Host.Outcome State Fault Refusal :=
  match (s.port port).paused.find? fun x => x.1 == priority with
  | none => .next s
  | some (_, since) =>
    if s.now < since + 100000000 then .next s else
    let s := (s.settleCredit port priority s.now).modPort port fun p =>
      { p with paused := p.paused.filter fun x => x.1 != priority, ignoring := Table.set p.ignoring priority (s.now + 100000000) }
    let (reason, s) := s.drawBelow 65536
    .next ((s.watchdogFired Blk.rdma reason (port * 8 + priority)).bump Ctr.pfcStorm)

/-- PORT_LINK_LOSS: QPs move to the next port in service; gate entries stay (R495, R509). Link retrains count in the
health score's window (R440, R588). -/
def execPortLinkLoss (port : Nat) (s : State) : Host.Outcome State Fault Refusal :=
  .next (s.settleCredits.modPort port fun p => { p.down with paused := [] })

/-- PORT_LINK_UP: the port joins and its QPs return to it (R495, R691); an injected DROP suppresses it (R635). -/
def execPortLinkUp (port : Nat) (s : State) : Host.Outcome State Fault Refusal :=
  if port ≥ s.portCount then .next s else
  match s.injected Blk.net (32 + port) with
  | (some _, s) => .next s
  | (none, s) => .next (s.settleCredits.modPort port s.linkOn)

/-! ## Repair fetches of other nodes (R175, R618) -/

/-- FILL in a copy's tail (R130). -/
def State.copyFill (s : State) (c : TwinCopy) : Nat := fieldAt (s.readFrame .warm c.frame headerAt 64) 19 1

/-- The copy of a place of a conversation, of which `need` rows are wanted: that in the frame that the owner has named for the place, else
the conversation's own, and of several the first that is not sealed beyond those rows: a page that a cut replaces stands before its
replacement until the owner frees it (R571, R584; log entry 14). -/
def State.copyFor (s : State) (owner cid : Nat) (k : PageKey) (need : Nat) : Option TwinCopy :=
  let here := s.recover.twinCopies.filter fun c => c.owner == owner && c.layer == k.layer && c.head == k.head && c.page == k.index
  match ((Table.getD s.recover.twinShared (twinKey owner cid) []).find? fun x => x.1 == k).bind fun x =>
      here.find? fun c => c.index == x.2 with
  | some c => some c
  | none =>
    let mine := here.filter fun c => c.cid == cid
    (mine.find? fun c => !c.tail || decide (s.copyFill c ≤ need)).orElse fun _ => mine.head?

/-- The frame in which this node holds a page for another: a twin copy of its owner, or its own home page, known by the frame of its copy
at the other node, else by its place. -/
def State.heldCopy (s : State) (peer cid layer head page frame : Nat) : Option (Tier × Nat) :=
  let k : PageKey := { layer := layer, head := head, index := page }
  match s.copyFor peer cid k 128 with
  | some c => some (.warm, c.frame)
  | none =>
    let twinned := s.tiers.pages.find? fun p => p.2.twinNode == some peer && p.2.twinFrame == frame && p.2.key == k
    match (twinned.map (·.2)).orElse fun _ => ((s.conv cid).bind fun c => c.pageAt k).bind s.page with
    | none => none
    | some p => if p.state = .spilled || p.state = .poisoned then none else some (p.tier, p.frame)

/-- REPAIR_FETCH: the copy is sent back by RDMA WRITE with immediate into the reserved frame, in class 2; one that cannot
be read leaves with its ICRC inverted (R175, R465, R496, R617, R618). -/
def execRepairFetch (p : QpPsn) (cid layer head page frame : Nat) (s : State) : Host.Outcome State Fault Refusal :=
  let (ok, s) := s.receiveSend p.qp 16 p.psn
  if !ok || (s.qp p.qp).kind != .node then .next s else
  match s.heldCopy (s.peerOf p.qp) cid layer head page frame with
  | none => .next s
  | some (t, f) =>
    match s.checkFrame t f with
    | (.good, s) =>
      .next (s.post p.qp 2 [.write (BitVec.ofNat 64 (frame * 65536)) 0 (s.readFrame t f 0 Config.frameBytes)
        (some (BitVec.ofNat 32 (frame % 2 ^ 24)))])
    | (.poisoned, s) => .next ((s.bump Ctr.poisonEgress).post p.qp 2 [.badIcrc Config.frameBytes])
    | (.unreadable, s) => .next (((s.retireFrame t f).bump Ctr.poisonEgress).post p.qp 2 [.badIcrc Config.frameBytes])

end Sys2Proof.Machine
end

