-- ==== Sys2Proof/Machine/Egress.lean ====
section
/-! DEFINITION. The egress scheduler (R494 to R509): frames, gates, the credit shaper, deficit round robin, and the frame
that a free port sends. -/
namespace Sys2Proof.Machine

/-! ## Frames -/

/-- Frame k of a list of operations: its payload bytes, whether it is the last, and the operation that it ends. -/
def frameOf (mtu : Nat) (ops : List WireOp) (k : Nat) : Option (Nat × Bool × Option WireOp) :=
  match ops with
  | [] => none
  | o :: rest =>
    let n := packets o.size mtu
    if k < n then some (if k + 1 = n then o.size - k * mtu else mtu, rest.isEmpty && k + 1 == n, if k + 1 = n then some o else none)
    else frameOf mtu rest (k - n)

/-- The operation that frame k of a list of operations is of, its packet number in it, and the operation's packets. -/
def packetOf (mtu : Nat) (ops : List WireOp) (k : Nat) : Option (WireOp × Nat × Nat) :=
  match ops with
  | [] => none
  | o :: rest => if k < packets o.size mtu then some (o, k, packets o.size mtu) else packetOf mtu rest (k - packets o.size mtu)

/-- Wire bytes of a message's next frame. -/
def State.nextBytes (s : State) (m : Msg) : Nat :=
  wireBytes (((frameOf (s.qp m.qp).mtu m.ops m.sent).map (·.1)).getD 0)

/-- Whether a message's packets take PSNs of this node as requester. -/
def Msg.asks (m : Msg) : Bool :=
  m.ops.any fun o => match o with
    | .readResponse _ => false
    | .badIcrc _ => m.tag != .none
    | _ => true

/-! ## Gates (R505, R506, R508) -/

/-- Whether a message's gate is open at an instant; a block send waits for its own window (R339, R505, R508). -/
def State.gateOpen (s : State) (p : Port) (m : Msg) (t : Nat) : Bool :=
  match (if m.cls = 5 then m.drift else none) with
  | some (slot, n) => p.driftGate && ((s.drift slot).windows[n]?.map fun w => decide (w.1 ≤ t) && decide (t < w.2)).getD false
  | none => p.classOpen m.cls t

/-- Whether a message's frame that ends at an instant fits before the next close of its gate (R506). -/
def State.frameFits (s : State) (p : Port) (m : Msg) (t fin : Nat) : Bool :=
  match (if m.cls = 5 then m.drift else none) with
  | some (slot, n) => ((s.drift slot).windows[n]?.map fun w => decide (fin ≤ w.2)).getD false
  | none => p.classFits m.cls t fin

/-! ## The frames that may leave (R461, R495, R498, R501) -/

/-- The end of a frame that starts now. -/
def State.frameEnd (s : State) (m : Msg) (t : Nat) : Nat := t + wireNs (s.nextBytes m) s.lineRate

/-- Whether a message's gate holds its next frame. -/
def State.gated (s : State) (m : Msg) : Bool :=
  let p := s.port (s.portOf m.qp)
  !(s.gateOpen p m s.clk.ptp && s.frameFits p m s.clk.ptp (s.frameEnd m s.clk.ptp))

/-- Whether a message is the next of its QP: one that has its PSN first; then posting order, of its class on a NODE QP. A message of a
NODE QP that a closed gate holds does not hold those of other classes (R461). -/
def State.isNext (s : State) (m : Msg) : Bool :=
  let ms := s.net.egress.filter fun x => x.qp == m.qp && !x.held
  let node := (s.qp m.qp).kind == .node
  match ms.find? fun x => x.psn.isSome && !(node && x.cls != m.cls && s.gated x) with
  | some x => x.uid == m.uid
  | none =>
    let ms := if node then ms.filter fun x => x.cls == m.cls else ms
    (ms.head?.map (·.uid)) == some m.uid

/-- The messages of a class that stand next in line on a port. -/
def State.waitingAt (s : State) (port cls : Nat) : List Msg :=
  s.net.egress.filter fun m =>
    m.cls == cls && !m.held && s.rts m.qp && (s.qp m.qp).rnrUntil.isNone && s.portOf m.qp == port && s.isNext m

/-- Those whose gate is open and whose frame fits (R498, R506). -/
def State.sendable (s : State) (port cls : Nat) : List Msg :=
  (s.waitingAt port cls).filter fun m =>
    s.gateOpen (s.port port) m s.clk.ptp && s.frameFits (s.port port) m s.clk.ptp (s.frameEnd m s.clk.ptp)

/-- The packets of a class that are ready to leave on a port. -/
def State.controlAt (s : State) (port cls : Nat) : List Sent :=
  s.net.control.filter fun w => w.cls == cls && s.portOf w.qp == port

/-- Whether the gate of such a packet is open, and whether it fits. -/
def State.controlOpen (s : State) (port : Nat) (w : Sent) : Bool := (s.port port).classOpen w.cls s.clk.ptp
def State.controlFits (s : State) (port : Nat) (w : Sent) : Bool :=
  (s.port port).classFits w.cls s.clk.ptp (s.clk.ptp + wireNs (wireBytes w.bytes) s.lineRate)
def State.controlReady (s : State) (port cls : Nat) : List Sent :=
  (s.controlAt port cls).filter fun w => s.controlOpen port w && s.controlFits port w

/-- Frames that an open gate's close holds are counted once each (R506). -/
def State.countFitHolds (s : State) (port : Nat) : State :=
  let held := ((List.range 8).flatMap fun c => s.waitingAt port c).filter fun m =>
    !m.fitHeld && s.gateOpen (s.port port) m s.clk.ptp && !s.frameFits (s.port port) m s.clk.ptp (s.frameEnd m s.clk.ptp)
  let late := fun (w : Sent) => s.portOf w.qp == port && !w.fitHeld && s.controlOpen port w && !s.controlFits port w
  (s.bumpBy Ctr.gateFitHold (held.length + (s.net.control.filter late).length)).modNet fun n =>
    { n with
      egress := n.egress.map fun m => if held.any (fun x => x.uid == m.uid) then { m with fitHeld := true } else m
      control := n.control.map fun w => if late w then { w with fitHeld := true } else w }

/-- Whether a service may send now (R498). -/
def State.serviceReady (s : State) (port cls : Nat) : Bool :=
  let p := s.port port
  !(p.paused.any fun x => x.1 == cls) && (!s.shaped cls || decide (Table.getD p.credit cls 0 ≥ 0)) &&
  (!(s.controlReady port cls).isEmpty || (s.sendable port cls).any fun m => decide ((s.qp m.qp).nextAt ≤ s.now))

/-! ## Subscribers and QPs (R500, R501) -/

/-- The subscriber of a QP at the scheduler (R500). -/
def State.schedSub (s : State) (qp : Nat) : Nat := if (s.qp qp).kind = .host then (s.qp qp).subscriber else fabricSubscriber

/-- A subscriber's quantum (R500). -/
def State.quantum (s : State) (sub : Nat) : Nat :=
  ((if sub = fabricSubscriber then s.regs.fabricWeight else Table.getD s.regs.subWeight sub 0) + 1) * 4096

/-- Key of a subscriber's deficit and last QP within a class. -/
def schedKey (cls sub : Nat) : Nat := cls * 8192 + sub

/-- The next number above a given one, cyclically. -/
def nextAfter (l : List Nat) (x : Nat) : Nat :=
  let above := l.filter fun y => decide (y > x)
  match above with
  | y :: ys => ys.foldl min y
  | [] => match l with
    | [] => x
    | y :: ys => ys.foldl min y

/-- Whether k frames of a list of operations end within an operation: between the messages of a chain a turn may end (R447, R501). -/
def midMessage (mtu : Nat) (ops : List WireOp) (k : Nat) : Bool :=
  match ops with
  | [] => false
  | o :: rest => if k < packets o.size mtu then decide (k ≠ 0) else midMessage mtu rest (k - packets o.size mtu)

/-- What a subscriber sends next: a packet that is ready, or a message's next frame. -/
inductive Choice where
  | ready (w : Sent)
  | frame (m : Msg)
deriving DecidableEq, Repr

/-- Of a subscriber's QPs the one whose turn it is: the last one while it is within a message, else the next one (R501). A packet that is
ready goes ahead of the messages of its QP. -/
def State.nextChoice (s : State) (ws : List Sent) (ms : List Msg) (lastQp : Option Nat) : Option Choice :=
  let qps := ws.map (·.qp) ++ ms.map (·.qp)
  let going := lastQp.bind fun q => ms.find? fun m => m.qp == q && midMessage (s.qp q).mtu m.ops m.sent
  let q := match going, lastQp with
    | some m, _ => m.qp
    | none, some q => nextAfter qps q
    | none, none => qps.foldl min (qps.headD 0)
  match ws.find? fun w => w.qp == q with
  | some w => some (.ready w)
  | none => (ms.find? fun m => m.qp == q).map .frame

/-- Wire bytes of a choice. -/
def State.choiceBytes (s : State) (c : Choice) : Nat :=
  match c with
  | .ready w => wireBytes w.bytes
  | .frame m => s.nextBytes m

/-- Deficit round robin over the subscribers that have a frame queued: the present one while its deficit covers its next frame, else the
next ones in turn, each with its quantum; one whose frame may not leave now is passed over (R500). -/
def roundRobin (fuel : Nat) (subs : List Nat) (deficit : Table Nat) (cls cur : Nat) (able : Nat → Bool) (need quantum : Nat → Nat) :
    Nat × Table Nat :=
  match fuel with
  | 0 => (cur, deficit)
  | fuel + 1 =>
    if subs.contains cur && able cur && need cur ≤ Table.getD deficit (schedKey cls cur) 0 then
      (cur, Table.set deficit (schedKey cls cur) (Table.getD deficit (schedKey cls cur) 0 - need cur))
    else
      let nx := nextAfter subs cur
      roundRobin fuel subs (Table.set deficit (schedKey cls nx) (Table.getD deficit (schedKey cls nx) 0 + quantum nx)) cls nx able need quantum

/-! ## A frame leaves -/

/-- Bytes that leave through the check-value units of the QP: an APPEND unit lengthens every SEND, HOLD units keep the
message's value (R625, R626). -/
def State.frameUnits (s : State) (m : Msg) : Msg × State :=
  if m.psn.isSome || s.regs.chk.isEmpty then (m, s) else
  let (ops, s) := m.ops.foldl (fun (acc : List WireOp × State) o =>
    match o with
    | .send b =>
      let s := acc.2.chkHold m.qp true b
      let (b, s) := s.chkEgress m.qp b
      (acc.1 ++ [.send b], s)
    | .write a k b i => (acc.1 ++ [.write a k b i], acc.2.chkHold m.qp true b)
    | o => (acc.1 ++ [o], acc.2)) ([], s)
  ({ m with ops := ops, bytes := (ops.map WireOp.size).sum }, s)

/-- What the last frame of a message leaves behind: it waits for its acknowledgement; a READ has been answered, and the
revocations that wait for it go on; a block send is complete (R341, R467, R473, R486). -/
def State.messageSent (s : State) (m : Msg) : State :=
  let s := s.modNet fun n => { n with egress := n.egress.filter fun x => x.uid != m.uid }
  let s := match m.drift with
    | none => s
    | some (slot, n) => s.modDrift slot fun d => { d with sent := addOnce d.sent n }
  if m.asks then
    let s := s.modQp m.qp fun q => { q with unacked := q.unacked ++ [m] }
    if (s.qp m.qp).timeoutAt.isNone then s.armTimer m.qp else s
  else (s.modQp m.qp fun q => { q with reads := q.reads - 1, readKeys := q.readKeys.drop 1 }).settleWaits m.qp

/-- The headers, payload and ICRC of packet k of a message whose first PSN is given; the last packet of a message that takes PSNs asks for
its acknowledgement (R9, R446, R449, R450, R461, R467, R497; log entry 72). -/
def State.packet (s : State) (m : Msg) (k bytes : Nat) (last : Bool) : List Byte × List Byte × List Byte :=
  let q := s.qp m.qp
  match packetOf q.mtu m.ops k with
  | none => ([], [], [])
  | some (o, i, n) =>
    let psn := ((if m.asks then m.psn.getD 0 else m.respPsn) + k) % 2 ^ 24
    let route := s.route m.qp m.cls
    let headers := packetHeaders route (o.packetKind q) (i == 0) (i + 1 == n) (last && m.asks) psn o.size bytes
    let payload := slice (o.image q) (i * q.mtu) bytes
    (headers, payload, icrcBytes route o.isBad headers payload)

/-- The next frame of a message leaves on a port: the PSN of its message is fixed with its first frame (R461), and the
port is busy until the frame has ended (R494). -/
def State.sendFrame (s : State) (port : Nat) (m : Msg) : State :=
  let fresh := m.psn.isNone && m.sent == 0
  let (m, s) := if fresh then s.frameUnits m else (m, s)
  let q := s.qp m.qp
  match frameOf q.mtu m.ops m.sent with
  | none => s.modNet fun n => { n with egress := n.egress.filter fun x => x.uid != m.uid }
  | some (bytes, last, op) =>
    let m' : Msg := { m with sent := m.sent + 1, fitHeld := false, psn := if fresh && m.asks then some q.sqPsn else m.psn }
    let packet := s.packet m' m.sent bytes last
    let s := if fresh && m.asks then s.modQp m.qp fun q => { q with sqPsn := (q.sqPsn + m.packets q.mtu) % 2 ^ 24 } else s
    let s := s.modQp m.qp fun q => { q with nextAt := s.now + wireNs (wireBytes bytes) q.rc }
    let s := s.modNet fun n =>
      { n with
        wire := n.wire ++ [{ port := port, qp := m.qp, cls := m.cls, msg := m.uid, bytes := bytes, last := last, ops := op.toList,
                              headers := packet.1, payload := packet.2.1, icrc := packet.2.2 }]
        egress := n.egress.map fun x => if x.uid == m.uid then m' else x }
    let s := (s.modPort port fun p => { p with busyUntil := s.now + wireNs (wireBytes bytes) s.lineRate }).spendCredit port m.cls (wireBytes bytes)
    if last then s.messageSent m' else s

/-- A packet that is ready leaves on a port (R494). -/
def State.sendReady (s : State) (port : Nat) (w : Sent) : State :=
  let s := s.modNet fun n => { n with wire := n.wire ++ [{ w with port := port, fitHeld := false }], control := n.control.erase w }
  (s.modPort port fun p => { p with busyUntil := s.now + wireNs (wireBytes w.bytes) s.lineRate }).spendCredit port w.cls (wireBytes w.bytes)

/-- What was chosen leaves. -/
def State.sendChoice (s : State) (port : Nat) (c : Choice) : State :=
  match c with
  | .ready w => s.sendReady port w
  | .frame m => s.sendFrame port m

/-- The subscribers with a frame queued in a service of a port (R500). -/
def State.queuedSubs (s : State) (port cls : Nat) : List Nat :=
  (((s.net.egress.filter fun m => m.cls == cls && !m.held && s.portOf m.qp == port).map fun m => s.schedSub m.qp) ++
    (s.controlAt port cls).map fun w => s.schedSub w.qp).foldl addOnce []

/-- A subscriber without a frame queued loses its deficit (R500). -/
def State.dropDeficits (s : State) (port cls : Nat) : State :=
  let subs := s.queuedSubs port cls
  s.modPort port fun p => { p with deficit := p.deficit.filter fun x => x.1 / 8192 != cls || subs.contains (x.1 % 8192) }

/-- A service's next frame: subscriber, then QP (R494, R500, R501). -/
def State.serveClass (s : State) (port cls : Nat) : State :=
  let s := s.dropDeficits port cls
  let p := s.port port
  let ms := (s.sendable port cls).filter fun m => decide ((s.qp m.qp).nextAt ≤ s.now)
  let ws := s.controlReady port cls
  let subs := s.queuedSubs port cls
  let pick := fun (sub : Nat) =>
    s.nextChoice (ws.filter fun w => s.schedSub w.qp == sub) (ms.filter fun m => s.schedSub m.qp == sub)
      (Table.get p.lastQp (schedKey cls sub))
  let need := fun (sub : Nat) => ((pick sub).map s.choiceBytes).getD 0
  let (sub, deficit) := roundRobin (3 * subs.length + 3) subs p.deficit cls (Table.getD p.lastSub cls fabricSubscriber)
    (fun x => (pick x).isSome) need s.quantum
  match pick sub with
  | none => s
  | some c =>
    let qp := match c with
      | .ready w => w.qp
      | .frame m => m.qp
    let s := s.modPort port fun p =>
      { p with deficit := deficit, lastSub := Table.set p.lastSub cls sub, lastQp := Table.set p.lastQp (schedKey cls sub) qp }
    (s.sendChoice port c).dropDeficits port cls

/-- EGRESS_FRAME_SELECT: a free port sends from the eligible service with the highest class number (R494, R499). -/
def execEgressFrameSelect (port : Nat) (s : State) : Host.Outcome State Fault Refusal :=
  if port ≥ s.portCount || !(s.port port).link || s.now < (s.port port).busyUntil then .next s else
  let s := (s.countFitHolds port).settlePort port s.now
  match [7, 6, 5, 4, 3, 2, 1, 0].find? fun c => s.serviceReady port c with
  | none => .next s
  | some c => .next (s.serveClass port c)

/-- GATE_ENTRY_INSTANT: drift entries whose instant has passed are consumed, and open or close class 5 (R508). The base
list needs no event: its states follow from the time (R505). -/
def execGateEntryInstant (port : Nat) (s : State) : Host.Outcome State Fault Refusal :=
  .next ((s.settleCredit port 5 s.now).modPort port fun p =>
    let due := p.drift.filter fun e => decide (e.1 ≤ s.clk.ptp)
    { p with
      drift := p.drift.filter fun e => !decide (e.1 ≤ s.clk.ptp)
      driftOpen := match due.getLast? with
        | none => p.driftOpen
        | some e => e.2.1 })

/-- GCL_CHANGE_EFFECT: the pending list becomes operational (R507). -/
def execGclChangeEffect (port : Nat) (s : State) : Host.Outcome State Fault Refusal :=
  match (s.port port).pendingList with
  | none => .next s
  | some (g, at_) =>
    if s.clk.ptp < at_ then .next s
    else .next (((s.settlePort port s.now).modPort port fun p => { p with oper := g, pendingList := none }).bump Ctr.configChange)

end Sys2Proof.Machine
end

