-- ==== Sys2Proof/Machine/Engine.lean ====
section
/-! DEFINITION. The near-memory engines: when a queued command starts, what it does, and when it is cut (R520, R540 to R542). -/
namespace Sys2Proof.Machine

/-! ## Execution (R520, R541, R542) -/

/-- Time of a transfer of n bytes at a tier's rate in ns: 819.2 GB/s of an engine's stack, 546 GB/s of the warm tier
(R540). -/
def transferNs (t : Tier) (n : Nat) : Nat :=
  match t with
  | .hot => ceilDiv (n * 10) 8192
  | .warm => ceilDiv n 546

/-- Time of a range at the rates of the tiers that its frames lie in: those of a version may be hot or warm (R516, R540, R541). -/
def State.rangeNs (s : State) (id : W64) (off n : Nat) : Nat :=
  match s.region id, s.version id with
  | some r, _ => transferNs r.tier n
  | none, some v =>
    ((List.range ((off + n + 65535) / 65536 - off / 65536)).map fun k =>
      let f := off / 65536 + k
      let bytes := min (off + n) (65536 * (f + 1)) - max off (65536 * f)
      transferNs ((((v.frames[f]?).bind s.page).map (·.tier)).getD .hot) bytes).sum
  | none, none => 0

/-- The time that a command is estimated to take from its length and tier rates (R541; log entry 23). -/
def State.nearNs (s : State) (n : Near) : Nat :=
  ((n.writes ++ n.reads).map fun r => s.rangeNs r.1 r.2.1 r.2.2).sum

/-- The request whose own record a near-memory command has added, while it still waits for that (R296). -/
def State.ownerOf (s : State) (n : Near) : Option Nat :=
  n.own.filter fun ctx => (s.req ctx).any fun r =>
    r.ownSent && r.graze.mode == 3 && r.cmd.requestId == n.ctx.requestId && r.cmd.arrival == n.ctx.arrival

/-- A near-memory command ends with its reply; one of the node's own goes on in its request, or ends it, where that has not ended
(R296, R298). -/
def State.endNear (s : State) (k : Nat) (a : Ans) : State :=
  match Table.get s.regions.near k with
  | none => s
  | some n =>
    let s := s.modRegions fun r => { r with near := Table.erase r.near k }
    if n.own.isNone then s.finish n.ctx a else
    match s.ownerOf n with
    | none => s
    | some ctx => if a.status = Status.ok then s.recordDelivered ctx else s.endReq ctx a

/-- NEAR_COMMAND_START: it starts once every overlapping command of a lower number has ended (R520); one foreseen late
ends (R541). -/
def execNearCommandStart (sequence : Nat) (s : State) : Host.Outcome State Fault Refusal :=
  match Table.get s.regions.near sequence with
  | none => .next s
  | some n =>
    if n.running || (s.regions.near.any fun x => decide (x.1 < sequence) && n.waitsFor x.2) then .next s else
    let away := n.reads.flatMap fun r => s.rangeAway r.1 r.2.1 r.2.2
    if !away.isEmpty then
      .next (away.foldl (fun s pid => if ((s.page pid).map fun p => p.state == .spilled).getD false then s.wantMove pid .refetch else s) s)
    else if s.now + s.nearNs n > n.ctx.deadline then .next (s.endNear sequence (Ans.miss Reason.nearLate))
    else .next (s.modRegions fun r => { r with near := Table.modify r.near sequence fun n => { n with running := true } })

/-- The first place where two byte strings differ; 2^64 - 1 where they are equal (R432). -/
def firstDiff (a b : List Byte) (i : Nat) : Nat :=
  match a, b with
  | x :: xs, y :: ys => if x = y then firstDiff xs ys (i + 1) else i
  | _, _ => 2 ^ 64 - 1

/-- Pattern bytes of a fill (R542). -/
def fillBytes (pattern : List Byte) (n : Nat) : List Byte := (List.range n).map fun i => pattern.getD (i % 8) 0

/-- The bytes that a fill or copy writes. -/
def State.nearBytes (s : State) (n : Near) : Except Ans (List Byte) × State :=
  match n.kind with
  | .fill p => (.ok (fillBytes p n.length), s)
  | .copy src off => s.readRange src off n.length
  | _ => (.ok [], s)

/-- What a near-memory command does (R542, R544). -/
def State.runNear (s : State) (n : Near) : Ans × State :=
  let (buf, s) := s.sramRead Blk.near (s.engineOf n.region n.offset) (s.engineOf n.region n.offset)
  if !buf then ({ status := Status.poisoned, reason := Reason.poisonConsumed }, s) else
  match n.kind with
  | .reduce r => s.reduceInto n.region n.offset r
  | .compare src off =>
    match s.readRange n.region n.offset n.length with
    | (.error a, s) => (a, s)
    | (.ok x, s) =>
      match s.readRange src off n.length with
      | (.error a, s) => (a, s)
      | (.ok y, s) => (Ans.ok (firstDiff x y 0), s)
  | _ =>
    match s.nearBytes n with
    | (.error a, s) => (a, s)
    | (.ok b, s) =>
      if ((s.region n.region).map fun r => r.state == .poisoned).getD false then (Ans.poisoned, s)
      else (Ans.ok, s.writeRange n.region n.offset b)

/-- NEAR_COMMAND_DONE. -/
def execNearCommandDone (sequence : Nat) (s : State) : Host.Outcome State Fault Refusal :=
  match Table.get s.regions.near sequence with
  | none => .next s
  | some n =>
    if !n.running then .next s else
    let (a, s) := s.runNear n
    .next (s.endNear sequence a)

/-- NEAR_DEADLINE_CUT: a fill or copy running at its deadline is cut; the granules named hold the new bytes (R541). -/
def execNearDeadlineCut (sequence : Nat) (written : List Nat) (s : State) : Host.Outcome State Fault Refusal :=
  match Table.get s.regions.near sequence with
  | none => .next s
  | some n =>
    let cuttable := match n.kind with
      | .fill _ => true
      | .copy _ _ => true
      | _ => false
    if !n.running || !cuttable || s.now < n.ctx.deadline then .next s else
    if ((s.region n.region).map fun r => r.state == .poisoned).getD false then .next (s.endNear sequence Ans.poisoned) else
    match s.nearBytes n with
    | (.error a, s) => .next (s.endNear sequence a)
    | (.ok b, s) =>
      let s := (written.filter fun g => decide (64 * g + 64 ≤ n.length)).foldl
        (fun s g => s.writeRange n.region (n.offset + 64 * g) (slice b (64 * g) 64)) s
      .next (s.endNear sequence (Ans.miss Reason.nearLate))

end Sys2Proof.Machine
end

