-- ==== Sys2Proof/Machine/Env.lean ====
section
/-! DEFINITION. The monitors and their limits (R692, R693, R698). Readings are in the units of MONn: 10 mV, 0.1 °C, 0.01
L/min (R697). -/
namespace Sys2Proof.Machine

/-- Whether a rail's reading lies outside its nominal value by more than a percentage. -/
def railOff (n : Nat) (percent : Nat) (v : Int) : Bool :=
  let nominal : Int := if n = 1 then 1200 else Config.railNominal n
  decide (100 * v < nominal * (100 - percent)) || decide (100 * v > nominal * (100 + percent))

/-- Beyond the throttle limit (R692). -/
def overThrottle (n : Nat) (v : Int) : Bool :=
  match n with
  | 0 => decide (v < 4400) || decide (v > 5900)
  | 9 | 10 => decide (v > 950)
  | 11 | 12 => decide (v > 850)
  | 13 => decide (v > 1100)
  | 14 => decide (v > 450)
  | 15 => decide (v < 200)
  | _ => false

/-- Inside the throttle limit by the hysteresis (R693). -/
def clearOfThrottle (n : Nat) (v : Int) : Bool :=
  match n with
  | 0 => decide (v ≥ 4500) && decide (v ≤ 5800)
  | 9 | 10 => decide (v ≤ 900)
  | 11 | 12 => decide (v ≤ 800)
  | 13 => decide (v ≤ 1050)
  | 14 => decide (v ≤ 400)
  | 15 => decide (v ≥ 220)
  | _ => true

/-- Beyond the fence limit, for a reading that has lain beyond it for a time in ms (R692). -/
def overFence (n : Nat) (v : Int) (heldMs : Nat) : Bool :=
  match n with
  | 0 => (decide (v < 4400) || decide (v > 5900)) && decide (heldMs ≥ 100)
  | 9 | 10 => decide (v > 1050)
  | 11 | 12 => decide (v > 950)
  | 13 => decide (v > 1200)
  | 14 => (decide (v > 480) && decide (heldMs ≥ 1000)) || (decide (v < 150) && decide (heldMs ≥ 60000))
  | 15 => decide (v < 120) || (decide (v < 200) && decide (heldMs ≥ 10000))
  | n => decide (n < 9) && railOff n 5 v && decide (heldMs ≥ 10)

/-- A value beyond a fence limit, whatever the time it has lain there: the check of MONITOR_LIMIT (R712). -/
def beyondFence (n : Nat) (v : Int) : Bool := overFence n v 60000

/-- Beyond the trip limit (R692). -/
def overTrip (n : Nat) (v : Int) : Bool :=
  match n with
  | 0 => decide (v < 4000) || decide (v > 6200)
  | 8 => false
  | 9 | 10 => decide (v > 1150)
  | 11 => decide (v > 1050)
  | 13 => decide (v > 1250)
  | n => decide (n < 8) && railOff n 10 v

/-- BEYOND of PWR_STATUS: the throttle limit, or the fence limit where a monitor has no other (R698). -/
def beyondBit (n : Nat) (v : Int) : Bool := if 1 ≤ n ∧ n ≤ 8 then railOff n 5 v else overThrottle n v

/-- A reading that an injected fault of kind 6 forces: beyond the upper limit, and 0 for the flow (R634, R692). -/
def forcedReading (n : Nat) : Int := if n = 15 then 0 else 100000

end Sys2Proof.Machine
end

