-- ==== Sys2Proof/Machine/Twin.lean ====
section
/-! DEFINITION. Twins, failover and stand-ins (R439, R552 to R586): the bind, stamps and silence, TWIN_RESYNC and the
promotions that follow it, offers and resync, and the failure of a context pool. -/
namespace Sys2Proof.Machine

/-! ## Partners (R439, R552) -/

/-- A node becomes a partner now; what it has granted and been granted stays (R552, R555). -/
def State.bindPartner (s : State) (j : Nat) : State :=
  s.modRecover fun r =>
    { r with
      partners := Table.set r.partners j
        { Table.getD r.partners j {} with
          lastContact := s.now, lastStamp := s.now, bound := true, lost := false, silent := false, fencedStamp := false }
      lostNodes := r.lostNodes.filter (· != j) }

/-- The entry of a node that is no partner, made where there is none. -/
def State.knowNode (s : State) (j : Nat) : State :=
  if (s.partner j).isSome then s else
  s.modRecover fun r =>
    { r with partners := Table.set r.partners j { lastContact := s.now, lastStamp := s.now, bound := false } }

/-- Binds a node to its table TWIN, and under G3 to its TWIN2; the digest that the TWIN answers with is a free value (R411,
R439; log entry 4). -/
def State.bindTwin (s : State) (j second : Nat) : State :=
  let (d, s) := s.drawWord
  let s := (s.bindPartner j).modNode fun n => { n with twinBound := some j, partnerDigest := some d }
  if second < 1024 && (s.node.profile.map (·.grade)) == some 3 then s.bindPartner second else s

/-- The refusal of a bind (R439). -/
def State.bindRefusal (s : State) (j : Nat) : Option Ans :=
  match s.selfEntry with
  | none => some (Ans.param Reason.twinMismatch)
  | some e =>
    if e.twin ≠ j then some (Ans.param Reason.twinMismatch)
    else if ((s.fabricNode j).map (·.domain)) == some e.domain then some (Ans.state Reason.twinDomain)
    else if !s.linkUp j then some (Ans.miss Reason.twinUnreachable)
    else none

/-- A bind whose partner gives no answer waits out its bound of 10 ms (R402, R439). -/
def State.awaitTwin (s : State) (ctx : CmdCtx) : State :=
  s.modNet fun n =>
    { n with
      nextWait := n.nextWait + 1
      waiting := Table.set n.waiting n.nextWait
        { ctx := { ctx with deadline := ctx.arrival + 10000000 }, status := 0, reason := 0, param0 := 0, param1 := 0
          result := [], cid := 2 ^ 48, onRecord := false } }

/-- TWIN_BIND (R439). No rule gives the exchange with the partner: whether it answers is a free value, and an answer comes
at once (log entry 4). -/
def execTwinBind (c : Cmd) (s : State) : Host.Outcome State Fault Refusal :=
  .next (s.onArrive 0x0501 c fun c ctx s => s.noPayload c ctx fun s =>
    match s.bindRefusal c.hdr.p0 with
    | some a => s.finish ctx a
    | none =>
      let (k, s) := s.drawBelow 2
      if k = 0 then (s.bindTwin c.hdr.p0 ((s.selfEntry.map (·.twin2)).getD 0xFFFF)).finish ctx (Ans.ok)
      else s.awaitTwin ctx)

/-! ## Grants (R554, R555) -/

/-- Grants at most n warm frames to a node that this one twins for: twin writes may take them down to zero free frames (R155, R555). -/
def State.grantFrames (s : State) (j n : Nat) : Nat × State :=
  let k := min n (s.freeFrames .warm)
  let start := ((s.partner j).map (·.given.length)).getD 0
  (k, (List.range k).foldl (fun s i =>
    let (f, s) := s.takeFrame .warm (.grant j (start + i))
    s.modPartner j fun p => { p with given := p.given ++ [f] }) s)

/-- Newly granted frames of a partner become usable: they are numbered on from the last (R555). -/
def State.takeNewGrant (s : State) (j n : Nat) : State :=
  s.modPartner j fun p =>
    { p with grantsFree := p.grantsFree ++ (List.range n).map (p.grantsTotal + ·), grantsTotal := p.grantsTotal + n }

/-! ## Resync (R580, R581) -/

/-- A page of an assigned conversation goes to its stand-in: it takes a twin frame, the saturated elements of its rows are told, and its
copy is sent, after its recall where it is spilled. Its frame is read first (R174). Without a twin frame it waits for grants (R119,
R555, R581). -/
def State.resyncPage (s : State) (j pid : Nat) : State :=
  match s.page pid with
  | none => s
  | some p =>
    if p.twinNode.isSome || p.state == .poisoned then s else
    match s.takeGrant j with
    | none => s
    | some (g, s) =>
      let take := fun (s : State) =>
        let s := s.modPage pid fun p => { p with twinNode := some j, twinFrame := g }
        if p.saturated then s.twinSats pid else s
      if p.state = .spilled then (take s).wantMove pid .refetch
      else if p.outside || p.moveKind = some .repair then take s
      else match s.soundPage pid with
        | (true, s) => (take s).twinWhole pid 4 2 (.resync pid)
        | (false, s) => s.returnGrant j g

/-- The pages of a conversation that have no twin copy. -/
def State.untwinned (s : State) (cid : Nat) : List Nat :=
  match s.conv cid with
  | none => []
  | some c => (c.pages.map (·.2)).filter fun pid => ((s.page pid).map (·.twinNode.isNone)).getD false

/-- The resync copies of a conversation that has been promoted and assigned (R580, R581). -/
def State.resyncConv (s : State) (cid : Nat) : State :=
  match s.conv cid with
  | none => s
  | some c =>
    match c.twin with
    | none => s
    | some j =>
      if c.promoting || c.state == .lost then s else
      let pids := s.untwinned cid
      let s := s.modRecover fun r => { r with resyncLeft := pids.foldl addOnce r.resyncLeft }
      (pids.foldl (fun s pid => s.resyncPage j pid) s).twinShared cid

/-- Whether a page's resync copy waits for a twin frame alone: a repair goes first. -/
def State.waitsGrant (s : State) (pid : Nat) : Bool :=
  ((s.page pid).map fun p => p.twinNode.isNone && p.state != .poisoned && p.queued != some .repair).getD false

/-- Resync copies that waited for a partner's grants continue, as frames are granted or return (R555). -/
def State.resumeResync (s : State) (j : Nat) : State :=
  (s.twinnedAt j).foldl (fun s (c : Nat × Conv) =>
    if (s.untwinned c.1).any s.waitsGrant && ((s.partner j).map fun p => !p.grantsFree.isEmpty).getD false then s.resyncConv c.1 else s) s

/-- That, for every partner; it runs beside whatever is commanded (R555; log entry 1). -/
def State.resumeResyncs (s : State) : State := s.recover.partners.foldl (fun s p => s.resumeResync p.1) s

/-- Pages whose resync copy has not been acknowledged (R595: RESYNC_LEFT). -/
def State.resyncOpen (s : State) : List Nat := s.recover.resyncLeft.filter fun pid => (s.page pid).isSome

/-- SOLE_COPY falls when every conversation is re-twinned (R581). -/
def State.settleSole (s : State) : State :=
  if s.recover.toPromote.isEmpty && s.recover.unassigned.isEmpty && s.resyncOpen.isEmpty then
    s.modRecover fun r => { r with soleCopy := false, resyncLeft := [] }
  else s

/-- The rows held behind a page's resync copy go, in their order (R100, R554; log entry 76). -/
def State.releaseRows (s : State) (pid : Nat) : State :=
  match s.page pid with
  | none => s
  | some p =>
    let mine := fun (m : Msg) => p.twinNode.any (fun j => m.qp == s.nodeQp j) && m.cls == 4 && match m.ops with
      | .write a _ _ _ :: _ => a.toNat / 65536 == p.twinFrame
      | _ => false
    s.modNet fun n => { n with egress := n.egress.map fun m => if m.held && mine m then { m with held := false } else m }

/-- RESYNC_COPY_ACK (R581). -/
def execResyncCopyAck (page : Nat) (s : State) : Host.Outcome State Fault Refusal :=
  if !s.net.acked.contains (.resync page) then .next s else
  let s := s.modNet fun n => { n with acked := n.acked.filter (· != .resync page) }
  let s := s.modRecover fun r => { r with resyncLeft := r.resyncLeft.filter (· != page) }
  .next (((s.releaseRows page).bump Ctr.resyncFrames).settleSole)

/-! ## Stand-ins (R578 to R582) -/

/-- Frames of a conversation that needs a twin: its pages, or the copies from which it will be promoted. -/
def State.framesOf (s : State) (cid : Nat) : Nat :=
  match s.conv cid with
  | none => 0
  | some c => if c.promoting then (s.recover.twinCopies.filter fun x => x.cid == cid).length else c.pages.length

/-- Frames that the node still needs from stand-ins (R579). -/
def State.framesNeeded (s : State) : Nat := (s.recover.unassigned.map s.framesOf).sum

/-- The first bound stand-in whose remaining grant covers a conversation (R580). -/
def State.standinFor (s : State) (cid : Nat) : Option Nat :=
  s.recover.standins.find? fun j =>
    match s.partner j with
    | none => false
    | some p => !p.lost && !p.silent && decide (s.framesOf cid ≤ p.grantLeft)

/-- The largest n from a length on whose tokens below it are all held. -/
def heldFrom (held : Nat → Bool) (fuel n : Nat) : Nat :=
  match fuel with
  | 0 => n
  | fuel + 1 => if held n then heldFrom held fuel (n + 1) else n

/-- The twinned length of a layer: that of the record, and the tokens that every KV head's copies hold after it (R557). -/
def State.twinnedLength (s : State) (owner cid : Nat) (r : TwinRecord) (layer : Nat) : Nat :=
  let l := r.layoutRecord
  let mine := s.recover.twinCopies.filter fun c => c.owner == owner && c.cid == cid && c.layer == layer
  heldFrom (fun n => (List.range l.kvHeads).all fun h =>
      mine.any fun c => c.head == h && c.page == n / max 1 l.tokens && c.rows.contains (n % max 1 l.tokens))
    ((mine.map fun c => c.rows.length).sum) (r.committed.getD layer 0)

/-- The twinned lengths of every layer. -/
def State.twinnedLengths (s : State) (owner cid : Nat) (r : TwinRecord) : List Nat :=
  (List.range r.layoutRecord.layers).map fun ly => s.twinnedLength owner cid r ly

/-- The lost node of which a conversation is to be promoted, and its record. -/
def State.promotedFrom (s : State) (cid : Nat) : Option (Nat × TwinRecord) :=
  (s.recover.lostNodes.find? fun x => (s.twinRecordOf x cid).isSome).bind fun x => (s.twinRecordOf x cid).map fun r => (x, r)

/-- The entry of a conversation or an extent as its promotion leaves it: lengths, CRCs, epoch and extents are as the record and the copies
give them, those of the lost node are this node's, and no QP holds the lease (R571, R573, R575). -/
def State.promoted (s : State) (owner : Nat) (r : TwinRecord) (lengths : List Nat) (c : Conv) : Conv :=
  let rest := r.extents.drop 1
  { c with
    promoting := false, committed := lengths, epoch := r.epoch + 1, lease := none, lostLease := []
    crcs := (List.range lengths.length).map fun i => (r.crcs.getD i []).filter fun x => decide (x.1 < lengths.getD i 0)
    extents := if r.home = owner then rest.filter fun e => e.node != owner && e.node != s.nodeId
      else (rest.filter fun e => e.node == owner).map fun e => { e with node := s.nodeId }
    attached := r.attached.filter fun h => (s.version h).isSome }

/-- The twin record of a conversation just assigned; of one still to be promoted, as its promotion will leave it (R580). A move between
nodes or pools that waits for its record goes on with it (R423). -/
def State.recordAssigned (s : State) (cid : Nat) : State :=
  match s.conv cid with
  | none => s
  | some c =>
    if c.promoting then
      match s.promotedFrom cid with
      | none => s
      | some (x, r) => s.twinRecord cid (s.promoted x r (s.twinnedLengths x cid r) c) .none
    else s.twinRecord cid c (if c.move.any (·.incoming) then .moveRecord cid else .none)

/-- Assigns the conversations that a stand-in covers, in order; their twin records go before any page (R580). -/
def State.assignAll (s : State) : State :=
  let (got, s) := s.recover.unassigned.foldl (fun (acc : List Nat × State) cid =>
    let s := acc.2
    match s.conv cid, s.standinFor cid with
    | none, _ => (acc.1, s.modRecover fun r => { r with unassigned := r.unassigned.filter (· != cid) })
    | some _, none => acc
    | some _, some j =>
      let n := s.framesOf cid
      let s := s.modPartner j fun p => { p with grantLeft := p.grantLeft - n }
      let s := s.modConv cid fun c => { c with twin := some j }
      (acc.1 ++ [cid], s.modRecover fun r => { r with unassigned := r.unassigned.filter (· != cid) })) ([], s)
  let s := got.foldl State.recordAssigned s
  (got.foldl State.resyncConv s).settleSole

/-- The candidates of R578, in ascending order of distance; the DOMAIN of TWIN2 is shut out under G3 alone. -/
def State.standinCandidates (s : State) : List Nat :=
  let own := (s.selfEntry.map (·.domain)).getD 0
  let second := s.secondTwin.getD 0xFFFF
  let dist := fun (j : Nat) => (j + 1024 - s.nodeId) % 1024
  let ok := fun (n : FabricNode) =>
    (n.role == .spare || n.role == .twinOnly) && !s.recover.lostNodes.contains n.id && n.domain != own &&
    ((s.fabricNode second).map (·.domain)) != some n.domain && n.id != s.nodeId
  let nodes := (((s.node.fabric.map (·.nodes)).getD []).filter ok).map (·.id)
  (nodes.foldl (fun (acc : Table Nat) j => Table.set acc (dist j) j) []).map (·.2)

/-- Offers to the next candidate while conversations are unassigned, with four stand-ins bound to those alone; with no candidate left the
offers end, with an event where some are unassigned (R579, R582). -/
def State.nextOffer (s : State) (lost : Nat) : State :=
  if s.recover.unassigned.isEmpty then s.modRecover fun r => { r with offer := none } else
  match s.recover.candidates.filter fun j => decide (s.recover.standins.length < 4) || s.recover.standins.contains j with
  | [] => (s.modRecover fun r => { r with offer := none, candidates := [] }).raise Blk.twin Reason.standinNone lost
  | j :: rest =>
      let s := (s.knowNode j).modRecover fun r => { r with candidates := rest, offer := some (j, lost, s.now) }
      s.writeStamp j 4 (lost + 2 ^ 15) s.framesNeeded 0 s.node.state

/-- A candidate's answer to the offer that runs: with a grant it is bound, and conversations are assigned to it (R579,
R580). -/
def State.takeAnswer (s : State) (j lost frames : Nat) : State :=
  match s.recover.offer with
  | none => s
  | some (c, x, _) =>
    if c ≠ j ∨ lost ≠ x + 2 ^ 15 then s else
    if frames = 0 then s.nextOffer x else
    let s := (s.bindPartner j).modPartner j fun p => { p with standin := true, grantLeft := p.grantLeft + frames }
    let s := (s.takeNewGrant j frames).modRecover fun r => { r with standins := addOnce r.standins j }
    s.assignAll.nextOffer x

/-- A survivor's offer is answered: with frames from a TWIN_ONLY node, or from a SPARE node that stands in for no other
from its available frames (R579). -/
def State.answerOffer (s : State) (j lost frames : Nat) : State :=
  let free := !(s.recover.partners.any fun p => p.2.standinFor && p.1 != j)
  let want := if s.node.role == .twinOnly || (s.node.role == .spare && free) then min frames (s.avail .warm) else 0
  let (k, s) := s.grantFrames j want
  let s := if k = 0 then s else s.modPartner j fun p => { p with standinFor := true, lost := false, lastContact := s.now }
  s.writeStamp j 8 lost k 0 s.node.state

/-- STANDIN_OFFER_TIMEOUT: 200 µs without an answer (R579). -/
def execStandinOfferTimeout (s : State) : Host.Outcome State Fault Refusal :=
  match s.recover.offer with
  | none => .next s
  | some (_, lost, since) => if s.now < since + 200000 then .next s else .next (s.nextOffer lost)

/-! ## Stamps (R561 to R564) -/

/-- Whether the node stamps and judges contact: in the Svc states and FENCED, but not after a trip (R561, R564, R695). -/
def State.stamps (s : State) : Bool :=
  s.pwr.state == .active && (s.node.state == .serving || s.node.state == .degraded || s.node.state == .fenced)

/-- STAMP_SEND: a stamp to a partner each 100 µs, with WANT while fewer than 64 of the granted frames are unused; how many
frames it wants is the node's choice. A node that this one twins for gets the frames it wants with it (R555, R561). -/
def execStampSend (partner : Nat) (s : State) : Host.Outcome State Fault Refusal :=
  match s.partner partner with
  | none => .next s
  | some p =>
    if !s.stamps || p.lost || s.now < p.lastStamp + 100000 || !(p.watched || p.wants ≠ 0) then .next s else
    let s := s.modPartner partner fun p => { p with lastStamp := s.now, wants := 0 }
    let (grant, s) := s.grantFrames partner p.wants
    if p.bound && p.grantsFree.length < 64 then
      let (k, s) := s.drawBelow (2 ^ 24)
      .next (s.writeStamp partner 16 0 (k + 1) grant s.node.state)
    else .next (s.writeStamp partner 0 0 0 grant s.node.state)

/-- Whether a stamp's bytes hold: the CRC, unless a fault is injected into its check, and a STAMP_SEQ above the last
accepted (R561, R635). -/
def State.stampHolds (s : State) (j : Nat) (b : List Byte) : Bool × State :=
  let (struck, s) := s.checkStruck Blk.twin 0 22
  let good := b.length == 64 && fieldAt b 60 4 == crc32c (b.take 60) && !struck
  let s := if good then s else s.checkFailed Blk.twin j struck
  (good && decide (((s.partner j).map (·.seqSeen)).getD 0 < fieldAt b 8 8), s)

/-- An accepted stamp's grants, wants, offers and answers are applied (R555, R563, R579). -/
def State.applyStamp (s : State) (j : Nat) (b : List Byte) : State :=
  let flags := fieldAt b 3 1
  let frames := fieldAt b 20 4
  let s := (s.knowNode j).modPartner j fun p =>
    { p with seqSeen := fieldAt b 8 8, wants := if bit flags 4 then frames else p.wants }
  let s := if fieldAt b 2 1 = NodeState.fenced.code then
      ((s.modPartner j fun p => { p with fencedStamp := true }).loseParticipant j).silence j Reason.voteFenced
    else s
  let s := if fieldAt b 24 4 = 0 then s else (s.takeNewGrant j (fieldAt b 24 4)).resumeResync j
  let s := if bit flags 2 then s.answerOffer j (fieldAt b 6 2) frames else s
  if bit flags 3 then s.takeAnswer j (fieldAt b 6 2) frames else s

/-- STAMP_RECV: a stamp lands in its sender's slot of the stamp area. A FENCED node acknowledges none (R561, R564,
R635). -/
def execStampRecv (p : QpPsn) (message : List Byte) (s : State) : Host.Outcome State Fault Refusal :=
  if !s.takesCommands || !s.rts p.qp || (s.qp p.qp).kind != .node then .next s else
  let (ok, s) := s.wireOk p.qp
  if !ok then .next s else
  let (next, s) := s.inOrder p.qp p.psn (s.node.state == .fenced)
  if !next then .next s else
  match s.injected Blk.twin 1 with
  | (some _, s) => .next s
  | (none, s) =>
    let j := s.peerOf p.qp
    let s := if s.node.state == .fenced then s else s.ackMessage p.qp message.length
    let s := s.modRecover fun r => { r with stamps := Table.set r.stamps j message }
    let (holds, s) := s.stampHolds j message
    if !holds then .next (s.bump Ctr.stampBad) else .next (s.applyStamp j message)

/-- PARTNER_SILENCE: no contact for SILENT_US (R563). -/
def execPartnerSilence (partner : Nat) (s : State) : Host.Outcome State Fault Refusal :=
  match s.partner partner with
  | none => .next s
  | some p =>
    if !s.stamps || s.now < p.lastContact + 1000 * s.regs.silentUs then .next s else .next (s.silence partner Reason.voteSilent)

/-! ## TWIN_RESYNC (R439, R569, R570) -/

/-- Inserts a conversation into a list, the latest twin write first. -/
def insertLatest (x : Nat × Nat) (l : List (Nat × Nat)) : List (Nat × Nat) :=
  match l with
  | [] => [x]
  | y :: rest => if y.2 < x.2 then x :: y :: rest else y :: insertLatest x rest

/-- Conversations in the order of their latest twin write, the latest first (R571, R580). -/
def latestFirst (l : List (Nat × Nat)) : List Nat := (l.foldl (fun acc x => insertLatest x acc) []).map (·.1)

/-- The latest twin write for a conversation of an owner: of its record or of a copy. -/
def State.latestWrite (s : State) (owner cid : Nat) (r : TwinRecord) : Nat :=
  (s.recover.twinCopies.filter fun c => c.owner == owner && c.cid == cid).foldl (fun n c => max n c.lastWrite) r.lastWrite

/-- The twin records held for an owner, by CID. -/
def State.recordsOf (s : State) (owner : Nat) : List (Nat × TwinRecord) :=
  (s.recover.twinRecords.filter fun r => r.2.owner == owner).map fun r => (r.1 % 2 ^ 48, r.2)

/-- The layout slot for a record: the slot that holds it, else the lowest undefined one takes it; those from 64 on, which no command
names, serve when the 64 are defined (R101; log entry 19). -/
def State.layoutFor (s : State) (l : Layout) : Nat × State :=
  match s.slotOf l.encode with
  | some i => (i, s)
  | none =>
    match (List.range 256).find? fun i => (s.layout i).isNone with
    | none => (256, s)
    | some i => (i, s.modAttn fun a => { a with layouts := Table.set a.layouts i l })

/-- The entry of a conversation that is to be promoted: this node is its home, and it passes no gate event yet (R571). A
record that names another home is of an extent: the home stays (R575). -/
def State.enterPromotion (s : State) (x cid : Nat) (r : TwinRecord) : State :=
  let (slot, s) := s.layoutFor r.layoutRecord
  let conv : Conv :=
    { s.freshConv (s.mappedPool (cidHash cid)) slot r.layoutRecord.layers 0 [] none with
      home := if r.home = x then s.nodeId else r.home, state := r.state, epoch := r.epoch, promoting := true
      pages := ((s.conv cid).map (·.pages)).getD [], selfFenced := false, lastTwinWrite := r.lastWrite }
  { s with convs := Table.set s.convs cid conv }

/-- The replies that waited for a lost partner's acknowledgement of a twin record are given: no partner is left to keep it (R552, R558,
R576). -/
def State.answerLost (s : State) (x : Nat) : State :=
  (s.twinnedAt x).foldl (fun s c => s.releaseWaiting c.1 s.net.nextWait) s

/-- The twin of a node's conversations and pages is lost: they have none, and their self-fence lifts (R576). -/
def State.dropTwin (s : State) (x : Nat) : State :=
  let s := { s with convs := Table.mapVals s.convs fun _ c =>
    if c.twin == some x then { c with twin := none, selfFenced := false } else c }
  s.modTiers fun t =>
    { t with pages := Table.mapVals t.pages fun _ p =>
        let p := if p.twin2Node == some x then { p with twin2Node := none } else p
        if p.twinNode == some x then { p with twinNode := p.twin2Node, twinFrame := p.twin2Frame, twin2Node := none } else p }

/-- The copies of a lost node of which no conversation is left to be promoted: those that became no page are freed with
their records and the frames of its grant (R559, R574). -/
def State.clearLost (s : State) (x : Nat) : State :=
  let gone := s.recover.twinCopies.filter fun c => c.owner == x
  let used := gone.filterMap fun c => if c.pid.isSome then some c.frame else none
  let s := (((s.partner x).map (·.given)).getD []).foldl (fun s f => if used.contains f then s else s.freeFrame .warm f) s
  (s.modPartner x fun p => { p with given := [] }).modRecover fun r =>
    { r with
      twinCopies := r.twinCopies.filter fun c => c.owner != x
      twinVersions := r.twinVersions.filter fun v => v.owner != x
      twinRecords := r.twinRecords.filter fun t => t.2.owner != x
      twinSats := r.twinSats.filter fun t => t.1 / 2 ^ 48 != x
      twinShared := r.twinShared.filter fun t => t.1 / 2 ^ 48 != x }

/-- The copies of a version's frames, where every one is held and readable, the SEAL of each page verified; one that is not readable
retires its frame (R137, R174, R571, R574, R575). -/
def State.versionCopies (s : State) (v : TwinVersion) : Option (List TwinCopy) × State :=
  let head := s.headFrames v
  (List.zip v.frames (List.range v.frames.length)).foldl (fun (acc : Option (List TwinCopy) × State) x =>
    match acc.1, acc.2.copyAt v.owner x.1 with
    | some cs, some c =>
      match acc.2.checkFrame .warm c.frame with
      | (.good, s) =>
        if x.2 < head then (some (cs ++ [c]), s) else
        let (ok, s) := s.verifySeal c.frame (s.readFrame .warm c.frame 0 Config.frameBytes)
        (if ok then some (cs ++ [c]) else none, s)
      | (.unreadable, s) => (none, s.retireFrame .warm c.frame)
      | (.poisoned, s) => (none, s)
    | _, _ => (none, acc.2)) (some [], s)

/-- The directory entry of a frame of a promoted version: its copy is its home, in place (R571, R575). -/
def State.promoteFrame (s : State) (h : W64) (slot head : Nat) (l : Layout) (tokens : Nat) (c : TwinCopy) (k : Nat) : Nat × State :=
  let isPage := decide (head ≤ k)
  let key := if isPage then prefixKey l tokens (k - head) else { layer := 0, head := 0, index := k }
  let fill := if isPage then min l.tokens (tokens - key.index * l.tokens) else 0
  let (sats, s) := if isPage then s.spreadSats l fill (fieldAt (s.readFrame .warm c.frame headerAt 64) 28 2) else ([], s)
  let pid := s.tiers.nextPage
  let g : Page :=
    { cid := 0, layout := slot, key := key, tier := .warm, frame := c.frame, touch := s.ageTick, isSealed := true, version := some h
      fill := fill, sats := sats }
  let s := s.modTiers fun t => { t with pages := Table.set t.pages pid g, nextPage := pid + 1 }
  (pid, (s.useFrame .warm c.frame (.page pid)).setCopy { c with pid := some pid })

/-- A published version of a lost node is promoted: its copies become its frames, in place, or it is merged into a version of the same
digest that this node holds; its NAMEs are bound here where they are free. Who was attached to it by subscriber is not known here: it
retires at the first detachment that leaves it without any (R524, R539, R571, R575; log entry 57). -/
def State.promoteVersion (s : State) (v : TwinVersion) : State :=
  let bind := fun (s : State) => s.modRegions fun r =>
    { r with names := v.names.foldl (fun t n => if (Table.get t n.toNat).isSome then t else Table.set t n.toNat v.handle.toNat) r.names }
  match s.versionCopies v with
  | (none, s) => s
  | (some cs, s) =>
    let b := ((cs.map fun c => s.readFrame .warm c.frame 0 Config.frameBytes).flatten).take v.length
    let digest := sha b
    if handleOf digest ≠ v.handle then s else
    match s.version v.handle with
    | some w => if w.digest = digest then bind s else s
    | none =>
      let tokens := if v.content = 2 then fieldAt b 4 4 else 0
      let slot := if v.content = 2 then fieldAt b 1 1 else if v.content = 1 then fieldAt b 0 1 else 0
      let head := s.headFrames v
      let l := (s.layout slot).getD (Layout.decode [])
      let (pids, s) := (List.zip cs (List.range cs.length)).foldl (fun (acc : List Nat × State) x =>
        let (pid, s) := acc.2.promoteFrame v.handle slot head l tokens x.1 x.2
        (acc.1 ++ [pid], s)) ([], s)
      let (base, s) := s.drawWord
      let w : Version :=
        { digest := digest, content := v.content, length := v.length, frames := pids, pages := pids.drop head, state := .published
          layout := slot, tokens := tokens, chunk := if v.content = 2 then fieldAt b 2 2 else 0
          modelId := if v.content = 2 then BitVec.ofNat 64 (fieldAt b 8 8) else 0
          tokenIds := if v.content = 2 then slice b 64 (4 * tokens) else [], base := base }
      (bind (s.modRegions fun r => { r with versions := Table.set r.versions v.handle.toNat w })).camInsert v.handle

/-- The survivor declares a node lost (R552, R570, R576): the QP to it is in ERR, its conversations wait for their
promotions in order, and the first offer goes out (R571, R578 to R580). -/
def State.declareLost (s : State) (x : Nat) : State :=
  let own := latestFirst ((s.twinnedAt x).map fun (c : Nat × Conv) => (c.1, c.2.lastTwinWrite))
  let resent := s.recover.resyncLeft.filter fun pid => ((s.page pid).bind (·.twinNode)) != some x
  let s := s.modPartner x fun p =>
    { p with lost := true, bound := false, standin := false, standinFor := false, grantsFree := [], grantLeft := 0, freed := [] }
  let s := s.modRecover fun r =>
    { r with lostNodes := addOnce r.lostNodes x, standins := r.standins.filter (· != x), soleCopy := true, resyncLeft := resent }
  let s := ((s.qpError (s.nodeQp x) Reason.remoteAccess).answerLost x).dropTwin x
  let s := (s.recover.twinVersions.filter fun v => v.owner == x).foldl State.promoteVersion s
  let recs := s.recordsOf x
  let order := latestFirst (recs.map fun r => (r.1, s.latestWrite x r.1 r.2))
  let s := recs.foldl (fun s r => s.enterPromotion x r.1 r.2) s
  let s := if recs.isEmpty then s.clearLost x else s
  let s := s.modRecover fun r =>
    { r with toPromote := r.toPromote ++ order, unassigned := r.unassigned ++ order ++ own }
  let s := s.modRecover fun r => { r with candidates := s.standinCandidates }
  (s.assignAll).nextOffer x

/-- The refusal of TWIN_RESYNC (R439, R569). -/
def State.resyncRefusal (s : State) (x : Nat) : Option Ans :=
  match s.partner x with
  | none => some (Ans.param Reason.resyncSource)
  | some p =>
    if !p.watched then some (Ans.param Reason.resyncSource)
    else if p.silent && (p.fencedStamp || s.now ≥ p.lastContact + 1000 * s.regs.silentUs + 500000) then none
    else some (Ans.state Reason.resyncEarly)

/-- TWIN_RESYNC (R569, R570). -/
def execTwinResync (c : Cmd) (s : State) : Host.Outcome State Fault Refusal :=
  .next (s.onArrive 0x0502 c fun c ctx s => s.noPayload c ctx fun s =>
    if s.recover.lostNodes.contains c.hdr.p0 then s.finish ctx (Ans.ok) else
    match s.resyncRefusal c.hdr.p0 with
    | some a => s.finish ctx a
    | none => (s.finish ctx (Ans.ok)).declareLost c.hdr.p0)

/-! ## Promotion (R571 to R575, R583, R584) -/

/-- An open page goes to a hot frame, from HOT_RESERVE first; with none it stays in its warm frame (R571, R572). -/
def State.heatPage (s : State) (pid f : Nat) : State :=
  match s.allocReserve .hot (.page pid) with
  | none => s.modPage pid fun p => { p with awaitsHot := true }
  | some (h, s) =>
    let s := s.writeFrame .hot h 0 (s.readFrame .warm f 0 Config.frameBytes)
    (s.modPage pid fun p => { p with tier := .hot, frame := h }).freeFrame .warm f

/-- The saturated elements of a copy's rows, as its home told them; where a sealed copy's tail counts others, how many each row has is
free (R119, R138; log entries 14 and 86). -/
def State.copySats (s : State) (c : TwinCopy) (slot fill total : Nat) : Table Nat × State :=
  let told := Table.getD s.recover.twinSats (twinKey c.owner c.cid) []
  let tokens := ((s.layout slot).map (·.tokens)).getD 0
  let rows := (List.range tokens).filterMap fun k => (Table.get told (satKey c.layer c.head (c.page * tokens + k))).map fun n => (k, n)
  match s.layout slot with
  | none => (rows, s)
  | some l => if c.tail && (rows.map (·.2)).sum != total then s.spreadSats l fill total else (rows, s)

/-- A twin copy becomes a page's home: in place where it is sealed, in a hot frame where it is open (R571). One sealed beyond the rows that
the conversation has is open: the append or the cut that the home was about was not told in full (R39, R138). -/
def State.copyHome (s : State) (c : TwinCopy) (slot need : Nat) : Nat × State :=
  let pid := s.tiers.nextPage
  let h := s.readFrame .warm c.frame headerAt 64
  let isSealed := c.tail && decide (fieldAt h 19 1 ≤ need)
  let (sats, s) := s.copySats c slot (fieldAt h 19 1) (fieldAt h 28 2)
  let p : Page :=
    { cid := c.cid, layout := slot, key := { layer := c.layer, head := c.head, index := c.page }, tier := .warm, frame := c.frame
      touch := s.ageTick, refs := 0, isSealed := isSealed, fill := if isSealed then fieldAt h 19 1 else 0
      sats := sats }
  let s := s.modTiers fun x => { x with pages := Table.set x.pages pid p, nextPage := pid + 1 }
  let s := (s.useFrame .warm c.frame (.page pid)).setCopy { c with pid := some pid }
  (pid, if isSealed then s else (if c.tail then s.unsealPage pid else s).heatPage pid c.frame)

/-- Whether a twin copy is good: readable, and a sealed page's SEAL verified; an unreadable frame is retired (R137, R174,
R574). -/
def State.copyGood (s : State) (c : TwinCopy) : Bool × State :=
  match s.checkFrame .warm c.frame with
  | (.poisoned, s) => (false, s)
  | (.unreadable, s) => (false, s.retireFrame .warm c.frame)
  | (.good, s) =>
    if c.tail then s.verifySeal c.frame (s.readFrame .warm c.frame 0 Config.frameBytes) else (true, s)

/-- A page of a conversation is promoted; false where it has no surviving copy (R571, R574, R583). -/
def State.promotePage (s : State) (owner cid slot : Nat) (k : PageKey) (need : Nat) : Bool × State :=
  let add := fun (s : State) (pid : Nat) => (s.addRef pid).modConv cid fun c => { c with pages := c.pages ++ [(k, pid)] }
  if ((s.conv cid).bind fun c => c.pageAt k).isSome then (true, s) else
  match s.copyFor owner cid k need with
  | none => (false, s)
  | some c =>
    match c.pid with
    | some pid => if (s.page pid).isSome then (true, add s pid) else (false, s)
    | none =>
      match s.copyGood c with
      | (false, s) => (false, s)
      | (true, s) =>
        let (pid, s) := s.copyHome c slot need
        (true, add s pid)

/-- The places of a conversation's pages that lie at the lost node: those below its lengths and outside the extents of
other nodes (R556, R571); for an extent, those of the copies held (R575). -/
def State.promotedKeys (s : State) (owner cid : Nat) (r : TwinRecord) (lengths : List Nat) : List PageKey :=
  if r.home ≠ owner then
    (s.recover.twinCopies.filter fun c => c.owner == owner && c.cid == cid).map fun c =>
      { layer := c.layer, head := c.head, index := c.page }
  else
    let away := (r.extents.drop 1).filter fun e => e.node != owner
    (List.range lengths.length).flatMap fun ly =>
      (List.range r.layoutRecord.kvHeads).flatMap fun h =>
        ((List.range (ceilDiv (lengths.getD ly 0) (max 1 r.layoutRecord.tokens))).filter fun i =>
          !(away.any fun e => decide (e.first ≤ i) && decide (i < e.last))).map fun i =>
            { layer := ly, head := h, index := i }

/-- Announces a promoted extent to the conversation's home: CID and range, in class 2 (R575; log entry 18). -/
def State.announceExtent (s : State) (owner cid home : Nat) (r : TwinRecord) : State :=
  ((r.extents.drop 1).filter fun e => e.node == owner).foldl (fun s e => s.post (s.nodeQp home) 2 [.send (le 6 cid ++ le 2 s.nodeId ++ le 4 e.first ++ le 4 e.last)]) s

/-- A promotion ends: the entry is as the record and the copies give it, and gate events pass (R571, R573, R575). -/
def State.endPromotion (s : State) (owner cid : Nat) (r : TwinRecord) (lengths : List Nat) (whole : Bool) : State :=
  let s := (s.modConv cid fun c => s.promoted owner r lengths c).bump Ctr.promoteConv
  let s := s.modRecover fun x => { x with toPromote := x.toPromote.filter (· != cid) }
  let s := if whole then s else s.loseConv cid
  let s := if r.home = owner then s else s.announceExtent owner cid r.home r
  let s := match s.conv cid with
    | none => s
    | some c => (s.twinRecord cid c .none).resyncConv cid
  let s := if (s.recordsOf owner).any fun q => s.recover.toPromote.contains q.1 then s else s.clearLost owner
  s.settleSole

/-- The pages of a conversation at a lost node are promoted: those of its attached versions, and its own from their copies; whether all are
whole, and it has a layout slot (R571, R574). -/
def State.promotePages (s : State) (owner cid : Nat) (r : TwinRecord) (lengths : List Nat) : Bool × State :=
  let slot := ((s.conv cid).map (·.layout)).getD 256
  let s := r.attached.foldl (fun s h => s.attachPages cid h) s
  (s.promotedKeys owner cid r lengths).foldl (fun (acc : Bool × State) k =>
    let need := min r.layoutRecord.tokens (lengths.getD k.layer 0 - k.index * r.layoutRecord.tokens)
    let (ok, s) := acc.2.promotePage owner cid slot k (if r.home = owner then need else r.layoutRecord.tokens)
    (acc.1 && ok, s)) (decide (slot < 256), s)

/-- CONV_PROMOTION: the next conversation of the lost node is promoted (R571). -/
def execConvPromotion (cid : Nat) (s : State) : Host.Outcome State Fault Refusal :=
  if s.recover.toPromote.head? ≠ some cid then .next s else
  match s.promotedFrom cid with
  | none => .next (s.modRecover fun r => { r with toPromote := r.toPromote.filter (· != cid) })
  | some (x, r) =>
    let lengths := s.twinnedLengths x cid r
    let (whole, s) := s.promotePages x cid r lengths
    .next (s.endPromotion x cid r lengths whole)

/-! ## A pool fails (R586) -/

/-- POOL_FAIL (R586). -/
def execPoolFail (pool : Nat) (s : State) : Host.Outcome State Fault Refusal := .next (s.failPool pool)

end Sys2Proof.Machine
end

