-- ==== Sys2Proof/Machine/Regs.lean ====
section
/-! DEFINITION. The registers (R11 to R20, R415, R416, R700 to R716): what each reads as, what each write does, the
consistency checks of the blocks (R702 to R712), and the commands that a register write carries. -/
namespace Sys2Proof.Machine

/-! ## Injection points (R635 to R640) -/

/-- The kinds that a point of a block accepts; none for an undefined point (R635). -/
def injKinds (block point : Nat) : List Nat :=
  let word := [0, 1, 2]
  match block with
  | 0x02 => if point < 16 then [6] else []
  | 0x03 => if point < 8 then [5] else []
  | 0x04 => if point < 8 then word else if point < 25 then [3] else []
  | 0x05 => if point = 0 then word else if point = 1 then [3] else []
  | 0x06 => if point = 0 then [3] else if point = 1 then [5] else []
  | 0x07 => if point < 72 then word else if point < 144 then [7] else []
  | 0x09 => if point = 0 then [3] else []
  | 0x0A => if point = 0 then [3] else if point = 1 then [4] else if point < 6 then word else []
  | 0x0B => if point = 0 then word else if point = 1 then [3] else []
  | 0x0C => if point < 32 then [0, 1] else if point < 48 then [5] else []
  | 0x0D => if point = 0 then [3] else if point = 1 then [5] else []
  | 0x0F => if point = 0 then [3] else []
  | 0x10 => if point < 8 then word else []
  | 0x11 => if point = 0 then [3] else if point = 1 then [5] else []
  | 0x13 => if point < 64 then [3, 4] else []
  | 0x14 => if point = 0 then [0, 1] else []
  | 0x16 => if point = 0 then [0, 1] else if point = 1 then [3] else []
  | 0x17 => if point = 0 then [6] else []
  | 0x18 => if point < 64 then word else []
  | _ => []

/-- Points of a block (R635, R638). -/
def injPoints (block : Nat) : Nat := ((List.range 144).filter fun p => !(injKinds block p).isEmpty).length

/-- The refusal of arming at a point (R637). -/
def injRefusal (block point kind count : Nat) : Option Ans :=
  if (injKinds block point).isEmpty then some (Ans.param Reason.injectPoint)
  else if !(injKinds block point).contains kind || count = 0 then some (Ans.param Reason.injectParam)
  else none

/-- Changes an injection slot. -/
def State.modInj (s : State) (n : Nat) (f : InjSlot → InjSlot) : State :=
  s.modRegs fun r => { r with inj := modifyAt r.inj n f }

/-- Arms a slot as its registers say: it fires from its delay on (R636, R637). -/
def State.armSlot (s : State) (n : Nat) : State :=
  s.modInj n fun x => { x with busy := true, done := 0, live := false, due := s.now + 1000 * x.delay.toNat }

/-- Disarms a slot. -/
def State.disarmSlot (s : State) (n : Nat) : State := s.modInj n fun x => { x with busy := false, live := false }

/-- Disarms every slot that targets a block (R638). -/
def State.disarmBlock (s : State) (block : Nat) : State :=
  s.modRegs fun r => { r with inj := r.inj.map fun x => if x.block == block then { x with busy := false, live := false } else x }

/-- Disarms every slot (R640). -/
def State.disarmAll (s : State) : State :=
  s.modRegs fun r => { r with inj := r.inj.map fun x => { x with busy := false, live := false } }

/-- The lowest point of a block with an armed slot; 255 for none (R638). -/
def State.armedPoint (s : State) (block : Nat) : Nat :=
  (s.regs.inj.filter fun x => x.busy && x.block == block).foldl (fun m x => min m x.point) 255

/-! ## Consistency checks (R706 to R712) -/

/-- The relations of R161 among the hot marks, and among the warm marks. -/
def hotRelations (r : Regs) : List Bool :=
  [decide (r.hotGrowMark < r.hotEvictStart), decide (r.hotEvictStart < r.hotEvictStop),
   decide (r.hotEvictStop ≤ Config.hotFrames - r.hotReserve), decide (r.ageTickUs ≥ 1)]
def warmRelations (r : Regs) : List Bool :=
  [decide (r.warmAdmitMark < r.warmEvictStart), decide (r.warmEvictStart < r.warmEvictStop),
   decide (r.warmEvictStop ≤ Config.warmFrames - r.twinReserve)]

/-- Whether a write leaves every relation that held before it (R161). -/
def keepsRelations (before after : List Bool) : Bool := (List.zip before after).all fun x => !x.1 || x.2

/-- SPARE tiles (R231). -/
def State.spareTiles (s : State) : Nat := (s.attn.tiles.filter fun t => t.role == .spare).length

/-- A block's checks in the order of R706 and R712: whether each fails, and its reason. -/
def State.blockChecks (s : State) (b : Nat) : List (Bool × Nat) :=
  let self := [(s.up.blocksBad.contains b, Reason.selfTest b)]
  self ++
  if b = Blk.pwr then [((List.range 16).any fun n => beyondFence n (s.pwr.mons.getD n 0), Reason.monitorLimit)]
  else if b = Blk.clk then [(s.clk.pll.any (! ·), Reason.pllUnlocked)]
  else if b = Blk.hot then [((hotRelations s.regs).any (! ·), Reason.tierMarks), (!(List.range 8).all s.up.stacksTrained.contains, Reason.stackUntrained)]
  else if b = Blk.warm then
    [((warmRelations s.regs).any (! ·), Reason.warmMarks), (!(List.range 18).all s.up.packagesTrained.contains, Reason.warmUntrained)]
  else if b = Blk.tile then [((s.attn.tiles.filter fun t => t.role == .active).length < 64, Reason.tilesShort)]
  else if b = Blk.cam then [((List.range 8).any fun k => bits s.regs.camCtl.toNat (2 * k + 1) (2 * k) == 3, Reason.camWidth)]
  else if b = Blk.net then [(!((List.range s.portCount).any fun p => (s.port p).link), Reason.noPort)]
  else if b = Blk.fab then [(!s.up.fabricLinksFailed.isEmpty, Reason.nocLink)]
  else []

/-- The reason of the first check that fails; 0 when all pass (R706). -/
def State.checkVerdict (s : State) (b : Nat) : Nat := (((s.blockChecks b).find? (·.1)).map (·.2)).getD 0

/-- A block in DISABLED or REFUSED begins its checks, against its state now (R706, R707). The engine self-test is that of the SEC
block (R635). -/
def State.startCheck (s : State) (b : Nat) (waiter : Option CmdCtx) : State :=
  match (s.blockAt b).st with
  | .disabled | .refused =>
    let (inj, s) := if b = Blk.sec then s.injected Blk.sec 1 else (none, s)
    let s := if inj.isSome then s.checkFailed Blk.sec 0 true else s
    let verdict := if inj.isSome then Reason.selfTest b else s.checkVerdict b
    s.modBlock b fun x => { x with enable := true, st := .checking, reason := 0, verdict := verdict, waiter := waiter }
  | _ => s

/-- The end of a block's checks (R707). -/
def Block.decided (x : Block) : Block :=
  if x.verdict = 0 then { x with st := .enabled, reason := 0, waiter := none }
  else { x with st := .refused, reason := x.verdict, enable := false, waiter := none }

/-! ## What registers read as -/

/-- PARAM0[27:0] of NODE_QUERY (R405, R716). -/
def State.nodeWord (s : State) : Nat :=
  let flag := fun (b : Bool) (n : Nat) => if b then 2 ^ n else 0
  s.node.state.code + s.nodeId * 2 ^ 8 + ((s.node.profile.map (·.grade)).getD 0) * 2 ^ 18 + s.node.role.code * 2 ^ 20 +
  flag ((s.selfEntry.map (·.mobile)).getD false) 22 + flag s.node.confidential 23 + flag s.node.profile.isSome 24 +
  flag s.node.fabric.isSome 25 + flag s.trust.tenant.isSome 26 + flag (s.node.drains.any (·.running)) 27

/-- Codes of a register's fields. -/
def TileRole.code : TileRole → Nat
  | .active => 0
  | .spare => 1
  | .failed => 2
  | .untested => 3
def TilePower.code : TilePower → Nat
  | .run => 0
  | .clockStop => 1
  | .gated => 2
  | .off => 3
def DriftState.code : DriftState → Nat
  | .idle => 0
  | .armed => 1
  | .ready => 2
  | .running => 3
  | .holding => 4
  | .writing => 5
  | .aborted => 6
def BlockState.code : BlockState → Nat
  | .disabled => 0
  | .checking => 1
  | .enabled => 2
  | .refused => 3
def QpState.code : QpState → Nat
  | .reset => 0
  | .rts => 1
  | .err => 2

/-- The 16 bytes of an event record (R630). -/
def Event.bytes (e : Event) : List Byte :=
  le 8 e.time ++ le 1 e.block ++ le 1 (flagAt e.injected 0 + flagAt e.rimeTime 1) ++ le 2 e.reason ++ le 4 e.detail

/-- An array of registers 4 bytes apart: the number of the one at an offset. -/
def arrayAt (off base count : Nat) : Option Nat :=
  if base ≤ off && off < base + 4 * count && (off - base) % 4 == 0 then some ((off - base) / 4) else none

/-- A register of a firmware unit, whose value is a free value but for its reserved bits, which read as 0 (R12, R621, R623). -/
def firmwareReg (u r : Nat) : Nat := (if r = 0 then Config.firmwareUnit u r &&& 0xFE7F3FFF else Config.firmwareUnit u r).toNat

/-- CHK unit registers (R621, R622, R672). -/
def State.chkRead (s : State) (off : Nat) : Option Nat :=
  let u := (off - 0x100) / 0x20
  let r := (off - 0x100) % 0x20 / 4
  if off < 0x100 || off ≥ 0x100 + 0x20 * 64 || off % 4 ≠ 0 then none
  else if u < 24 then some (if (r = 5 || r = 6) && s.node.confidential then 0 else firmwareReg u r)
  else
    let x := Table.getD s.regs.chk u {}
    let v := match r with
      | 0 => x.cfg.toNat
      | 1 => x.poly.toNat % 2 ^ 32
      | 2 => x.poly.toNat / 2 ^ 32
      | 3 => x.init.toNat % 2 ^ 32
      | 4 => x.init.toNat / 2 ^ 32
      | 5 => x.result.toNat % 2 ^ 32
      | 6 => x.latch.toNat
      | _ => x.aliveExp.toNat
    some v

/-- INJ slot registers (R636). -/
def State.injRead (s : State) (off : Nat) : Option Nat :=
  if off < 0x100 || off ≥ 0x200 || off % 4 ≠ 0 then none else
  let x := s.regs.inj.getD ((off - 0x100) / 0x10) {}
  match off % 0x10 / 4 with
  | 0 => some (flagAt x.busy 31 + x.kind * 2 ^ 24 + x.block * 2 ^ 8 + x.point)
  | 1 => some (x.count * 2 ^ 16 + x.done)
  | 2 => some x.delay.toNat
  | _ => some 0

/-- TILE registers (R187 to R189, R221, R672). -/
def State.tileRead (s : State) (off : Nat) : Option Nat :=
  match arrayAt off 0x140 16, arrayAt off 0x200 72 with
  | some n, _ =>
    some (((List.range 4).map fun k =>
      let l := s.logical (4 * n + k)
      (l.phys + flagAt l.valid 7) * 2 ^ (8 * k)).sum)
  | none, some p =>
    let t := s.tile p
    some ((if s.node.confidential then 0 else t.corrected) * 2 ^ 16 + (t.logical.getD 0xFF) * 2 ^ 8 + t.role.code * 4 + t.power.code)
  | none, none =>
    match off with
    | 0x100 => some (s.regs.gateAfterUs * 2 ^ 16 + s.regs.stopAfterNs)
    | 0x104 => some s.regs.width
    | _ => none

/-- The QP that QPS_INDEX names. -/
def State.stagedQp (s : State) : Qp := s.qp s.regs.stage.index

/-- RDMA registers (R454 to R456). -/
def State.rdmaRead (s : State) (off : Nat) : Option Nat :=
  let t := s.regs.stage
  match off with
  | 0x100 => some t.index
  | 0x104 => some t.remoteQpn
  | 0x108 => some t.sqPsn
  | 0x10C => some t.rqPsn
  | 0x110 => some t.addr0.toNat
  | 0x114 => some t.addr1.toNat
  | 0x118 => some t.addr2.toNat
  | 0x11C => some t.addr3.toNat
  | 0x120 => some t.mac0.toNat
  | 0x124 => some t.mac1.toNat
  | 0x128 => some t.attr.toNat
  | 0x12C => some t.ring0.toNat
  | 0x130 => some t.ring1.toNat
  | 0x134 => some t.ringKey.toNat
  | 0x138 => some t.ringSlots
  | 0x13C => some 0
  | 0x140 => some (s.stagedQp.errorReason * 2 ^ 16 + s.stagedQp.state.code)
  | _ => none

/-- SCHED registers (R503, R510). -/
def State.schedRead (s : State) (off : Nat) : Option Nat :=
  let p := s.port s.regs.gclPort
  match arrayAt off 0x100 8, arrayAt off 0x1000 512 with
  | some n, _ => some (s.regs.svc.getD n 0).toNat
  | none, some n => some (((List.range 8).map fun j => (Table.getD s.regs.subWeight (8 * n + j) 0) * 2 ^ (4 * j)).sum)
  | none, none =>
    match off with
    | 0x120 => some s.regs.fabricWeight
    | 0x140 => some s.regs.gclPort
    | 0x144 => some s.regs.gclIndex
    | 0x148 => some ((p.admin.getD s.regs.gclIndex (0, 0)).1 * 2 ^ 24 + (p.admin.getD s.regs.gclIndex (0, 0)).2)
    | 0x14C => some p.adminLen
    | 0x150 => some (p.adminBase % 2 ^ 32)
    | 0x154 => some (p.adminBase / 2 ^ 32)
    | 0x158 => some p.adminCycle
    | 0x15C => some 0
    | 0x160 => some (p.drift.length % 1024 * 2 ^ 16 + flagAt p.pendingList.isSome 0)
    | 0x164 => some (p.oper.base % 2 ^ 32)
    | 0x168 => some (p.oper.base / 2 ^ 32 % 2 ^ 32)
    | _ => none

/-- CTX registers (R52, R293, R361, R391, R392). -/
def State.ctxRead (s : State) (off : Nat) : Option Nat :=
  match arrayAt off 0x180 16 with
  | some n =>
    let d := s.drift n
    some (d.ring * 2 ^ 16 + d.step % 64 * 2 ^ 10 + d.member % 64 * 2 ^ 4 + d.state.code)
  | none =>
    match off with
    | 0x100 => some (((List.range 4).map fun k => s.mappedPool k * 4 ^ k).sum)
    | 0x104 => some (s.regs.returnMarginNs * 2 ^ 16)
    | 0x108 => some s.regs.keepMs
    | 0x10C => some s.regs.resultFrames
    | _ => none

/-- PWR registers (R697, R698). -/
def State.pwrRead (s : State) (off : Nat) : Option Nat :=
  match arrayAt off 0x140 16 with
  | some n => some (ofSigned 16 (s.pwr.mons.getD n 0))
  | none =>
    match off with
    | 0x100 => some (flagAt (s.pwr.inputW > s.regs.pwrCap) 18 + s.pwr.level * 2 ^ 16 + s.pwr.beyond)
    | 0x104 => some s.regs.pwrCap
    | 0x108 => some (s.pwr.inputW % 2 ^ 16)
    | _ => none

/-- HOT_AVAIL and WARM_AVAIL (R159): 0, their reset value, until the tiers have been trained, then the available frames. -/
def State.availRead (s : State) (t : Tier) : Nat :=
  match s.node.state with
  | .off | .rooting | .training | .recovery => 0
  | _ => s.avail t

/-- The registers of the tiers (R159, R160, R619). -/
def State.tierRead (s : State) (b off : Nat) : Option Nat :=
  let r := s.regs
  match b, off with
  | 0x04, 0x100 => some (s.availRead .hot)
  | 0x04, 0x104 => some r.hotReserve
  | 0x04, 0x108 => some r.hotEvictStart
  | 0x04, 0x10C => some r.hotEvictStop
  | 0x04, 0x110 => some r.hotGrowMark
  | 0x04, 0x114 => some (flagAt r.promoteOnRead 16 + r.ageTickUs)
  | 0x04, 0x118 => some (flagAt r.scrubHot 31 + flagAt r.scrubWarm 30 + r.scrubHotH * 2 ^ 8 + r.scrubWarmH)
  | 0x05, 0x100 => some (s.availRead .warm)
  | 0x05, 0x104 => some r.twinReserve
  | 0x05, 0x108 => some r.warmEvictStart
  | 0x05, 0x10C => some r.warmEvictStop
  | 0x05, 0x110 => some r.warmAdmitMark
  | _, _ => none

/-- The status registers of twins and health (R594 to R596). -/
def State.twinRead (s : State) (b off : Nat) : Option Nat :=
  match b, off with
  | 0x11, 0x100 => some (s.regs.silentUs * 2 ^ 16)
  | 0x11, 0x104 =>
    some (flagAt s.recover.soleCopy 31 + flagAt (s.recover.partners.any fun p => p.2.watched && p.2.silent) 30 +
      s.recover.standins.length * 2 ^ 27)
  | 0x11, 0x108 => some s.resyncOpen.length
  | 0x12, 0x100 => some (s.regs.guardWindowMs * 2 ^ 16 + s.regs.fenceThreshold)
  | 0x12, 0x104 => some s.recover.score
  | 0x11, off =>
    match arrayAt off 0x110 4 with
    | none => none
    | some n => some (match s.recover.standins[n]? with
      | none => 0
      | some j => 2 ^ 31 + j)
  | _, _ => none

/-- The registers of the remaining blocks (R263, R549, R550, R631, R697, R716). -/
def State.otherRead (s : State) (b off : Nat) : Option Nat :=
  match b, off with
  | 0x01, 0x100 => some s.nodeWord
  | 0x01, 0x104 => some (((List.range 24).map fun n => flagAt ((s.blockAt (n + 1)).st == .enabled) (n + 1)).sum)
  | 0x01, 0x108 => some s.trust.fwVersion
  | 0x03, 0x100 => some (((List.range 8).map fun n => flagAt (s.clk.pll.getD n false) n).sum)
  | 0x03, 0x108 => some (s.clk.rime % 2 ^ 32)
  | 0x03, 0x10C => some s.clk.rimeLatch
  | 0x09, 0x100 => some s.regs.minWidth
  | 0x0B, 0x100 => some s.regs.camCtl.toNat
  | 0x0B, 0x104 => some (((List.range 8).map s.camFree).sum)
  | 0x10, 0x100 => some s.regs.attachLeaseMs
  | 0x14, 0x100 => some s.events.length
  | 0x14, 0x114 => some 0
  | 0x14, 0x118 => some (flagAt s.regs.alertEn 0)
  | 0x14, off =>
    match arrayAt off 0x104 4 with
    | none => none
    | some n => some (match s.events with
      | [] => 0
      | e :: _ => fieldAt (Event.bytes { e with detail := if s.node.confidential then 0 else e.detail }) (4 * n) 4)
  | 0x17, 0x100 =>
    let off := max (-(2 ^ 23 : Int)) (min (2 ^ 23 - 1 : Int) s.clk.offset)
    some (flagAt s.clk.locked 31 + flagAt ((s.node.profile.map (·.ppsTime)).getD false) 30 + s.clk.master % 16 * 2 ^ 24 + ofSigned 24 off)
  | _, _ => none

/-- The key of a counter pair's latch. -/
def latchKey (b n : Nat) : Nat := b * 4096 + n

/-- The value of a counter as it reads (R672, R714). -/
def State.counterRead (s : State) (b n : Nat) : Nat :=
  if b = Blk.inj && s.node.confidential then 0 else s.counter (b, n)

/-- The common registers of a block and its counters (R633, R638, R702 to R705, R713). -/
def State.commonRead (s : State) (b off : Nat) : Option Nat :=
  let x := s.blockAt b
  match off with
  | 0x000 => some (b * 2 ^ 24 + counterCount b * 2 ^ 16 + 2 ^ 8)
  | 0x004 => some (flagAt x.enable 0)
  | 0x008 => some (x.reason * 2 ^ 16 + x.st.code)
  | 0x00C => some (flagAt x.uncorrected 31 + flagAt x.poison 30 + flagAt x.checkFail 29 + flagAt x.watchdog 28 + flagAt x.injected 27 + x.corrected)
  | 0x020 => some (injPoints b * 2 ^ 16 + s.armedPoint b * 2 ^ 8)
  | _ =>
    if off < 0x8000 then none else
    let n := (off - 0x8000) / 8
    if n ≥ counterCount b then none
    else if off % 8 = 0 then some (s.counterRead b n % 2 ^ 32)
    else if off % 8 = 4 then some (Table.getD s.regs.latches (latchKey b n) 0)
    else none

/-- What a register reads as; none where an address holds no register (R700). -/
def State.regValue (s : State) (a : Nat) : Option Nat :=
  let b := a / 65536
  let off := a % 65536
  if b = 0 || b > 24 then none else
  match s.commonRead b off with
  | some v => some v
  | none =>
    match b with
    | 0x02 => s.pwrRead off
    | 0x04 | 0x05 => s.tierRead b off
    | 0x07 => s.tileRead off
    | 0x0A => s.ctxRead off
    | 0x0D => s.rdmaRead off
    | 0x0E => s.schedRead off
    | 0x11 | 0x12 => s.twinRead b off
    | 0x13 => s.chkRead off
    | 0x15 => s.injRead off
    | b => s.otherRead b off

/-- What a read of a register leaves: the lower register of a pair latches the upper one (R625, R697, R713); an event is read
out of its queue's SRAM (R635). -/
def State.afterRead (s : State) (a : Nat) : State :=
  let b := a / 65536
  let off := a % 65536
  if off ≥ 0x8000 && off % 8 = 0 then
    let n := (off - 0x8000) / 8
    s.modRegs fun r => { r with latches := Table.set r.latches (latchKey b n) (s.counterRead b n / 2 ^ 32) }
  else if b = Blk.clk && off = 0x108 then s.modClk fun c => { c with rimeLatch := c.rime / 2 ^ 32 }
  else if b = Blk.chk && off ≥ 0x100 && (off - 0x100) % 0x20 = 0x14 then
    s.modChk ((off - 0x100) / 0x20) fun x => { x with latch := BitVec.ofNat 32 (x.result.toNat / 2 ^ 32) }
  else if b = Blk.err && off = 0x104 then (s.sramRead Blk.err 0 0).2
  else s

/-- Reads registers one after another from an address. -/
def State.readRegs (s : State) (a n : Nat) : List Nat × State :=
  (List.range n).foldl (fun (acc : List Nat × State) k =>
    (acc.1 ++ [(acc.2.regValue (a + 4 * k)).getD 0], acc.2.afterRead (a + 4 * k))) ([], s)

/-- REG_READ (R415, R708). -/
def State.readCommand (s : State) (c : Cmd) (ctx : CmdCtx) : State :=
  let a := c.hdr.targetId.toNat
  let n := c.hdr.p0
  let ok := 1 ≤ n && n ≤ 4 && (List.range n).all fun k => (a + 4 * k) / 65536 == a / 65536 && (s.regValue (a + 4 * k)).isSome
  if !ok then s.finish ctx (Ans.param Reason.regAddress) else
  let (vs, s) := s.readRegs a n
  s.finish ctx (Ans.ok (vs.getD 0 0 + 2 ^ 32 * vs.getD 1 0) (vs.getD 2 0 + 2 ^ 32 * vs.getD 3 0))

/-- REG_READ. -/
def execRegRead (c : Cmd) (s : State) : Host.Outcome State Fault Refusal :=
  .next (s.onArrive 0x0107 c fun c ctx s => s.noPayload c ctx fun s => s.readCommand c ctx)

/-! ## Queue pairs (R457 to R460, R473, R490, R628) -/

/-- MTU of its code (R455). -/
def mtuOf (n : Nat) : Nat := if n = 1 then 2048 else if n = 2 then 4096 else 1024

/-- What a QP keeps through RESET: its error reason, the number of its connections, and the commands and appends accepted on it and not
yet answered (R373, R456, R479). -/
def Qp.afterReset (q : Qp) : Qp := { errorReason := q.errorReason, outstanding := q.outstanding, conn := q.conn }

/-- A QP in RTS with fresh counts: rate LINE, jitter seed, sequence numbers 0; the APPEND units bound to it start at alive
count 0 (R368, R372, R473, R490, R628). -/
def State.bringUp (s : State) (i : Nat) (q : Qp) : State :=
  let seed := Nat.xor (s.nodeId * 16 % 65536) (i % 65536)
  let q := { q with
    state := .rts, errorReason := (s.qp i).errorReason, outstanding := (s.qp i).outstanding, conn := (s.qp i).conn, lfsr := if seed = 0 then 1 else seed, rc := s.lineRate, rt := s.lineRate
    periodStart := s.now }
  let s := s.modNet fun n => { n with qps := Table.set n.qps i q }
  s.modRegs fun r => { r with chk := Table.mapVals r.chk fun _ u => if u.qp = i then { u with aliveExp := 0 } else u }

/-- The NODE QP to a peer of the fabric table (R459, R460). -/
def State.nodeQpOf (s : State) (n : FabricNode) : Qp :=
  { kind := .node, remoteQpn := n.qpBase + s.nodeId, remoteAddr := n.address, mac := n.mac, mtu := 4096 }

/-- Establishes every NODE QP in RESET whose peer is in the table (R460). -/
def State.establishNodes (s : State) : State :=
  ((s.node.fabric.map (·.nodes)).getD []).foldl (fun s n =>
    if n.id = s.nodeId || (s.qp (s.nodeQp n.id)).state != .reset then s else s.bringUp (s.nodeQp n.id) (s.nodeQpOf n)) s

/-- The staged QP (R454, R455). -/
def QpStage.qp (t : QpStage) : Qp :=
  let a := t.attr.toNat
  { kind := if bits a 31 30 = 1 then .spill else if bits a 31 30 = 2 then .node else .host
    remoteQpn := t.remoteQpn
    remoteAddr := BitVec.ofNat 128 (t.addr0.toNat + 2 ^ 32 * t.addr1.toNat + 2 ^ 64 * t.addr2.toNat + 2 ^ 96 * t.addr3.toNat)
    mac := BitVec.ofNat 48 (t.mac0.toNat + 2 ^ 32 * (t.mac1.toNat % 65536))
    dscp := bits a 29 24, service := bits a 23 21, mtu := mtuOf (bits a 20 19), timeoutExp := bits a 18 16
    subscriber := a % 4096, ringAddr := BitVec.ofNat 64 (t.ring0.toNat + 2 ^ 32 * t.ring1.toNat), ringKey := t.ringKey
    slots := if bits a 31 30 = 0 then t.ringSlots else 16, sqPsn := t.sqPsn, sqUna := t.sqPsn, rqPsn := t.rqPsn }

/-- Whether an index lies in the node's NODE range (R459). -/
def State.inNodeRange (s : State) (i : Nat) : Bool :=
  match s.selfEntry with
  | none => false
  | some e => decide (e.qpBase ≤ i + 2) && decide (i + 2 ≤ e.qpBase + 1023)

/-- Whether the staged fields break R457. -/
def State.stageBad (s : State) : Bool :=
  let t := s.regs.stage
  let kind := bits t.attr.toNat 31 30
  let ring := t.ring0 != 0 || t.ring1 != 0
  kind == 3 || bits t.attr.toNat 20 19 == 3 ||
  (kind == 0 && (!isPow2In t.ringSlots 16 4096 || !ring || t.ringKey == 0)) ||
  (kind == 1 && (ring || t.ringKey != 0 || t.ringSlots != 0)) ||
  (kind != 2 && s.inNodeRange t.index) ||
  (kind == 2 &&
    !(s.inNodeRange t.index &&
      ((s.fabricNode (s.peerOf t.index)).map fun n => n.qpBase + s.nodeId == t.remoteQpn).getD false))

/-- ESTABLISH (R457). -/
def State.establishQp (s : State) : Except Ans State :=
  let i := s.regs.stage.index
  if (s.qp i).state != .reset then .error (Ans.state Reason.qpState)
  else if s.stageBad then .error (Ans.param Reason.qpParam)
  else .ok (s.bringUp i s.regs.stage.qp)

/-- RESET: from RTS the QP enters ERR first, with its flush (R458, R478). -/
def State.resetQp (s : State) : State :=
  let i := s.regs.stage.index
  let s := s.qpError i Reason.qpReset
  s.modNet fun n => { n with qps := Table.set n.qps i (s.qp i).afterReset }

/-! ## Gate lists and shapers (R503 to R511) -/

/-- The administrative list of a port (R505, R510). -/
def Port.adminList (p : Port) : GateList := { entries := p.admin.take p.adminLen, base := p.adminBase, cycle := p.adminCycle }

/-- Whether an administrative list keeps R505 and the bounds of R510. -/
def Port.adminOk (p : Port) : Bool :=
  1 ≤ p.adminLen && p.adminLen ≤ 64 && 1000 ≤ p.adminCycle && p.adminCycle ≤ 1000000000 &&
  (p.admin.take p.adminLen).all (fun e => decide (100 ≤ e.2)) && decide (((p.admin.take p.adminLen).map (·.2)).sum ≤ p.adminCycle)

/-- CHANGE: the administrative list is pending until its base time, or the next start of a cycle that is no earlier than now
(R507, R511). -/
def State.changeList (s : State) : Except Ans State :=
  let i := s.regs.gclPort
  let p := s.port i
  if !p.adminOk then .error (Ans.param Reason.schedParam) else
  let at_ := if p.adminBase > s.clk.ptp then p.adminBase
    else p.adminBase + ceilDiv (s.clk.ptp - p.adminBase) p.adminCycle * p.adminCycle
  .ok (s.modPort i fun p => { p with pendingList := some (p.adminList, at_) })

/-- Whether the shapers keep R504. -/
def State.shapersOk (s : State) : Bool :=
  let on := s.regs.svc.filter fun v => bit v.toNat 31
  on.all (fun v => v.toNat % 65536 != 0) && decide (((on.map fun v => v.toNat % 65536).sum) * 400 ≤ s.lineRate * 3)

/-! ## What writes do -/

/-- A write changes no bit and is refused with a reason. -/
def refuseIf (bad : Bool) (reason : Nat) (s : State) : Except Ans State := if bad then .error (Ans.param reason) else .ok s

/-- Writes of the tier registers (R159 to R161, R619). `v` is the register after the write. -/
def State.tierWrite (s : State) (b off v : Nat) : Except Ans State :=
  let hot := fun (s' : State) => refuseIf (!keepsRelations (hotRelations s.regs) (hotRelations s'.regs)) Reason.tierParam s'
  let warm := fun (s' : State) => refuseIf (!keepsRelations (warmRelations s.regs) (warmRelations s'.regs)) Reason.tierParam s'
  match b, off with
  | 0x04, 0x108 => hot (s.modRegs fun r => { r with hotEvictStart := v % 2 ^ 24 })
  | 0x04, 0x10C => hot (s.modRegs fun r => { r with hotEvictStop := v % 2 ^ 24 })
  | 0x04, 0x110 => hot (s.modRegs fun r => { r with hotGrowMark := v % 2 ^ 24 })
  | 0x04, 0x114 => hot (s.modRegs fun r => { r with promoteOnRead := bit v 16, ageTickUs := v % 65536 })
  | 0x04, 0x118 =>
    let h := bits v 15 8
    let w := v % 256
    refuseIf (h = 0 || h > 168 || w = 0 || w > 168) Reason.scrubParam
      (s.modRegs fun r => { r with scrubHot := bit v 31, scrubWarm := bit v 30, scrubHotH := h, scrubWarmH := w })
  | 0x05, 0x104 => warm (s.modRegs fun r => { r with twinReserve := v % 2 ^ 24 })
  | 0x05, 0x108 => warm (s.modRegs fun r => { r with warmEvictStart := v % 2 ^ 24 })
  | 0x05, 0x10C => warm (s.modRegs fun r => { r with warmEvictStop := v % 2 ^ 24 })
  | 0x05, 0x110 => warm (s.modRegs fun r => { r with warmAdmitMark := v % 2 ^ 24 })
  | _, _ => .ok s

/-- Writes of the staging registers and of QPS_CMD (R454). `w` is what the write's MASK lets through. -/
def State.rdmaWrite (s : State) (off v w : Nat) : Except Ans State :=
  let set := fun (f : QpStage → QpStage) => Except.ok (s.modRegs fun r => { r with stage := f r.stage })
  let word := BitVec.ofNat 32 v
  match off with
  | 0x100 => set fun t => { t with index := v % 2 ^ 14 }
  | 0x104 => set fun t => { t with remoteQpn := v % 2 ^ 24 }
  | 0x108 => set fun t => { t with sqPsn := v % 2 ^ 24 }
  | 0x10C => set fun t => { t with rqPsn := v % 2 ^ 24 }
  | 0x110 => set fun t => { t with addr0 := word }
  | 0x114 => set fun t => { t with addr1 := word }
  | 0x118 => set fun t => { t with addr2 := word }
  | 0x11C => set fun t => { t with addr3 := word }
  | 0x120 => set fun t => { t with mac0 := word }
  | 0x124 => set fun t => { t with mac1 := BitVec.ofNat 32 (v % 65536) }
  | 0x128 => set fun t => { t with attr := word &&& 0xFFFF0FFF }
  | 0x12C => set fun t => { t with ring0 := word }
  | 0x130 => set fun t => { t with ring1 := word }
  | 0x134 => set fun t => { t with ringKey := word }
  | 0x138 => set fun t => { t with ringSlots := v % 2 ^ 13 }
  | 0x13C => if w % 4 = 1 then s.establishQp else if w % 4 = 2 then .ok s.resetQp else .ok s
  | _ => .ok s

/-- Writes of the scheduler's registers (R503, R504, R510, R511). -/
def State.schedWrite (s : State) (off v w : Nat) : Except Ans State :=
  let port := fun (f : Port → Port) => Except.ok (s.modPort s.regs.gclPort f)
  match arrayAt off 0x100 8, arrayAt off 0x1000 512 with
  | some n, _ =>
    let set (r : Regs) : Regs := { r with svc := setAt r.svc n (BitVec.ofNat 32 v &&& 0xBF00FFFF) }
    refuseIf (!(s.modRegs set).shapersOk) Reason.schedParam (s.settleWrite.modRegs set)
  | none, some n =>
    .ok (s.modRegs fun r =>
      { r with subWeight := (List.range 8).foldl (fun t j => Table.set t (8 * n + j) (bits v (4 * j + 3) (4 * j))) r.subWeight })
  | none, none =>
    match off with
    | 0x120 => .ok (s.modRegs fun r => { r with fabricWeight := v % 16 })
    | 0x140 => refuseIf (v % 16 ≥ s.portCount) Reason.schedParam (s.modRegs fun r => { r with gclPort := v % 16 })
    | 0x144 => .ok (s.modRegs fun r => { r with gclIndex := v % 64 })
    | 0x148 => port fun p => { p with admin := setAt p.admin s.regs.gclIndex (v / 2 ^ 24, v % 2 ^ 24) }
    | 0x14C => port fun p => { p with adminLen := v % 128 }
    | 0x150 => port fun p => { p with adminBase := p.adminBase / 2 ^ 32 * 2 ^ 32 + v }
    | 0x154 => port fun p => { p with adminBase := v * 2 ^ 32 + p.adminBase % 2 ^ 32 }
    | 0x158 => port fun p => { p with adminCycle := v }
    | 0x15C => if bit w 0 then s.changeList else .ok s
    | _ => .ok s

/-- A CHK unit whose fields may be enabled (R624). -/
def State.unitOk (s : State) (n : Nat) (u : ChkUnit) : Bool :=
  let w := u.width
  bits u.cfg.toNat 30 29 < 2 && 8 ≤ w && w ≤ 64 && bit u.poly.toNat 0 && decide (u.poly.toNat < 2 ^ w) && decide (u.init.toNat < 2 ^ w) &&
  !(u.alive && u.hold) &&
  !(s.regs.chk.any fun x => x.1 != n && x.2.en && x.2.append && x.2.qp == u.qp && x.2.egress == u.egress)

/-- A unit after a write of one of its registers. -/
def ChkUnit.write (u : ChkUnit) (r v : Nat) : ChkUnit :=
  let lo := fun (x : W64) => BitVec.ofNat 64 (x.toNat / 2 ^ 32 * 2 ^ 32 + v)
  let hi := fun (x : W64) => BitVec.ofNat 64 (v * 2 ^ 32 + x.toNat % 2 ^ 32)
  match r with
  | 0 => { u with cfg := BitVec.ofNat 32 v &&& 0xFE7F3FFF }
  | 1 => { u with poly := lo u.poly }
  | 2 => { u with poly := hi u.poly }
  | 3 => { u with init := lo u.init }
  | 4 => { u with init := hi u.init }
  | _ => u

/-- Writes of the check-value units (R621, R624). -/
def State.chkWrite (s : State) (off v : Nat) : Except Ans State :=
  let n := (off - 0x100) / 0x20
  let r := (off - 0x100) % 0x20 / 4
  if n < 48 then .error (Ans.state Reason.chkUnitBusy) else
  let u := Table.getD s.regs.chk n {}
  let u' := u.write r v
  let set := s.modRegs fun x => { x with chk := Table.set x.chk n u' }
  if u.en && { u' with cfg := u.cfg } != u then .error (Ans.state Reason.chkUnitBusy)
  else if u.en && r = 0 && u'.cfg &&& 0x7FFFFFFF != u.cfg &&& 0x7FFFFFFF then .error (Ans.state Reason.chkUnitBusy)
  else if !u.en && u'.en && !s.unitOk n u' then .error (Ans.param Reason.chkParam)
  else .ok set

/-- Writes of the injection slots (R636, R637). -/
def State.injWrite (s : State) (off v w : Nat) : Except Ans State :=
  let n := (off - 0x100) / 0x10
  match off % 0x10 / 4 with
  | 0 => .ok (s.modInj n fun x => { x with kind := bits v 26 24, block := bits v 15 8, point := v % 256 })
  | 1 => .ok (s.modInj n fun x => { x with count := v / 2 ^ 16 })
  | 2 => .ok (s.modInj n fun x => { x with delay := BitVec.ofNat 32 v })
  | _ =>
    if w % 4 = 3 then .error (Ans.param Reason.injectParam)
    else if bit w 0 then
      let x := s.regs.inj.getD n {}
      match injRefusal x.block x.point x.kind x.count with
      | some a => .error a
      | none => .ok (s.armSlot n)
    else if bit w 1 then .ok (s.disarmSlot n)
    else .ok s

/-- EVT_POP: the oldest record goes (R631, R632). -/
def State.popEvent (s : State) : State := State.driveAlert { s with events := s.events.drop 1 }

/-- Writes of the remaining registers (R187, R221, R263, R293, R391, R392, R549, R550, R594, R596, R631, R697). -/
def State.plainWrite (s : State) (b off v w : Nat) : Except Ans State :=
  match b, off with
  | 0x02, 0x104 =>
    refuseIf (v % 65536 < 600 || v % 65536 > 1400) Reason.pwrParam (s.modRegs fun r => { r with pwrCap := v % 65536 })
  | 0x07, 0x100 =>
    refuseIf (v % 65536 = 0) Reason.tilePwrParam (s.modRegs fun r => { r with gateAfterUs := v / 2 ^ 16, stopAfterNs := v % 65536 })
  | 0x07, 0x104 => refuseIf (!([8, 16, 32, 64].contains (v % 128))) Reason.tilesetParam (s.modRegs fun r => { r with width := v % 128 })
  | 0x09, 0x100 => refuseIf (v % 4 = 3) Reason.firnWidth (s.modRegs fun r => { r with minWidth := v % 4 })
  | 0x0A, 0x104 => refuseIf (v / 2 ^ 16 < 500) Reason.grazeParam (s.modRegs fun r => { r with returnMarginNs := v / 2 ^ 16 })
  | 0x0A, 0x108 =>
    refuseIf (v % 65536 = 0 || v % 65536 > 1000) Reason.cmdParam (s.modRegs fun r => { r with keepMs := v % 65536 })
  | 0x0A, 0x10C =>
    refuseIf (v % 2 ^ 24 > 262144) Reason.cmdParam
      (let s := s.modRegs fun r => { r with resultFrames := v % 2 ^ 24 }
       s.makeKeepRoom 0 s.net.records.length)
  | 0x0B, 0x100 => .ok (s.modRegs fun r => { r with camCtl := BitVec.ofNat 32 (v % 65536) })
  | 0x10, 0x100 => refuseIf (v % 65536 = 0) Reason.regionParam (s.modRegs fun r => { r with attachLeaseMs := v % 65536 })
  | 0x11, 0x100 => refuseIf (v / 2 ^ 16 < 300) Reason.twinParam (s.modRegs fun r => { r with silentUs := v / 2 ^ 16 })
  | 0x12, 0x100 =>
    refuseIf (v / 2 ^ 16 < 1000 || v % 1024 > 900) Reason.healthParam
      (s.modRegs fun r => { r with guardWindowMs := v / 2 ^ 16, fenceThreshold := v % 1024 })
  | 0x14, 0x114 => .ok (if bit w 0 then s.popEvent else s)
  | 0x14, 0x118 => .ok (s.modRegs fun r => { r with alertEn := bit v 0 }).driveAlert
  | _, _ => .ok s

/-- Writes of the common registers (R633, R638, R704, R706, R709). `m` is the MASK. -/
def State.commonWrite (s : State) (b off v w m : Nat) (ctx : CmdCtx) : Except Ans State :=
  match off with
  | 0x004 =>
    if !bit m 0 then .ok s
    else if bit v 0 then .ok (s.startCheck b (some ctx))
    else if s.node.state == .serving || s.node.state == .degraded then .error (Ans.state Reason.blockInUse)
    else .ok (s.modBlock b fun x => { x with enable := false, st := .disabled, reason := 0 })
  | 0x00C =>
    .ok (s.modBlock b fun x => x.clearWritten s.clk.rime w)
  | 0x020 => .ok (if bit w 0 then s.disarmBlock b else s)
  | _ => .ok s

/-- Whether a write would change an RWL field of an enabled block: CAM_CTL is the one register with such fields (R16, R17,
R550). -/
def State.fieldLocked (s : State) (b off v : Nat) : Bool :=
  b == Blk.cam && off == 0x100 && (s.blockAt b).enable && decide (v % 65536 ≠ s.regs.camCtl.toNat)

/-- A register write: BLOCK_CHECKING goes before FIELD_LOCKED where both hold, which the manual does not order (DESIGN CHOICE, log entry
99) (R15 to R19, R416, R708): DATA's bits where MASK is set, the old value's elsewhere. -/
def State.writeReg (s : State) (a data mask : Nat) (ctx : CmdCtx) : Except Ans State :=
  let b := a / 65536
  let off := a % 65536
  match s.regValue a with
  | none => .error (Ans.param Reason.regAddress)
  | some old =>
    let w := Nat.land data mask
    let v := Nat.lor (Nat.land old (2 ^ 32 - 1 - mask)) w
    if b = Blk.inj && s.node.confidential then .error (Ans.denied Reason.confidential)
    else if (s.blockAt b).st == .checking then .error (Ans.state Reason.blockChecking)
    else if s.fieldLocked b off v then .error (Ans.state Reason.fieldLocked)
    else if off < 0x100 then s.commonWrite b off v w mask ctx
    else if off ≥ 0x8000 then .ok s
    else match b with
      | 0x04 | 0x05 => s.tierWrite b off v
      | 0x0D => s.rdmaWrite off v w
      | 0x0E => s.schedWrite off v w
      | 0x13 => s.chkWrite off v
      | 0x15 => s.injWrite off v w
      | b => s.plainWrite b off v w

/-- A REG_WRITE packet: the write, and its reply with the register after it, or at the end of the checks that it starts
(R416). -/
def State.writeCommand (s : State) (c : Cmd) (ctx : CmdCtx) : State :=
  let a := c.hdr.targetId.toNat
  match s.writeReg a c.hdr.p0 c.hdr.p1 ctx with
  | .error e => s.finish ctx e
  | .ok t =>
    if (t.blockAt (a / 65536)).waiter = some ctx && a % 65536 = 0x004 then t
    else t.finish ctx (Ans.ok ((t.regValue a).getD 0))

/-- The arrival of a REG_WRITE packet. -/
def State.regWritePacket (s : State) (c : Cmd) : State :=
  s.onArrive 0x0108 c fun c ctx s => s.noPayload c ctx fun s => s.writeCommand c ctx

/-- REG_WRITE (R416). -/
def execRegWrite (c : Cmd) (s : State) : Host.Outcome State Fault Refusal := .next (s.regWritePacket c)

/-- BLOCK_ENABLE: the REG_WRITE that sets CTL.ENABLE (R706). -/
def execBlockEnable (c : Cmd) (s : State) : Host.Outcome State Fault Refusal := .next (s.regWritePacket c)

/-- BLOCK_DISABLE: the REG_WRITE that clears CTL.ENABLE (R709). -/
def execBlockDisable (c : Cmd) (s : State) : Host.Outcome State Fault Refusal := .next (s.regWritePacket c)

/-- QPS_ESTABLISH: the REG_WRITE of ESTABLISH to QPS_CMD (R457). -/
def execQpsEstablish (c : Cmd) (s : State) : Host.Outcome State Fault Refusal := .next (s.regWritePacket c)

/-- QPS_RESET: the REG_WRITE of RESET to QPS_CMD (R458). -/
def execQpsReset (c : Cmd) (s : State) : Host.Outcome State Fault Refusal := .next (s.regWritePacket c)

/-- GCL_CHANGE: the REG_WRITE of CHANGE to GCL_CMD (R507). -/
def execGclChange (c : Cmd) (s : State) : Host.Outcome State Fault Refusal := .next (s.regWritePacket c)

/-- INJ_ARM: the REG_WRITE of ARM to INJ_CMD (R636, R637). -/
def execInjArm (c : Cmd) (s : State) : Host.Outcome State Fault Refusal := .next (s.regWritePacket c)

/-- INJ_DISARM: the REG_WRITE of DISARM to INJ_CMD (R636). -/
def execInjDisarm (c : Cmd) (s : State) : Host.Outcome State Fault Refusal := .next (s.regWritePacket c)

/-- INJ_BLOCK_DISARM: the REG_WRITE of DISARM to a block's INJ_CTL (R638). -/
def execInjBlockDisarm (c : Cmd) (s : State) : Host.Outcome State Fault Refusal := .next (s.regWritePacket c)

/-- CHK_UNIT_ENABLE: the REG_WRITE that sets UNIT_EN (R624). -/
def execChkUnitEnable (c : Cmd) (s : State) : Host.Outcome State Fault Refusal := .next (s.regWritePacket c)

/-- EVT_POP: the REG_WRITE of EVT_POP (R631). -/
def execEvtPop (c : Cmd) (s : State) : Host.Outcome State Fault Refusal := .next (s.regWritePacket c)

/-- INJ_DELAY_EXPIRY: the slot's delay has run out, and it fires at the next occurrence at its point (R636, R637). -/
def execInjDelayExpiry (slot : Nat) (s : State) : Host.Outcome State Fault Refusal :=
  let x := s.regs.inj.getD slot {}
  if !x.busy || s.now < x.due then .next s else .next (s.modInj slot fun x => { x with live := true })

/-! ## The end of a block's checks (R411, R707, R711) -/

/-- NODE_SERVE's outcome when no block checks any more: SERVING where every block is ENABLED. Where one is disabled and none is REFUSED
the manual names no reason: a free one (R411; log entry 4). -/
def State.endServe (s : State) : State :=
  let waiting := s.node.serving
  let blocks := (List.range 24).map fun n => s.blockAt (n + 1)
  if waiting.isEmpty || blocks.any fun x => x.st == .checking then s else
  let s := s.modNode fun n => { n with serving := [] }
  match blocks.find? fun x => x.st == .refused with
    | some x => waiting.foldl (fun s ctx => s.finish ctx (Ans.state x.reason)) s
    | none =>
      if blocks.any fun x => x.st != .enabled then
        let (r, s) := s.drawBelow 65536
        waiting.foldl (fun s ctx => s.finish ctx (Ans.state r)) s
      else
      let s := s.modNode fun n => { n with state := .serving }
      let s := s.modRecover fun r =>
        { r with
          guardStart := s.now
          partners := Table.mapVals r.partners fun _ p =>
            { p with seqSent := 0, voted := false, lastStamp := s.now, lastContact := s.now } }
      waiting.foldl (fun s ctx => s.finish ctx (Ans.ok)) s

/-- BLOCK_CHECK_DONE: a block's checks end; a REG_WRITE that waits for them, and NODE_SERVE after the last, are answered
(R416, R707, R711). -/
def execBlockCheckDone (block : Nat) (s : State) : Host.Outcome State Fault Refusal :=
  if block = 0 || (s.blockAt block).st != .checking then .next s else
  let waiter := (s.blockAt block).waiter
  let s := s.modBlock block Block.decided
  let s := match waiter with
    | none => s
    | some ctx => s.finish ctx (Ans.ok (flagAt (s.blockAt block).enable 0))
  .next s.endServe

end Sys2Proof.Machine
end

