-- ==== Sys2Proof/Machine/Node.lean ====
section
/-! DEFINITION. The node commands and the node's health (R404 to R414, R440, R441, R587 to R592): the profile and the
fabric table, serving, drains, roles, the score and the fence. -/
namespace Sys2Proof.Machine

/-! ## NODE_QUERY (R405) -/

/-- Drift passes armed. -/
def State.armedPasses (s : State) : Nat := (s.drifts.filter fun d => d.state != .idle).length

/-- The reply of NODE_QUERY. -/
def State.queryAns (s : State) : Ans :=
  Ans.ok (s.nodeWord + 2 ^ 32 * ((s.node.fabric.map (·.version)).getD 0))
    (s.recover.score + 2 ^ 16 * s.spareTiles + 2 ^ 24 * s.armedPasses + 2 ^ 32 * s.trust.fwVersion)

/-- NODE_QUERY. -/
def execNodeQuery (c : Cmd) (s : State) : Host.Outcome State Fault Refusal :=
  .next (s.onArrive 0x0101 c fun c ctx s => s.noPayload c ctx fun s => s.finish ctx s.queryAns)

/-! ## NODE_PROFILE_LOAD (R406, R407, R650, R651) -/

/-- The profile that an envelope's body spells (R406). -/
def parseProfile (env : List Byte) : Option Profile :=
  let b := slice env 1992 64
  let grade := fieldAt b 1 1
  if fieldAt b 0 1 = 1 && 1 ≤ grade && grade ≤ 3 && fieldAt b 2 2 < 1024 && fieldAt b 4 1 < 3 && fieldAt b 5 1 < 8 &&
      zeroAt b 6 2 && zeroAt b 16 48 then
    some { grade := grade, nodeId := fieldAt b 2 2, portMode := fieldAt b 4 1, confidential := bit (fieldAt b 5 1) 0
           pfc := bit (fieldAt b 5 1) 1, ppsTime := bit (fieldAt b 5 1) 2, fabricId := BitVec.ofNat 64 (fieldAt b 8 8)
           envelope := env }
  else none

/-- Whether an envelope has the form of R650. -/
def envelopeForm (env : List Byte) : Bool :=
  env.length == 5365 && fieldAt env 0 1 == 1 && zeroAt env 1 3 && fieldAt env 4 4 == 64

/-- Whether an envelope's signature holds (R650). -/
def envelopeOk (env : List Byte) : Bool :=
  Config.mlDsaVerify (slice env 40 1952) (ascii "LHD-FN40-PROFILE") (env.take 2056) (env.drop 2056)

/-- HOT_RESERVE of a grade (R154). -/
def reserveOf (grade : Nat) : Nat := if grade = 3 then 377487 else if grade = 2 then 251658 else 125829

/-- A profile takes effect: HOT_RESERVE by its grade, and confidential mode at once where it sets it (R154, R407,
R651). -/
def State.takeProfile (s : State) (p : Profile) : State :=
  (s.modNode fun n => { n with profile := some p, confidential := n.confidential || p.confidential }).modRegs fun r =>
    { r with hotReserve := reserveOf p.grade }

/-- NODE_PROFILE_LOAD's own checks, and its effect (R406, R407, R640, R650, R651). -/
def State.loadProfile (s : State) (env : List Byte) (ctx : CmdCtx) : State :=
  if s.trust.tenant.isSome then s.finish ctx (Ans.state Reason.profileTenant)
  else if !envelopeForm env then s.finish ctx (Ans.param Reason.profileFormat)
  else if !envelopeOk env then s.finish ctx (Ans.denied Reason.profileSignature)
  else if slice env 8 32 != identityDigest then s.finish ctx (Ans.denied Reason.profileDevice)
  else match parseProfile env with
    | none => s.finish ctx (Ans.param Reason.profileFormat)
    | some p => (((s.takeProfile p).modTrust fun t => { t with flashProfile := some env }).disarmAll).finish ctx (Ans.ok)

/-- NODE_PROFILE_LOAD. -/
def execNodeProfileLoad (c : Cmd) (s : State) : Host.Outcome State Fault Refusal :=
  .next (s.onArrive 0x0102 c fun c ctx s => s.loadProfile c.payload ctx)

/-! ## FABRIC_TABLE_LOAD (R408 to R410, R460, R582, R590) -/

/-- A node entry (R408); none where a field breaks the table. The bounds of QP_BASE are those of R459. -/
def parseNodeEntry (b : List Byte) : Option FabricNode :=
  let role := fieldAt b 4 1
  let base := fieldAt b 40 4
  if fieldAt b 0 2 < 1024 && role < 3 && fieldAt b 5 1 < 2 && zeroAt b 10 6 && zeroAt b 38 2 && zeroAt b 44 20 &&
      2 ≤ base && base ≤ 15362 then
    some { id := fieldAt b 0 2, domain := fieldAt b 2 2, role := Role.ofCode role, mobile := fieldAt b 5 1 == 1
           twin := fieldAt b 6 2, twin2 := fieldAt b 8 2, address := BitVec.ofNat 128 (fieldAt b 16 16)
           mac := BitVec.ofNat 48 (fieldAt b 32 6), qpBase := base }
  else none

/-- A ring entry (R408). -/
def parseRing (b : List Byte) : Option Ring :=
  let n := fieldAt b 2 1
  if 2 ≤ n && n ≤ 64 && zeroAt b 3 5 && zeroAt b (8 + 2 * n) (2 * (64 - n)) then
    some { id := fieldAt b 0 2, members := (List.range n).map fun m => fieldAt b (8 + 2 * m) 2 }
  else none

/-- Whether a list of numbers has no repeat. -/
def distinct (l : List Nat) : Bool :=
  match l with
  | [] => true
  | x :: rest => !rest.contains x && distinct rest

/-- The header's fields (R408). -/
def fabricHeaderOk (b : List Byte) : Bool :=
  fieldAt b 0 1 == 1 && fieldAt b 1 1 ≤ 4 && 2 ≤ fieldAt b 2 2 && fieldAt b 2 2 ≤ 1024 && fieldAt b 8 2 ≤ 1024 &&
  zeroAt b 12 4 && zeroAt b 24 8 && zeroAt b (32 + 16 * fieldAt b 1 1) (16 * (4 - fieldAt b 1 1)) &&
  b.length == 96 + 64 * fieldAt b 2 2 + 136 * fieldAt b 8 2

/-- Whether the names in a table are of its own nodes (R409). -/
def fabricNamesOk (nodes : List FabricNode) (rings : List Ring) : Bool :=
  let ids := nodes.map (·.id)
  let known := fun j => j == 0xFFFF || ids.contains j
  distinct ids && distinct (rings.map (·.id)) &&
  nodes.all (fun n => known n.twin && known n.twin2 && n.twin != n.id) && rings.all fun r => r.members.all ids.contains

/-- The table that a payload spells; none where it breaks R408 or R409. -/
def State.parseFabric (s : State) (b : List Byte) : Option Fabric :=
  if b.length < 96 || !fabricHeaderOk b then none else
  let n := fieldAt b 2 2
  match s.node.profile, allSome ((List.range n).map fun i => parseNodeEntry (slice b (96 + 64 * i) 64)),
      allSome ((List.range (fieldAt b 8 2)).map fun i => parseRing (slice b (96 + 64 * n + 136 * i) 136)) with
  | some p, some nodes, some rings =>
    if fabricNamesOk nodes rings && (nodes.map (·.id)).contains p.nodeId && fieldAt b 16 8 == p.fabricId.toNat then
      some { version := fieldAt b 4 4, managers := (List.range (fieldAt b 1 1)).map fun m => BitVec.ofNat 128 (fieldAt b (32 + 16 * m) 16)
             freeSpares := fieldAt b 10 2, fabricId := p.fabricId, nodes := nodes, rings := rings, digest := digest64 b, bytes := b }
    else none
  | _, _, _ => none

/-- Nodes whose entries a new table must leave as they are: the partners, those of the node's own entry and the bound stand-ins, and the
nodes that hold extents of conversations homed here (R410, R552). -/
def State.heldNodes (s : State) : List Nat :=
  s.firstTwin.toList ++ s.secondTwin.toList ++
  (s.recover.partners.filter fun p => p.2.bound && !p.2.lost).map (·.1) ++
  (s.convs.filter fun (c : Nat × Conv) => c.2.home == s.nodeId).flatMap fun (c : Nat × Conv) => c.2.extents.map (·.node)

/-- Whether a new table keeps what R410 protects. This node's own entry shows the role that it has now (R414). -/
def State.fabricKeeps (s : State) (old new : Fabric) : Bool :=
  let entry := fun (f : Fabric) j => f.nodes.find? fun n => n.id == j
  let ring := fun (f : Fabric) r => f.rings.find? fun x => x.id == r
  decide (old.version < new.version) &&
  entry new s.nodeId == (entry old s.nodeId).map (fun n => { n with role := s.node.role }) &&
  s.heldNodes.all (fun j => entry new j == entry old j) &&
  s.drifts.all fun d => d.state == .idle || ring new d.ring == ring old d.ring

/-- Offers run again to every candidate while conversations are unassigned (R582). The lost node that they name is the last
declared lost, or this node where none has been (log entry 24). -/
def State.reoffer (s : State) : State :=
  if s.recover.unassigned.isEmpty || s.recover.offer.isSome then s else
  (s.modRecover fun r => { r with candidates := s.standinCandidates }).nextOffer (s.recover.lostNodes.getLast?.getD s.nodeId)

/-- A table takes effect (R410, R460, R582, R590). -/
def State.takeFabric (s : State) (f : Fabric) : State :=
  let s := s.modNode fun n => { n with fabric := some f }
  let s := if s.node.state = .configurable then s.modNode fun n => { n with role := (s.selfEntry.map (·.role)).getD n.role } else s
  let s := s.establishNodes.reoffer
  if s.node.state = .degraded && f.freeSpares > 0 && s.recover.score < s.regs.fenceThreshold then s.enterFenced else s

/-- FABRIC_TABLE_LOAD's own checks, and its effect (R409, R410). -/
def State.loadFabric (s : State) (b : List Byte) (ctx : CmdCtx) : State :=
  match s.parseFabric b with
  | none => s.finish ctx (Ans.param Reason.fabricFormat)
  | some f =>
    if s.node.state != .configurable && !((s.node.fabric.map fun old => s.fabricKeeps old f).getD true) then
      s.finish ctx (Ans.state Reason.fabricChange)
    else (s.finish ctx (Ans.ok f.version f.digest.toNat)).takeFabric f

/-- FABRIC_TABLE_LOAD. -/
def execFabricTableLoad (c : Cmd) (s : State) : Host.Outcome State Fault Refusal :=
  .next (s.onArrive 0x0103 c fun c ctx s => s.loadFabric c.payload ctx)

/-! ## NODE_SERVE (R411) -/

/-- The checks of R411 in order: the reason of the first that fails. -/
def State.serveRefusal (s : State) : Option Nat :=
  match s.node.profile, s.node.fabric, s.selfEntry with
  | some p, some f, some e =>
    let same := fun j => ((s.fabricNode j).map (·.domain)) == some e.domain
    let need := if f.nodes.length ≤ 128 then 1 else if f.nodes.length ≤ 512 then 2 else 3
    if s.node.role = .cache && s.node.twinBound.isNone then some Reason.setupMissing
    else if same e.twin || same e.twin2 then some Reason.twinDomain
    else if p.grade < need then some Reason.gradeTooLow
    else if s.spareTiles < s.sparesMin then some Reason.tileSpares
    else if (s.node.partnerDigest.map (· != f.digest)).getD false then some Reason.fabricMismatch
    else none
  | _, _, _ => some Reason.setupMissing

/-- NODE_SERVE: every block's ENABLE is set; the outcome comes with the end of the last check (R411, R711). -/
def execNodeServe (c : Cmd) (s : State) : Host.Outcome State Fault Refusal :=
  .next (s.onArrive 0x0104 c fun c ctx s => s.noPayload c ctx fun s =>
    match s.serveRefusal with
    | some r => s.finish ctx (Ans.state r)
    | none =>
      let s := (List.range 24).foldl (fun s n => s.startCheck (n + 1) none) s
      (s.modNode fun n => { n with serving := n.serving ++ [ctx] }).endServe)

/-! ## NODE_DRAIN (R412, R413, R592) -/

/-- The drain of a unit. -/
def State.drainOf (s : State) (scope unit : Nat) : Option Drain := s.node.drains.find? fun d => d.scope == scope && d.unit == unit

/-- Units of a scope (R412). -/
def State.drainUnits (s : State) (scope : Nat) : Nat :=
  match scope with
  | 0 => 1
  | 1 => 4
  | 2 => 72
  | 3 => s.portCount
  | 4 => 8
  | _ => 0

/-- Whether a drain cannot start (R412). A tile that serves nothing and is no spare, an active tile without a spare to take
its place, a failed pool, and the last port in service cannot be drained (log entry 25). -/
def State.drainBusy (s : State) (scope unit : Nat) : Bool :=
  (s.drainOf scope unit).isSome ||
  match scope with
  | 1 => s.node.drains.any (fun d => d.scope == 1) || s.recover.poolsFailed.contains unit || !s.trust.activating.isEmpty
  | 2 =>
    match (s.tile unit).role with
    | .active => s.freeSpares.isEmpty
    | .spare => false
    | _ => true
  | 3 =>
    !(s.port unit).drift.isEmpty ||
    !((List.range s.portCount).any fun p => p != unit && (s.port p).link && !(s.port p).drained)
  | _ => false

/-- The hot pages of a stack (log entry 13). -/
def State.stackPages (s : State) (k : Nat) : List (Nat × Page) :=
  s.tiers.pages.filter fun (p : Nat × Page) => p.2.tier == .hot && p.2.frame % 8 == k && p.2.state != .spilled && p.2.state != .poisoned

/-- A hot page goes to a frame of another stack; with none available it is wanted in the warm tier. A page on the move is
left until its move has ended, and one that cannot be read is repaired or poisoned (R174, R412, R592; log entry 25). -/
def State.migratePage (s : State) (pid : Nat) : State :=
  match s.page pid with
  | none => s
  | some p =>
    if p.state != .resident || p.moveKind.isSome then s else
    match s.soundPage pid with
    | (false, s) => s
    | (true, s) =>
    match s.allocFrame .hot (.page pid) with
    | none => if p.isSealed then s.wantMove pid .evictHot else s
    | some (f, s) =>
      let s := s.writeFrame .hot f 0 (s.readFrame .hot p.frame 0 Config.frameBytes)
      (s.modPage pid fun p => { p with frame := f }).leaveFrame .hot p.frame

/-- The pages of a drained stack are migrated. -/
def State.migrateStack (s : State) (k : Nat) : State := (s.stackPages k).foldl (fun s p => s.migratePage p.1) s

/-- A tile in service is drained: a spare takes its logical tile, and it is tested before it serves again (R227, R228,
R412). -/
def State.drainTile (s : State) (p : Nat) : State :=
  let before := s.spares
  let t := s.tile p
  let s := s.modTile p fun t => { t with role := .untested, power := .gated, logical := none, wakeDue := none, queue := [] }
  let s := match t.logical with
    | none => s
    | some n =>
      let s := s.modLogical n fun l => { l with valid := false, abandoned := l.abandoned ++ t.queue.map Work.again }
      (s.chooseSubstitute n).foreseeSubstitute n
  let s := match s.attn.logicals.findIdx? fun l => l.substitute == some p with
    | none => s
    | some n => ((s.modLogical n fun l => { l with substitute := none }).chooseSubstitute n).foreseeSubstitute n
  s.checkSpares before

/-- A drain starts (R412, R413). -/
def State.startDrain (s : State) (scope unit : Nat) : State :=
  let s := s.modNode fun n => { n with drains := n.drains ++ [{ scope := scope, unit := unit, running := true }] }
  match scope with
  | 0 => s.abortPasses (fun _ => true) Reason.driftLocalFailure
  | 1 => s.modRecover fun r => { r with poolsDrained := addOnce r.poolsDrained unit }
  | 2 => s.drainTile unit
  | 3 => s.modPort unit fun p => { p with drained := true }
  | 4 => s.migrateStack unit
  | _ => s

/-- A drained unit returns: a pool serves again, its hash value with it; a tile is a spare again after its test; a port is
retrained and comes back with its link; a stack's frames may be allocated again (R412; log entry 25). -/
def State.returnUnit (s : State) (scope unit : Nat) : State :=
  let s := s.modNode fun n => { n with drains := n.drains.filter fun d => !(d.scope == scope && d.unit == unit) }
  match scope with
  | 1 =>
    (s.modRecover fun r => { r with poolsDrained := r.poolsDrained.filter (· != unit) }).modRegs fun r =>
      { r with poolMap := setAt r.poolMap unit unit }
  | 2 => s.modTile unit fun t => { t with role := .spare, power := .gated, lastTest := s.now }
  | 3 => s.modPort unit fun p => { p.down with drained := false }
  | _ => s

/-- NODE_DRAIN. -/
def execNodeDrain (c : Cmd) (s : State) : Host.Outcome State Fault Refusal :=
  .next (s.onArrive 0x0105 c fun c ctx s => s.noPayload c ctx fun s =>
    let scope := c.hdr.p0 % 8
    let unit := bits c.hdr.p0 15 8
    let back := bit c.hdr.p0 3
    if unit ≥ s.drainUnits scope || (scope == 0 && back) then s.finish ctx (Ans.param Reason.drainScope)
    else if back then
      if ((s.drainOf scope unit).map (·.running)).getD true then s.finish ctx (Ans.state Reason.drainBusy)
      else (s.returnUnit scope unit).finish ctx (Ans.ok)
    else if s.drainBusy scope unit then s.finish ctx (Ans.state Reason.drainBusy)
    else (s.startDrain scope unit).finish ctx (Ans.ok))

/-- Conversations and extents of a pool. -/
def State.poolConvs (s : State) (p : Nat) : List (Nat × Conv) := s.convs.filter fun (c : Nat × Conv) => c.2.pool == p && c.2.home == s.nodeId

/-- Whether the node is home to no conversation and holds no extent. -/
def State.holdsNone (s : State) : Bool :=
  !(s.convs.any fun (c : Nat × Conv) => c.2.home == s.nodeId || !c.2.pages.isEmpty)

/-- Whether a running drain has come to its end (R54, R412). -/
def State.drainEmpty (s : State) (d : Drain) : Bool :=
  match d.scope with
  | 0 => s.holdsNone
  | 1 => (s.poolConvs d.unit).isEmpty
  | 2 => !(s.attn.logicals.any fun l => l.substitute.isSome)
  | 3 => decide (s.now ≥ (s.port d.unit).busyUntil)
  | _ => (s.stackPages d.unit).isEmpty

/-- The POOL_MAP entries of a pool go to another pool after its last conversation has moved (R54). -/
def State.remapPool (s : State) (p : Nat) : State :=
  s.modRegs fun r => { r with poolMap := r.poolMap.map fun q => if q = p then s.lowestPool else q }

/-- A drain ends, with its event, whose reason the manual does not give (R413; log entry 4). -/
def State.endDrain (s : State) (d : Drain) : State :=
  let s := s.modNode fun n =>
    { n with drains := if d.scope = 0 then n.drains.filter (· != d) else n.drains.map fun x => if x = d then { x with running := false } else x }
  let s := if d.scope = 1 then s.remapPool d.unit else s
  let s := if d.scope = 0 then
      (s.abortPasses (fun _ => true) Reason.driftLocalFailure).modNode fun n =>
        { n with state := if n.state = .fenced then n.state else .configurable }
    else s
  let (r, s) := s.drawBelow 65536
  s.raise Blk.err r (d.scope + 256 * d.unit)

/-- DRAIN_DONE: the first drain that has come to its end ends; the pages of a draining stack move on until none is left. -/
def execDrainDone (s : State) : Host.Outcome State Fault Refusal :=
  let s := (s.node.drains.filter fun d => d.running && d.scope == 4).foldl (fun s d => s.migrateStack d.unit) s
  match s.node.drains.find? fun d => d.running && s.drainEmpty d with
  | none => .next s
  | some d => .next (s.endDrain d)

/-! ## ROLE_SET (R414, R587) -/

/-- Whether leaving a role is refused (R414). -/
def State.roleHolds (s : State) : Bool :=
  (s.node.role == .cache || s.node.role == .twinOnly) && (!s.holdsNone || !s.recover.twinCopies.isEmpty)

/-- A node that becomes CACHE binds its table TWIN, or stand-ins for what is homed here when it has none (R587). -/
def State.becomeCache (s : State) : State :=
  let s := s.modNode fun n => { n with role := .cache }
  match s.selfEntry with
  | none => s
  | some e =>
    if e.twin ≠ 0xFFFF then (if s.linkUp e.twin then s.bindTwin e.twin e.twin2 else s) else
    let bare := (s.convs.filter fun (c : Nat × Conv) => c.2.twin.isNone && c.2.home == s.nodeId).map (·.1)
    (s.modRecover fun r => { r with unassigned := bare.foldl addOnce r.unassigned }).reoffer

/-- The new role takes effect. -/
def State.setRole (s : State) (r : Role) : State :=
  if r = .cache then s.becomeCache else s.modNode fun n => { n with role := r }

/-- ROLE_SET (R414). -/
def execRoleSet (c : Cmd) (s : State) : Host.Outcome State Fault Refusal :=
  .next (s.onArrive 0x0106 c fun c ctx s => s.noPayload c ctx fun s =>
    let role := Role.ofCode c.hdr.p0
    if c.hdr.p0 = 3 then s.finish ctx (Ans.param Reason.hdrFormat)
    else if !((s.selfEntry.map (·.mobile)).getD false) then s.finish ctx (Ans.state Reason.roleFixed)
    else if role = s.node.role then s.finish ctx (Ans.ok role.code)
    else if s.roleHolds then s.finish ctx (Ans.state Reason.roleNotEmpty)
    else (s.setRole role).finish ctx (Ans.ok role.code))

/-! ## Health (R440, R588 to R590) -/

/-- Partners for which a vote may still be cast in the guard window (R589). -/
def State.votesOpen (s : State) : Nat := (s.recover.partners.filter fun p => p.2.watched && !p.2.voted).length

/-- Corrected errors of the last second: words that WC_CORRECTED counts, and codewords on the cables (R440; log entry 98). -/
def State.cePerS (s : State) : Nat :=
  ((s.recover.ceTimes.filter fun x => decide (x.1 + 1000000000 > s.now)).map (·.2)).sum + s.recover.fecPerS

/-- Link retrains of the last minute: ports' links that were up again after a loss, and what the links' units have counted (R440; log
entry 98). -/
def State.retrains (s : State) : Nat := (s.net.ports.map fun p => (s.lastMinute p.retrains).length).sum + s.recover.linkRetrains

/-- The rise of WC_CORRECTED since the score was last computed, a counter that was zeroed since counting from 0, and what the units of
the cables and links have counted. -/
def State.noteCorrected (s : State) (fec links : Nat) : State :=
  let n := s.counter Ctr.wcCorrected
  s.modRecover fun r =>
    { r with
      fecPerS := fec, linkRetrains := links, ceSeen := n
      ceTimes := (r.ceTimes.filter fun x => decide (x.1 + 1000000000 > s.now)) ++ [(s.now, if r.ceSeen ≤ n then n - r.ceSeen else n)] }

/-- The reply of HEALTH_READ (R440). -/
def State.healthAns (s : State) : Ans :=
  let r := s.recover
  Ans.ok (r.score + 2 ^ 16 * min 255 s.votesOpen)
    (min 65535 s.cePerS + 2 ^ 16 * min 65535 s.retrains + 2 ^ 32 * min 65535 (s.lastMinute r.throttle).length +
      2 ^ 48 * min 65535 (s.lastMinute r.events).length)

/-- HEALTH_READ. -/
def execHealthRead (c : Cmd) (s : State) : Host.Outcome State Fault Refusal :=
  .next (s.onArrive 0x0503 c fun c ctx s => s.noPayload c ctx fun s => s.finish ctx s.healthAns)

/-- FENCE (R441). -/
def execFence (c : Cmd) (s : State) : Host.Outcome State Fault Refusal :=
  .next (s.onArrive 0x0504 c fun c ctx s => s.noPayload c ctx fun s => s.enterFenced.finish ctx (Ans.ok))

/-- The health score (R588). -/
def healthScore (cePerS retrains throttleMs events sparesMin spares : Nat) : Nat :=
  1000 - min 300 (cePerS / 64) - min 200 (25 * retrains) - min 200 (throttleMs / 100) - min 200 (50 * events) -
    min 300 (100 * (sparesMin - spares))

/-- HEALTH_TICK: each millisecond the score is computed over the windows of R440; a millisecond at a throttle step counts
(R588, R693). -/
def execHealthTick (fecPerS linkRetrains : Nat) (s : State) : Host.Outcome State Fault Refusal :=
  if s.now < s.recover.healthAt + 1000000 then .next s else
  let s := s.noteCorrected fecPerS linkRetrains
  let hot := s.pwr.level > 0
  let s := if hot then s.bump Ctr.throttleMs else s
  let throttle := s.lastMinute s.recover.throttle ++ (if hot then [s.now] else [])
  let events := s.lastMinute s.recover.events
  let score := healthScore s.cePerS s.retrains throttle.length events.length s.sparesMin s.spareTiles
  .next (s.modRecover fun r =>
    { r with
      throttle := throttle, events := events, healthAt := s.now, score := score
      lowSince := if score < s.regs.fenceThreshold then some (r.lowSince.getD s.now) else none
      highSince := if score ≥ s.regs.fenceThreshold + 100 then some (r.highSince.getD s.now) else none })

/-- FREE_SPARES of the loaded table. -/
def State.freeSpareNodes (s : State) : Nat := (s.node.fabric.map (·.freeSpares)).getD 0

/-- HEALTH_LOW_TIMER: a score below FENCE_THRESHOLD for 100 ms in a serving node (R590). -/
def execHealthLowTimer (s : State) : Host.Outcome State Fault Refusal :=
  match s.recover.lowSince with
  | none => .next s
  | some t =>
    if s.now < t + 100000000 || !s.serves then .next s
    else if s.freeSpareNodes > 0 then
      .next ((s.raise Blk.health Reason.healthLow s.recover.score).enterFenced)
    else if s.node.state = .serving then
      .next (((s.raise Blk.health Reason.healthLow s.recover.score).bump Ctr.degradedEnter).modNode fun n => { n with state := .degraded })
    else .next s

/-- DEGRADED_RECOVER: a score at or above FENCE_THRESHOLD + 100 for 10 s (R590). -/
def execDegradedRecover (s : State) : Host.Outcome State Fault Refusal :=
  match s.recover.highSince with
  | none => .next s
  | some t =>
    if s.node.state = .degraded && s.now ≥ t + 10000000000 then .next (s.modNode fun n => { n with state := .serving })
    else .next s

/-- GUARD_WINDOW_START: the next guard window begins (R589). -/
def execGuardWindowStart (s : State) : Host.Outcome State Fault Refusal :=
  if !s.stamps || s.now < s.recover.guardStart + 1000000 * s.regs.guardWindowMs then .next s else
  .next (s.modRecover fun r =>
    { r with
      guardStart := r.guardStart + 1000000 * s.regs.guardWindowMs
      partners := Table.mapVals r.partners fun _ p => { p with voted := false } })

end Sys2Proof.Machine
end

