-- ==== Sys2Proof/Machine/Trust.lean ====
section
/-! DEFINITION. Trust, tenancy and diagnostics (R442 to R444, R637, R646 to R648, R652, R653, R661 to R673): reports,
tenants, firmware images, set keys, injection, counters and traces. -/
namespace Sys2Proof.Machine

/-! ## Keys and measurements (R652, R662) -/

/-- R_e of the present rotation. -/
def State.rotationSecret (s : State) : List Byte := Config.freshSecret s.trust.rotation

/-- d ‖ z of the ML-KEM key pair (R652). -/
def State.kemSeed (s : State) : List Byte := sha512 (ascii "LHD-FN40-KEM" ++ s.rotationSecret)

/-- A measurement: S of an item, or 32 zero bytes (R662). -/
def measure (item : Option (List Byte)) : List Byte :=
  match item with
  | none => zeros 32
  | some b => sha b

/-- M0 to M7 (R662). -/
def State.measurements (s : State) : List Byte :=
  let t := s.trust
  let items : List (Option (List Byte)) :=
    [some Config.romBytes, t.runningImage, s.node.profile.map (·.envelope),
     s.node.profile.map fun p => slice p.envelope 40 1952, s.node.fabric.map (·.bytes), t.tenant.map (·.blockBytes),
     t.tenant.map (·.listBytes), if t.verified then some t.staged else none]
  (items.map measure).flatten

/-- A security-group command reads Bellwether's SRAM; a poisoned word there ends it (R615, R616, R635; log entry 26). -/
def State.bellwether (s : State) (ctx : CmdCtx) (f : State → State) : State :=
  match s.sramRead Blk.sec 0 0 with
  | (true, s) => f s
  | (false, s) => s.finish ctx { status := Status.poisoned, reason := Reason.poisonConsumed }

/-! ## ATTEST (R661 to R663) -/

/-- The bytes of a report before its signature (R661). -/
def State.reportBody (s : State) (nonce : List Byte) : List Byte :=
  let flags := flagAt s.node.confidential 0 + flagAt s.trust.tenant.isSome 1 + flagAt s.node.profile.isSome 2 +
    flagAt (!s.trust.activating.isEmpty) 3
  le 1 1 ++ le 1 s.node.state.code ++ le 2 flags ++ le 4 s.trust.fwVersion ++ le 4 s.epoch ++ le 4 Config.certificates.length ++
  le 8 (s.trust.reportSeq + 1) ++ le 8 (if s.clk.locked then s.clk.ptp else 0) ++ zeros 32 ++ nonce ++ s.measurements ++
  Config.mlKemPublic s.kemSeed ++ identityKey ++ pad16 Config.certificates

/-- A report (R661). -/
def State.report (s : State) (nonce : List Byte) : List Byte :=
  let b := s.reportBody nonce
  b ++ Config.mlDsaSign identitySeed (ascii "LHD-FN40-ATTEST") b

/-- A report is issued: it is counted, and its digest is one of the last 16 (R661, R663). -/
def State.noteReport (s : State) (r : List Byte) : State :=
  s.modTrust fun t =>
    let l := t.reports ++ [sha r]
    { t with reportSeq := t.reportSeq + 1, reports := l.drop (l.length - 16) }

/-- ATTEST. A result item that is too small issues no report. -/
def execAttest (c : Cmd) (s : State) : Host.Outcome State Fault Refusal :=
  .next (s.onArrive 0x0601 c fun c ctx s => s.bellwether ctx fun s =>
    if c.payload.length ≠ 48 then s.finish ctx (Ans.param Reason.payloadFormat) else
    let it := resultItemAt c.payload 32
    let r := s.report (c.payload.take 32)
    if itemFits ctx.src it r.length then (s.noteReport r).finishResult ctx it (Ans.ok r.length) r
    else s.finish ctx (Ans.param Reason.resultSpace))

/-! ## TENANT_BEGIN (R442, R664 to R666, R668) -/

/-- Whether the entries of a device-set list ascend strictly (R668). -/
def ascending (l : List Nat) : Bool :=
  match l with
  | [] => true
  | [_] => true
  | a :: b :: rest => decide (a < b) && ascending (b :: rest)

/-- The entries of a device-set list (R668). -/
def setEntries (l : List Byte) : List (List Byte) := chunks 32 (slice l 16 (32 * fieldAt l 2 2))

/-- Whether a device-set list is well formed (R668). -/
def setListOk (l : List Byte) : Bool :=
  let n := fieldAt l 2 2
  fieldAt l 0 1 == 1 && zeroAt l 1 1 && 1 ≤ n && n ≤ 1024 && zeroAt l 4 4 && l.length == 16 + 32 * n + 3309 &&
  ascending ((setEntries l).map leNat)

/-- Whether a tenant block is well formed, its list included (R664, R665). -/
def tenantBlockOk (b : List Byte) : Bool :=
  fieldAt b 0 1 == 1 && zeroAt b 1 3 && zeroAt b 1144 8 && b.length == 3104 + fieldAt b 4 4 && b.length ≥ 3104 &&
  setListOk (b.drop 3104)

/-- The tenant secret that a block carries (R665). -/
def State.tenantSecret (s : State) (b : List Byte) : List Byte := Config.mlKemDecap s.kemSeed (slice b 40 1088)

/-- The number of the first check of R665 that fails. -/
def State.evidenceFault (s : State) (b : List Byte) : Option Nat :=
  let digest := slice b 8 32
  let ss := s.tenantSecret b
  let list := b.drop 3104
  let signed := list.take (list.length - 3309)
  if !s.trust.reports.contains digest then some 1
  else if slice b 1128 16 != shake256 16 (ascii "LHD-FN40-CONFIRM" ++ ss ++ digest) then some 2
  else if !tenantBlockOk b then some 3
  else if !Config.mlDsaVerify (slice b 1152 1952) (ascii "LHD-FN40-SET") signed (list.drop (list.length - 3309)) then some 4
  else none

/-- The epoch after the last, 0 skipped (R442). -/
def State.nextEpoch (s : State) : Nat :=
  let e := (s.trust.lastEpoch + 1) % 2 ^ 32
  if e = 0 then 1 else e

/-- Counters, CORRECTED fields and windows start anew (R440, R633, R666, R714). -/
def State.clearTenantView (s : State) : State :=
  let s := { s with counters := [], blocks := s.blocks.map fun (b : Block) => { b with corrected := 0 } }
  s.modRecover fun r => { r with ceSeen := 0, ceTimes := [], fecPerS := 0, linkRetrains := 0, throttle := [], events := [] }

/-- A tenant comes in; the node's revocations are counted anew (R442, R486, R666). -/
def State.admitTenant (s : State) (b : List Byte) : State :=
  let list := b.drop 3104
  let e := s.nextEpoch
  let ss := s.tenantSecret b
  let s := s.modTrust fun t =>
    { t with
      tenant := some
        { epoch := e, blockBytes := b, listBytes := list, setId := BitVec.ofNat 64 (fieldAt list 8 8), entries := setEntries list
          secret := ss },
      lastEpoch := e, spillCount := 0, counterZeroing := true }
  s.clearTenantView.disarmAll.modRegions fun r => { r with revokeSeq := 0 }

/-- The time that the zeroing, or the writing of start-up, still takes, in µs (R442, R690). -/
def State.zeroingLeft (s : State) : Option Nat :=
  match s.trust.zeroing with
  | none => none
  | some t => some (max 1 (ceilDiv (t - s.now) 1000))

/-- TENANT_BEGIN. -/
def execTenantBegin (c : Cmd) (s : State) : Host.Outcome State Fault Refusal :=
  .next (s.onArrive 0x0602 c fun c ctx s => s.bellwether ctx fun s =>
    if s.trust.tenant.isSome then s.finish ctx (Ans.state Reason.tenantPresent) else
    match s.zeroingLeft, s.evidenceFault c.payload with
    | some t, _ => s.finish ctx (Ans.throttled Reason.tenantZeroing t)
    | none, some n => s.finish ctx { status := Status.denied, reason := Reason.tenantEvidence, p0 := n }
    | none, none => (s.admitTenant c.payload).finish ctx (Ans.ok s.nextEpoch))

/-! ## TENANT_END (R442, R640, R653, R667) -/

/-- The reply of every command that TENANT_END ends. -/
def endedAns : Ans := Ans.denied Reason.tenantEnded

/-- Ends what a conversation has in progress: its waiting row, its appends and the requester of its move. -/
def State.endConvWork (s : State) (cid : Nat) (c : Conv) : State :=
  let s := s.modConv cid fun c => { c with row := [], passed := [], held := [] }
  let s := c.row.foldl (fun s (x : RowItem) => match x with
    | .cmd _ ctx => s.finish ctx endedAns
    | .append a => s.refuseAppend a endedAns) s
  let s := (c.passed ++ c.held).foldl (fun s a => s.refuseAppend a endedAns) s
  match c.move.bind fun m => if m.replied then none else m.requester with
  | none => s
  | some ctx => s.finish ctx endedAns

/-- Whether a command is one of the tenant-free opcodes, which run to their own end (R394, R442). -/
def CmdCtx.tenantFree (c : CmdCtx) : Bool := (opSpec c.opcode.toNat).any (·.tenantFree)

/-- What has been answered waits no longer. -/
def State.forgetEnded (s : State) : State :=
  let s := s.modNet fun n => { n with waiting := n.waiting.filter fun w => w.2.ctx.tenantFree, opens := [], fetches := [] }
  s.modRegions fun r =>
    { r with
      pubs := [], near := [], waiting := []
      revokes := Table.mapVals r.revokes fun _ v => { v with ctx := none }
      regions := Table.mapVals r.regions fun _ x => { x with closer := none } }

/-- Every command in progress of the tenant ends, and the passes abort with DRIFT_CANCELLED (R442). -/
def State.endTenantWork (s : State) : State :=
  let s := s.attn.reqs.foldl (fun s p => s.endReq p.1 endedAns) s
  let s := s.convs.foldl (fun s (c : Nat × Conv) => s.endConvWork c.1 c.2) s
  let s := (s.net.opens ++ s.net.fetches).foldl (fun s x => s.finish x.2 endedAns) s
  let s := s.regions.waiting.foldl (fun s x => s.finish x.2 endedAns) s
  let s := (s.net.waiting.filter fun w => !w.2.ctx.tenantFree).foldl (fun s w => s.finish w.2.ctx endedAns) s
  let s := s.abortPasses (fun _ => true) Reason.driftCancelled
  let s := (List.range 16).foldl (fun s slot => if (s.drift slot).state == .idle then s else s.endPass slot endedAns) s
  let s := s.regions.pubs.foldl (fun s p => s.finish p.2.ctx endedAns) s
  let s := s.regions.near.foldl (fun s n => s.finish n.2.ctx endedAns) s
  let s := s.regions.revokes.foldl (fun s v => v.2.ctx.toList.foldl (fun s ctx => s.finish ctx endedAns) s) s
  let s := s.regions.regions.foldl (fun s r => r.2.closer.toList.foldl (fun s ctx => s.finish ctx endedAns) s) s
  s.forgetEnded

/-- Whether a message carries a reply. -/
def Msg.isReply (m : Msg) : Bool := m.ops.any fun o => match o with
  | .reply _ _ _ _ _ => true
  | _ => false

/-- The packets of a message that are still to leave are ready, and have their PSNs (R461, R494). -/
def State.flushMessage (s : State) (m : Msg) : State :=
  let q := s.qp m.qp
  let m := { m with psn := some (m.psn.getD q.sqPsn) }
  let s := s.modNet fun n =>
    { n with
      control := n.control ++ (List.range (m.packets q.mtu - m.sent)).filterMap fun i =>
        (frameOf q.mtu m.ops (m.sent + i)).map fun f =>
          let packet := s.packet m (m.sent + i) f.1 f.2.1
          { port := s.portOf m.qp, qp := m.qp, cls := m.cls, msg := m.uid, bytes := f.1, last := f.2.1, ops := f.2.2.toList,
            headers := packet.1, payload := packet.2.1, icrc := packet.2.2, posted := m.posted } }
  s.modQp m.qp fun q => { q with sqPsn := (m.psn.getD 0 + m.packets q.mtu) % 2 ^ 24 }

/-- The replies posted on HOST QPs are ready to leave before those QPs go to RESET (log entry 26). -/
def State.flushReplies (s : State) : State :=
  let host := fun (m : Msg) => (s.qp m.qp).kind != .node
  ((s.net.egress.filter fun m => host m && m.isReply).foldl State.flushMessage s).modNet fun n =>
    { n with egress := n.egress.filter fun m => !host m }

/-- HOST and SPILL QPs go to RESET; NODE QPs stay (R667). -/
def State.resetHostQps (s : State) : State :=
  s.flushReplies.modNet fun n =>
    { n with qps := Table.mapVals n.qps fun _ q => if q.kind = .node then q else { q.afterReset with conn := q.conn + 1 } }

/-- Whether a message carries bytes of the tenant's: a write other than a stamp, the response to a READ, or a command with a payload. -/
def Msg.carriesData (m : Msg) : Bool :=
  m.ops.any fun o => match o, m.tag with
    | .write _ _ _ _, .twin _ => false
    | .write _ _ _ _, _ => true
    | .readResponse _, _ => true
    | .send b, _ => decide (64 < b.length)
    | _, _ => false

/-- An operation whose bytes are those of a frame that has been zeroed: a packet sent again reads its source again (R617, R667). -/
def WireOp.zeroed : WireOp → WireOp
  | .send b => .send (zeros b.length)
  | .write a k b imm => .write a k (zeros b.length) imm
  | .readResponse b => .readResponse (zeros b.length)
  | o => o

/-- The messages of NODE QPs carry nothing of the ended tenant's into the next: those not begun are gone, and what is left of the others,
or is sent again, is zeros (R4, R667, R673; log entry 87). -/
def State.zeroMessages (s : State) : State :=
  let scrub := fun (m : Msg) => if m.carriesData then { m with ops := m.ops.map WireOp.zeroed, tag := .none } else m
  s.modNet fun n =>
    { n with
      egress := (n.egress.filter fun m => !(m.carriesData && m.sent == 0 && m.psn.isNone)).map scrub
      qps := Table.mapVals n.qps fun _ q => { q with unacked := q.unacked.map scrub } }

/-- The uses that a tenant's end leaves: retired frames stay retired (R174, R673). -/
def retiredOnly (t : Table FrameUse) : Table FrameUse := t.filter fun p => p.2 == .retired

/-- Every frame is free, zero and of generation 0, and every page and spill target is gone (R667). -/
def State.clearTiers (s : State) : State :=
  s.modTiers fun t => { hot := retiredOnly t.hot, warm := retiredOnly t.warm, nextPage := t.nextPage }

/-- Conversations, requests, layouts, modifiers, regions, versions, CAM entries and twin copies are gone; a key's generation
rises (R486, R667). The aborts of the last 2 s are remembered until the next tenant comes (R359, R673; log entry 87). -/
def State.clearTenantState (s : State) : State :=
  let r := s.regions
  let s := { s with convs := [], drifts := List.replicate 16 {}, readies := [] }
  let s := { s with regions :=
    { keyGens := r.keys.foldl (fun (g : Table Nat) (k : Nat × Key) => Table.set g k.1 ((Table.getD g k.1 0 + 1) % 256)) r.keyGens,
      nextPub := r.nextPub, revokeSeq := r.revokeSeq, lateKeys := [], nearSeq := r.nearSeq } }
  let s := s.modAttn fun a =>
    { tiles := a.tiles.map fun t => { t with queue := [], idleSince := if t.queue.isEmpty then t.idleSince else s.now }, logicals := a.logicals.map fun l => { l with abandoned := [] },
      nextCtx := a.nextCtx }
  let s := s.modNet fun n => { n with records := [], waiting := n.waiting.filter fun w => w.2.ctx.tenantFree, acked := [] }
  s.modRecover fun r =>
    { r with
      partners := Table.mapVals r.partners fun _ p => { p with grantsFree := [], grantsTotal := 0, given := [], grantLeft := 0, wants := 0 },
      twinVersions := [], twinRecords := [], twinSats := [], twinShared := [], twinCopies := [], toPromote := [], unassigned := [], offer := none, candidates := [], resyncLeft := [],
      soleCopy := false, refusedEpochs := [] }

/-- The rotation: a fresh R_e, and every key derived from the last is gone, with the reports (R652, R653, R663). A staged
image that was held in frames is gone with them (log entry 26). The memory controllers are given the new keys (R36). -/
def State.rotateKeys (s : State) : State :=
  (s.modTrust fun t =>
    { t with
      rotation := t.rotation + 1, reports := [], reportSeq := 0, tenant := none, spillCount := 0, staged := [], stagedLen := 0
      verified := false }).deliverKeys

/-- The zeroing of every frame starts; it takes 1.01 s (R667). -/
def State.startZeroing (s : State) : State := s.modTrust fun t => { t with zeroing := some (s.now + 1010000000) }

/-- TENANT_END is accepted: the tenant's work ends at once, and the reply follows within the bound of 5 ms, at an instant
that is a free value (R394, R442, R667; log entry 26). -/
def State.endTenant (s : State) (ctx : CmdCtx) : State :=
  let (d, s) := s.endTenantWork.drawBelow 5000000
  s.modTrust fun t => { t with ending := some (ctx, s.now + d) }

/-- The reply of TENANT_END: what has come in since its acceptance ends, the tenant's state is dropped, the keys are
rotated, the epoch is 0, and the zeroing starts (R442, R640, R667). -/
def State.closeTenant (s : State) (ctx : CmdCtx) : State :=
  let s := (s.endTenantWork.clearTenantState.rotateKeys.disarmAll).modTrust fun t => { t with ending := none }
  (s.finish ctx (Ans.ok)).resetHostQps.zeroMessages.clearTiers.startZeroing

/-- The cycle of a zeroing of the counters ends: its events are not counted (R714). -/
def State.settleCounters (s : State) : State :=
  if s.trust.counterZeroing then ({ s with counters := [] }).modTrust fun t => { t with counterZeroing := false } else s

/-- The POOL_MAP entries of the partition that is being updated go to another pool once its last conversation has moved (R54, R443). -/
def State.remapEmpty (s : State) : State :=
  match s.trust.activating with
  | [] => s
  | p :: _ => if (s.poolConvs p).isEmpty then s.remapPool p else s

/-- At the end of a cycle nothing waits to be received: what is paused at the link partners is released (R491). -/
def State.paceAll (s : State) : State := (List.range s.portCount).foldl (fun s p => s.pace p) s

/-- One cycle of Rime time passes; the replies whose instant has come are given, and repairs that waited for a frame start (R37, R175;
log entry 1). -/
def State.tick (s : State) : State :=
  let s := s.settleCounters.passFetches.remapEmpty.paceAll.passCycle.lateReplies.lateRequests.placeAll.passRegions.resumeRepairs.resumeResyncs
  match s.trust.ending with
  | none => s
  | some (ctx, t) => if s.now < t then s else s.closeTenant ctx

/-- TENANT_END. -/
def execTenantEnd (c : Cmd) (s : State) : Host.Outcome State Fault Refusal :=
  .next (s.onArrive 0x0603 c fun c ctx s => s.noPayload c ctx fun s => s.bellwether ctx fun s =>
    if s.trust.tenant.isNone then s.finish ctx (Ans.state Reason.tenantAbsent) else s.endTenant ctx)

/-- ZEROING_DONE. -/
def execZeroingDone (s : State) : Host.Outcome State Fault Refusal :=
  match s.trust.zeroing with
  | none => .next s
  | some t => if s.now < t then .next s else .next (s.modTrust fun t => { t with zeroing := none })

/-! ## Firmware (R443, R646 to R648) -/

/-- Whether a firmware image envelope is valid (R646). -/
def imageOk (b : List Byte) : Bool :=
  let n := fieldAt b 4 4
  let certLen := fieldAt b 12 4
  fieldAt b 0 1 == 1 && zeroAt b 1 3 && zeroAt b 16 16 && n == b.length && n ≤ 62914560 && 64 + roundUp certLen 16 + 3309 ≤ n &&
  slice b 32 32 == Config.rootDigest &&
  match Config.certifiedKey Config.rootDigest (slice b 64 certLen) with
  | none => false
  | some key => Config.mlDsaVerify key (ascii "LHD-FN40-IMAGE") (b.take (n - 3309)) (b.drop (n - 3309))

/-- FW_VERSION of an image (R646). -/
def imageVersion (b : List Byte) : Nat := fieldAt b 8 4

/-- Frees the hot frames that hold the staged image. -/
def State.freeStaged (s : State) : State :=
  (s.tiers.hot.filter fun p => p.2 == .stagedImage).foldl (fun s p => s.freeFrame .hot p.1) s

/-- Nothing is staged. -/
def State.dropStaged (s : State) : State := s.freeStaged.modTrust fun t => { t with staged := [], stagedLen := 0, verified := false }

/-- A chunk is placed in hot frames held by Bellwether; with the last byte the image is verified (R443, R648). A chunk at
offset 0 begins anew (log entry 27). -/
def State.stageChunk (s : State) (off total : Nat) (bs : List Byte) (ctx : CmdCtx) : State :=
  let s := if off = 0 then s.dropStaged.modTrust fun t => { t with restaged := true } else s
  if off ≠ s.trust.staged.length || (off ≠ 0 && total ≠ s.trust.stagedLen) || s.trust.verified then
    s.finish ctx (Ans.state Reason.imageStage)
  else if off + bs.length > total then s.finish ctx (Ans.param Reason.payloadFormat) else
  let more := ceilDiv (off + bs.length) 65536 - ceilDiv off 65536
  match s.allocFrames .hot .stagedImage more with
  | none => (s.bump Ctr.throttleGrow).finish ctx (Ans.throttled Reason.hotExhausted (s.hint .hot more))
  | some (_, s) =>
    let s := s.modTrust fun t => { t with staged := t.staged ++ bs, stagedLen := total }
    if s.trust.staged.length < total then s.finish ctx (Ans.ok)
    else if imageOk s.trust.staged then (s.modTrust fun t => { t with verified := true }).finish ctx (Ans.ok)
    else s.dropStaged.finish ctx (Ans.denied Reason.imageSignature)

/-- FIRMWARE_STAGE. -/
def execFirmwareStage (c : Cmd) (s : State) : Host.Outcome State Fault Refusal :=
  .next (s.onArrive 0x0604 c fun c ctx s => s.bellwether ctx fun s =>
    if c.hdr.p0 % 4096 ≠ 0 then s.finish ctx (Ans.param Reason.hdrFormat)
    else if c.payload.length < 4096 || c.payload.length > 65536 then s.finish ctx (Ans.param Reason.payloadFormat)
    else s.stageChunk c.hdr.p0 c.hdr.p1 c.payload ctx)

/-- The first shepherd partition still to be updated is drained, as a NODE_DRAIN of its pool drains it (R443). -/
def State.drainPartition (s : State) : State :=
  match s.trust.activating with
  | [] => s
  | p :: _ => (s.modRecover fun r => { r with poolsDrained := addOnce r.poolsDrained p }).remapEmpty

/-- FIRMWARE_ACTIVATE: the image goes to flash, the passes abort, and the first partition begins (R353, R443, R648). -/
def execFirmwareActivate (c : Cmd) (s : State) : Host.Outcome State Fault Refusal :=
  .next (s.onArrive 0x0605 c fun c ctx s => s.noPayload c ctx fun s => s.bellwether ctx fun s =>
    if !s.trust.verified || !s.trust.activating.isEmpty then s.finish ctx (Ans.state Reason.imageStage)
    else if s.node.drains.any fun d => d.scope == 1 then s.finish ctx (Ans.state Reason.drainBusy)
    else
      let s := s.modTrust fun t => { t with flashImage := some t.staged, activating := [0, 1, 2, 3], restaged := false }
      ((s.abortPasses (fun _ => true) Reason.driftLocalFailure).drainPartition).finish ctx (Ans.ok))

/-- The last partition is updated: the image in flash is the running one, and it is staged no more; what has been staged since the
activation began stays (R443, R662). -/
def State.endActivation (s : State) : State :=
  let s := s.modTrust fun t => { t with runningImage := t.flashImage, fwVersion := (t.flashImage.map imageVersion).getD t.fwVersion }
  if s.trust.restaged then s else s.dropStaged

/-- FIRMWARE_PARTITION_DONE: the partition, empty of conversations, is updated and serves again, and the next one begins
(R443). -/
def execFirmwarePartitionDone (pool : Nat) (s : State) : Host.Outcome State Fault Refusal :=
  if s.trust.activating.head? ≠ some pool || !(s.poolConvs pool).isEmpty then .next s else
  let s := ((s.modRecover fun r => { r with poolsDrained := r.poolsDrained.filter (· != pool) }).modRegs fun r =>
    { r with poolMap := setAt r.poolMap pool pool }).modTrust fun t => { t with activating := t.activating.drop 1 }
  .next (if s.trust.activating.isEmpty then s.endActivation else s.drainPartition)

/-! ## SET_KEY_UNWRAP (R669, R670) -/

/-- The set key that a wrapped set key carries, or none (R669). -/
def State.unwrapKey (s : State) (b : List Byte) : Option (List Byte) :=
  let ss := Config.mlKemDecap s.kemSeed (slice b 16 1088)
  let kek := sha (ascii "LHD-FN40-SETKEK" ++ ss ++ slice b 8 8)
  if fieldAt b 0 1 ≠ 1 then none else Config.gcmOpen kek (zeros 12) (b.take 16) (slice b 1104 32) (slice b 1136 16)

/-- SET_KEY_UNWRAP's checks in order, and its effect (R670). -/
def State.unwrapSet (s : State) (t : Tenant) (id : W64) (b : List Byte) : Except Ans State :=
  if b.length ≠ 1152 || !zeroAt b 1 7 then .error (Ans.param Reason.payloadFormat)
  else if id ≠ t.setId || fieldAt b 8 8 ≠ id.toNat then .error (Ans.param Reason.setMismatch)
  else if !t.entries.contains identityDigest then .error (Ans.denied Reason.setNotListed)
  else match s.unwrapKey b with
    | none => .error (Ans.denied Reason.unwrapFail)
    | some key => .ok (s.modTrust fun x => { x with tenant := some { t with setKey := some key } })

/-- SET_KEY_UNWRAP. -/
def execSetKeyUnwrap (c : Cmd) (s : State) : Host.Outcome State Fault Refusal :=
  .next (s.onArrive 0x0606 c fun c ctx s => s.bellwether ctx fun s =>
    match s.trust.tenant with
    | none => s.finish ctx (Ans.denied Reason.tenantEpoch)
    | some t =>
      match s.unwrapSet t c.hdr.targetId c.payload with
      | .error a => s.finish ctx a
      | .ok s => s.finish ctx (Ans.ok))

/-! ## Diagnostics (R438, R444, R637, R672) -/

/-- DIAG_INJECT: the lowest free slot is armed with delay 0 (R637). -/
def execDiagInject (c : Cmd) (s : State) : Host.Outcome State Fault Refusal :=
  .next (s.onArrive 0x0701 c fun c ctx s => s.noPayload c ctx fun s =>
    let block := c.hdr.targetId.toNat / 256
    let point := c.hdr.targetId.toNat % 256
    let kind := c.hdr.p0 % 256
    let count := bits c.hdr.p0 31 16
    if s.node.confidential then s.finish ctx (Ans.denied Reason.confidential) else
    match injRefusal block point kind count, s.regs.inj.findIdx? fun x => !x.busy with
    | some a, _ => s.finish ctx a
    | none, none => s.finish ctx (Ans.throttled Reason.injectSlotsFull 1000)
    | none, some n =>
      let s := s.modInj n fun x => { x with kind := kind, block := block, point := point, count := count, delay := 0 }
      (s.armSlot n).finish ctx (Ans.ok))

/-- The counters of a block as DIAG_COUNTERS writes them (R444, R672, R714). -/
def State.counterBytes (s : State) (b : Nat) : List Byte := ((List.range (counterCount b)).map fun n => le 8 (s.counterRead b n)).flatten

/-- DIAG_COUNTERS. A block ID that the node does not have is refused (log entry 28). -/
def execDiagCounters (c : Cmd) (s : State) : Host.Outcome State Fault Refusal :=
  .next (s.onArrive 0x0702 c fun c ctx s =>
    let b := c.hdr.targetId.toNat
    if c.payload.length ≠ 16 then s.finish ctx (Ans.param Reason.payloadFormat)
    else if b = 0 || b > 24 then s.finish ctx (Ans.param Reason.regAddress)
    else s.finishResult ctx (resultItemAt c.payload 0) (Ans.ok (counterCount b)) (s.counterBytes b))

/-- DIAG_TRACE: START begins a trace, STOP ends it and writes its bytes, whose form the manual does not give (R438; log
entry 4). -/
def execDiagTrace (c : Cmd) (s : State) : Host.Outcome State Fault Refusal :=
  .next (s.onArrive 0x0703 c fun c ctx s =>
    let start := bit c.hdr.p0 0
    let stop := bit c.hdr.p0 1
    if s.node.confidential then s.finish ctx (Ans.denied Reason.confidential)
    else if start == stop then s.finish ctx (Ans.param Reason.hdrFormat)
    else if start then
      if c.payload.isEmpty then (s.modTrust fun t => { t with trace := true }).finish ctx (Ans.ok)
      else s.finish ctx (Ans.param Reason.payloadFormat)
    else if c.payload.length ≠ 16 then s.finish ctx (Ans.param Reason.payloadFormat)
    else
      let (bs, s) := if s.trust.trace then s.drawBytes else ([], s)
      (s.modTrust fun t => { t with trace := false }).finishResult ctx (resultItemAt c.payload 0) (Ans.ok bs.length) bs)

end Sys2Proof.Machine
end

