-- ==== Sys2Proof/Machine/Power.lean ====
section
/-! DEFINITION. Power, clocks, start-up and recovery listening (R642 to R644, R649, R675 to R698, R732): the sideband pins,
the start-up states, the PLLs, throttling, fences and trips, and PTP. -/
namespace Sys2Proof.Machine

/-! ## What outlasts a loss of power or a reset (R645, R648, R678, R683, R695) -/

/-- The node with every register at its reset value. What stays: the flash, Rime time and the monitors, the event of a trip,
the pins, the count of rotations, and what has been sent. -/
def State.cold (s : State) (pw : PowerState) (st : NodeState) : State :=
  { State.reset with
    pending := s.pending
    drawn := s.drawn
    pins := { s.pins with alertLow := false }
    clk := { rime := s.clk.rime }
    pwr := { state := pw, mons := s.pwr.mons, tripEvent := s.pwr.tripEvent }
    up := { since := s.now, poweredAt := s.up.poweredAt }
    trust := { rotation := s.trust.rotation, memoryKeys := 0, flashImage := s.trust.flashImage, flashProfile := s.trust.flashProfile }
    node := { state := st }
    net := { wire := s.net.wire } }

/-- The module in OFF: Rime time stops, and nothing of the last trip is kept (R677, R683, R733). -/
def State.powerOff (s : State) : State :=
  let s := s.cold .off .off
  { s with clk := {}, pwr := { state := .off }, up := {}, pins := { s.pins with pwrEn := false } }

/-- The release of MOD_RESET_N takes effect: the rails ramp, a new rotation begins and its keys go to the memory controllers, and the event of a trip is the first of the
queue (R653, R676, R686, R695). -/
def State.releaseReset (s : State) : State :=
  let kept := s.pwr.tripEvent.toList
  let s := s.cold .active .rooting
  let s := (s.modTrust fun t => { t with rotation := t.rotation + 1 }).deliverKeys
  State.driveAlert { s with events := kept, pwr := { s.pwr with tripEvent := none } }

/-! ## The pins (R676 to R678, R687, R732, R733) -/

/-- PWR_EN_RISE: MOD_PWR_EN rises with an input voltage, in units of 10 mV. Within 44 to 59 V the module enters RIME_STANDBY,
and Rime time starts at 0; a MOD_RESET_N that is high already counts as a release that comes too early (R676, R683, R687). -/
def execPwrEnRise (input : Int) (s : State) : Host.Outcome State Fault Refusal :=
  if s.pwr.state ≠ .off then .next s else
  let s := { s with pins := { s.pins with pwrEn := true } }
  if input < 4400 || input > 5900 then .next s else
  let s := s.cold .standby .rooting
  .next { s with
    clk := {}
    pwr := { s.pwr with mons := setAt s.pwr.mons 0 input }
    up := { releaseHeld := s.pins.resetN } }

/-- PWR_EN_FALL (R677). -/
def execPwrEnFall (s : State) : Host.Outcome State Fault Refusal := .next s.powerOff

/-- RESET_ASSERT: MOD_RESET_N has been low for a time in ns; a pulse below 1 µs is ignored (R678, R732). -/
def execResetAssert (lowNs : Nat) (s : State) : Host.Outcome State Fault Refusal :=
  if lowNs < 1000 then .next s else
  let s := { s with pins := { s.pins with resetN := false } }
  if s.pwr.state = .off then .next s else .next (s.cold .standby .rooting)

/-- Whether the board has held MOD_RESET_N low for 5 ms after MOD_PWR_EN rose (R687). -/
def State.releaseReady (s : State) : Bool := decide (s.now ≥ s.up.poweredAt + 5000000)

/-- RESET_RELEASE: the rising edge of MOD_RESET_N, or the instant at which a release that came too early is let through. It
has no effect in OFF (R686, R687, R733). -/
def execResetRelease (s : State) : Host.Outcome State Fault Refusal :=
  if s.pins.resetN && !s.up.releaseHeld then .next s else
  let s := { s with pins := { s.pins with resetN := true } }
  if s.pwr.state ≠ .standby then .next s
  else if s.releaseReady then .next s.releaseReset
  else .next (s.modUp fun u => { u with releaseHeld := true })

/-! ## ROOTING (R642 to R644, R646, R688, R689) -/

/-- The node listens for a recovery image; IDENTITY_FAIL is an event as well (R644, R648, R649, R674). -/
def State.enterRecovery (s : State) (reason : Nat) : State :=
  let s := if reason = Reason.identityFail then s.raise Blk.sec reason 0 else s
  (s.modNode fun n => { n with state := .recovery }).modUp fun u => { u with recovery := some { reason := reason } }

/-- The profile in flash takes effect when it holds; one that fails is ignored, with an event (R642, R650, R689). -/
def State.readFlashProfile (s : State) : State :=
  match s.trust.flashProfile with
  | none => s
  | some env =>
    if envelopeForm env && envelopeOk env && slice env 8 32 == identityDigest then
      match parseProfile env with
      | some p => s.takeProfile p
      | none => s.raise Blk.sec Reason.profileSignature 0
    else s.raise Blk.sec Reason.profileSignature 0

/-- Whether the node works through a start-up state whose bound it has not missed. -/
def State.startingUp (s : State) (st : NodeState) : Bool :=
  s.pwr.state == .active && s.node.state == st && !s.up.missedBound && !s.up.selfTestFailed

/-- BELLWETHER_ROOTING_DONE (R642). The image in flash is the delivered one until another has been written. -/
def execBellwetherRootingDone (selfTest identity image : Bool) (s : State) : Host.Outcome State Fault Refusal :=
  if !s.startingUp .rooting then .next s
  else if !selfTest then .next ((s.modUp fun u => { u with selfTestFailed := true }).driveAlert)
  else if !identity then .next (s.enterRecovery Reason.identityFail)
  else if !image then .next (s.enterRecovery Reason.imageSignature)
  else
    let im := s.trust.flashImage.getD Config.deliveredImage
    let s := s.modTrust fun t => { t with runningImage := some im, fwVersion := imageVersion im }
    let s := s.readFlashProfile
    let s := s.modClk fun c => { c with pll := [true, true, true, true, true, false, false, false] }
    .next ((s.modNode fun n => { n with state := .training }).modUp fun u => { u with since := s.now })

/-! ## TRAINING (R190, R688, R690, R691) -/

/-- The physical tiles that a test passed, in ascending order. -/
def passedTiles (tiles : List Nat) : List Nat := (List.range 72).filter tiles.contains

/-- A tile after its start-up test (R186, R190). -/
def startTile (tiles : List Nat) (now p : Nat) : Tile :=
  match (passedTiles tiles).findIdx? (· == p) with
  | none => { role := .failed, power := .off }
  | some i =>
    if i < 64 then { role := .active, power := .run, logical := some i, idleSince := now, lastTest := now }
    else { role := .spare, power := .gated, lastTest := now }

/-- The tiles and their bindings after the start-up tests; a failed tile is counted and reported (R190, R226). -/
def State.startTiles (s : State) (tiles : List Nat) : State :=
  let ok := passedTiles tiles
  let s := s.modAttn fun a =>
    { a with
      tiles := (List.range 72).map (startTile tiles s.now)
      logicals := (List.range 64).map fun n => match ok[n]? with
        | none => { phys := n }
        | some p => { phys := p, valid := true } }
  ((List.range 72).filter fun p => !ok.contains p).foldl (fun s p => (s.reportTile p .test false).bump Ctr.tileFault) s

/-- TRAINING_DONE: CONFIGURABLE, with the data ports that have link; every frame is written in the background (R688, R690,
R691). -/
def execTrainingDone (tiles hbm packages ports badLinks badBlocks : List Nat) (s : State) : Host.Outcome State Fault Refusal :=
  if !s.startingUp .training then .next s else
  let s := s.startTiles tiles
  let s := s.modUp fun u =>
    { u with
      since := s.now, stacksTrained := hbm, packagesTrained := packages, fabricLinksFailed := badLinks, blocksBad := badBlocks }
  let s := s.modClk fun c => { c with pll := List.replicate 8 true }
  let s := (ports.filter (· < s.portCount)).foldl (fun s p => s.modPort p fun x => { x with link := true }) s
  .next (s.modNode fun n => { n with state := .configurable }).startZeroing

/-- FRAME_INIT_DONE (R690). -/
def execFrameInitDone (s : State) : Host.Outcome State Fault Refusal :=
  match s.trust.zeroing with
  | none => .next s
  | some t =>
    if s.now < t then .next s
    else .next ((s.modTrust fun t => { t with zeroing := none }).modUp fun u => { u with frameInitDone := true })

/-- STARTUP_BOUND_TIMEOUT: 250 ms of ROOTING or 500 ms of TRAINING; the node stays where it is (R688). -/
def execStartupBoundTimeout (s : State) : Host.Outcome State Fault Refusal :=
  let bound := if s.node.state = .rooting then 250000000 else 500000000
  if s.pwr.state == .active && (s.node.state == .rooting || s.node.state == .training) && decide (s.now ≥ s.up.since + bound) then
    .next ((s.modUp fun u => { u with missedBound := true }).driveAlert)
  else .next s

/-! ## Recovery listening (R649) -/

/-- A recovery message: type, 24 reserved bits, fields, CRC. -/
def recoveryMessage (ty : Nat) (fields : List Byte) : List Byte :=
  let b := le 1 ty ++ zeros 3 ++ fields
  b ++ le 4 (crc32c b)

/-- RECOVERY_HELLO: every second. -/
def execRecoveryHello (s : State) : Host.Outcome State Fault Refusal :=
  match s.node.state, s.up.recovery with
  | .recovery, some r =>
    if (r.lastHello.map fun t => decide (s.now < t + 1000000000)).getD false then .next s else
    let s := s.modUp fun u => { u with recovery := some { r with lastHello := some s.now } }
    .next (s.sendDatagram (recoveryMessage 1 (identityDigest ++ le 2 r.reason ++ le 2 Config.romVersion.toNat)))
  | _, _ => .next s

/-- A CHUNK: offset, total and image bytes; none for a message that is no well-formed CHUNK. -/
def parseChunk (b : List Byte) : Option (Nat × Nat × List Byte) :=
  let n := fieldAt b 12 2
  if 18 ≤ b.length && fieldAt b 0 1 == 2 && zeroAt b 1 3 && 1 ≤ n && n ≤ 8192 && b.length == 18 + n &&
      fieldAt b (14 + n) 4 == crc32c (b.take (14 + n)) then
    some (fieldAt b 4 4, fieldAt b 8 4, slice b 14 n)
  else none

/-- The ACK of a CHUNK. -/
def State.ackChunk (s : State) (next : Nat) : State := s.sendDatagram (recoveryMessage 3 (le 4 next))

/-- The whole image has come: it is written to flash and the node restarts, or it is refused and the node listens on. -/
def State.endRecovery (s : State) (r : Recovery) : State :=
  if imageOk r.image then
    ((s.sendDatagram (recoveryMessage 4 (le 1 Status.ok ++ le 2 0))).modTrust fun t => { t with flashImage := some r.image }).releaseReset
  else
    (s.sendDatagram (recoveryMessage 4 (le 1 Status.denied ++ le 2 Reason.imageSignature))).modUp fun u =>
      { u with recovery := some { r with next := 0, total := 0, image := [] } }

/-- RECOVERY_CHUNK. -/
def execRecoveryChunk (message : List Byte) (s : State) : Host.Outcome State Fault Refusal :=
  match s.node.state, s.up.recovery, parseChunk message with
  | .recovery, some r, some (off, total, bs) =>
    if off ≠ r.next || off + bs.length > total then .next (s.ackChunk r.next) else
    let r := { r with next := off + bs.length, total := total, image := r.image ++ bs }
    let s := (s.modUp fun u => { u with recovery := some r }).ackChunk r.next
    if r.next < total then .next s else .next (s.endRecovery r)
  | _, _, _ => .next s

/-! ## PLLs (R679 to R682) -/

/-- The ports that a PLL feeds: SERDES_A the lower half, SERDES_B the upper (R679). -/
def State.portsOfPll (s : State) (n : Nat) : List Nat :=
  let half := s.portCount / 2
  if n = 5 then List.range half else if n = 6 then (List.range half).map (· + half) else []

/-- Work is judged again when the tiles or their means stop for a restart of 45 µs (R304, R342, R681, R682). -/
def State.foreseeRestart (s : State) : State :=
  let s := s.attn.reqs.foldl (fun (s : State) (r : Nat × Req) =>
    match s.req r.1, s.layout r.2.layout with
    | some r', some l =>
      if s.reqNow r' + 45000 + s.estimateNs r' l > r'.deadline then s.endReq r.1 (Ans.miss Reason.deadlineForeseen) else s
    | _, _ => s) s
  (List.range 16).foldl (fun s slot =>
    let d := s.drift slot
    if (d.state == .running || d.state == .holding) && decide (s.clk.ptp + 45000 > d.start (d.step + 1) - 500) then
      s.detectAbort slot Reason.driftComputeLate
    else s) s

/-- PLL_LOCK_LOST (R682, R629). An injected fault suppresses the lock indication (R634). -/
def execPllLockLost (pll : Nat) (s : State) : Host.Outcome State Fault Refusal :=
  if s.pwr.state ≠ .active || !s.pllOn pll then .next s else
  let (inj, s) := s.injected Blk.clk pll
  let s := (s.watchdogFired Blk.clk Reason.pllLockLost pll inj.isSome).bump Ctr.pllRestart
  let again := match s.clk.pllLost.getD pll none with
    | none => false
    | some t => decide (s.now < t + 1000000000)
  let s := s.modClk fun c => { c with pll := setAt c.pll pll false, pllLost := setAt c.pllLost pll (some s.now) }
  let s := (s.portsOfPll pll).foldl (fun s p => s.modPort p Port.down) s
  let s := if pll < 5 then s.foreseeRestart else s
  .next (if again then s.enterFenced else s)

/-- PLL_RELOCK (R680). -/
def execPllRelock (pll : Nat) (s : State) : Host.Outcome State Fault Refusal :=
  if s.pwr.state ≠ .active then .next s else .next (s.modClk fun c => { c with pll := setAt c.pll pll true })

/-! ## Throttling, fences and trips (R692 to R696) -/

/-- A monitor's reading, with an injected fault forcing it beyond its limit (R634, R635). -/
def State.reading (s : State) (n : Nat) (v : Int) : Int × Bool × State :=
  match s.injected Blk.pwr n with
  | (none, s) => (v, false, s)
  | (some _, s) => (forcedReading n, true, s)

/-- Takes the readings of every monitor. -/
def State.sample (s : State) (vs : List Int) : List Int × State :=
  (List.range 16).foldl (fun (acc : List Int × State) n =>
    let (v, _, s) := acc.2.reading n (vs.getD n (acc.2.pwr.mons.getD n 0))
    (acc.1 ++ [v], s)) ([], s)

/-- The throttle level after a step, and the instant of the step (R693). -/
def stepLevel (level last now : Nat) (beyond clear : Bool) : Nat × Nat :=
  if beyond then (if now ≥ last + 10000000 && level < 3 then (level + 1, now) else (level, last))
  else if clear && now ≥ last + 100000000 && level > 0 then (level - 1, now)
  else (level, last)

/-- Whether a trip, or a fence, of this millisecond is still in the queue (R696; log entry 79). -/
def State.tripAhead (s : State) : Bool := s.pending.any fun i => match i with
  | .envTrip r => overTrip r.monitor r.value
  | _ => false
def State.fenceAhead (s : State) : Bool := s.pending.any fun i => match i with
  | .envFence r => overFence r.monitor r.value r.heldMs
  | _ => false

/-- THROTTLE_STEP; where a fence limit falls in the same millisecond, the fence applies and the level stays (R696). -/
def execThrottleStep (readings : List Int) (inputW : Nat) (s : State) : Host.Outcome State Fault Refusal :=
  if s.pwr.state = .off then .next s else
  let (vs, s) := s.sample readings
  let at_ := fun (f : Nat → Int → Bool) n => f n (vs.getD n 0)
  let beyond := (List.range 16).any (at_ overThrottle) || decide (inputW > s.regs.pwrCap)
  let clear := (List.range 16).all (at_ clearOfThrottle) && decide (100 * inputW ≤ 95 * s.regs.pwrCap)
  let (level, last) := if s.fenceAhead then (s.pwr.level, s.pwr.lastStep) else if s.pwr.state = .active then stepLevel s.pwr.level s.pwr.lastStep s.now beyond clear else (0, s.pwr.lastStep)
  .next (s.modPwr fun p =>
    { p with
      mons := vs, inputW := inputW, level := level, lastStep := last
      beyond := ((List.range 16).map fun n => flagAt (at_ beyondBit n) n).sum })

/-- The tiles are gated: those that run or whose clocks stand (R694). -/
def State.gateTiles (s : State) : State :=
  s.modAttn fun a => { a with tiles := a.tiles.map fun t => if t.power = .off then t else { t with power := .gated } }

/-- ENV_FENCE (R694); a trip that falls together with it applies instead (R696). -/
def execEnvFence (reading : Reading) (s : State) : Host.Outcome State Fault Refusal :=
  let n := reading.monitor
  let legal := s.pwr.state == .active &&
    (s.node.state == .training || s.node.state == .configurable || s.node.state == .serving || s.node.state == .degraded)
  if !legal then .next s else
  let (v, inj, s) := s.reading n reading.value
  let s := s.modPwr fun p => { p with mons := setAt p.mons n v }
  if !overFence n v reading.heldMs || s.tripAhead then .next s else
  .next ((s.raise Blk.pwr Reason.envFence n inj).enterFenced.gateTiles)

/-- ENV_TRIP: the rails are cut, and the event is kept in the Rime domain (R695). -/
def execEnvTrip (reading : Reading) (s : State) : Host.Outcome State Fault Refusal :=
  let n := reading.monitor
  if s.pwr.state ≠ .active then .next s else
  let (v, inj, s) := s.reading n reading.value
  let s := s.modPwr fun p => { p with mons := setAt p.mons n v }
  if !overTrip n v then .next s else
  let e : Event :=
    { time := if s.clk.locked then s.clk.ptp else s.now, block := Blk.pwr, injected := inj, rimeTime := !s.clk.locked
      reason := if n < 9 then Reason.voltageTrip else Reason.thermalTrip, detail := if s.node.confidential then 0 else n }
  let s := s.cold .standby .fenced
  .next (State.driveAlert { s with pwr := { s.pwr with tripped := true, tripEvent := some e } })

/-! ## PTP (R343, R684, R685, R732) -/

/-- Whether a pass lies between READY and its release (R343). -/
def Drift.clocked (d : Drift) (ptp : Nat) : Bool :=
  (d.state == .ready || d.state == .running || d.state == .holding || d.state == .writing) && decide (ptp < d.release)

/-- A change of lock: its event, and PTP_UNLOCK when the lock is lost (R685). -/
def State.setLock (s : State) (locked injected : Bool) : State :=
  if s.clk.locked == locked then s else
  let s := (s.modClk fun c => { c with locked := locked }).raise Blk.ptp Reason.ptpLockChange (flagAt locked 0) injected
  if locked then s else s.bump Ctr.ptpUnlock

/-- The offset estimate that a forced reading gives (R634). -/
def forcedOffset : Int := 2 ^ 23 - 1

/-- PTP time is corrected by an offset estimate; where MOD_PPS sets the phase, by its whole seconds alone (R685; log entry
29). -/
def correctTime (pps : Bool) (ptp : Nat) (offset : Int) : Nat :=
  let d := if pps then (2 * offset + 10 ^ 9) / (2 * 10 ^ 9) * 10 ^ 9 else offset
  ((ptp : Int) - d).toNat

/-- PTP_SYNC_RECV: the offset estimate of a Sync interval. -/
def execPtpSyncRecv (port : Nat) (offset : Int) (s : State) : Host.Outcome State Fault Refusal :=
  if s.pwr.state ≠ .active || port ≥ s.portCount || !(s.port port).link then .next s else
  let (inj, s) := s.injected Blk.ptp 0
  let off := if inj.isSome then forcedOffset else offset
  let good := decide (off.natAbs ≤ 100)
  let s := s.modClk fun c =>
    { c with
      master := port, offset := off, goodSyncs := if good then c.goodSyncs + 1 else 0
      ptp := correctTime ((s.node.profile.map (·.ppsTime)).getD false) c.ptp off }
  if good then .next (if s.clk.goodSyncs ≥ 16 then s.setLock true inj.isSome else s) else
  let s := s.setLock false inj.isSome
  .next ((List.range 16).foldl (fun s slot =>
    if (s.drift slot).clocked s.clk.ptp then s.detectAbort slot Reason.driftClockLost else s) s)

/-- PPS_EDGE: less than 0.5 s after the last accepted edge it is ignored; with PPS_TIME it sets the phase (R685, R732). -/
def execPpsEdge (s : State) : Host.Outcome State Fault Refusal :=
  if (s.clk.lastPps.map fun t => decide (s.now < t + 500000000)).getD false then .next s else
  let s := s.modClk fun c => { c with lastPps := some s.now }
  if (s.node.profile.map (·.ppsTime)).getD false then
    .next (s.modClk fun c => { c with ptp := (c.ptp + 500000000) / 1000000000 * 1000000000 })
  else .next s

end Sys2Proof.Machine
end

