-- ==== Sys2Proof/Machine/Mgmt.lean ====
section
/-! DEFINITION. The management lane (R717 to R722): CMD parts, the command that they carry, and REPLY parts. -/
namespace Sys2Proof.Machine

/-! ## Messages (R717) -/

/-- A management message, its CRC and form checked. -/
structure MgmtMsg where
  ty : Nat
  xid : W32
  off : Nat
  total : Nat
  next : Nat
  data : List Byte
deriving DecidableEq, Repr

/-- Whether an offset may begin or end a part: a multiple of 16, or the end of the packet (R718). -/
def partEdge (n total : Nat) : Bool := n % 16 == 0 || n == total

/-- The message that bytes spell; none where the CRC fails or a field breaks R717. -/
def parseMgmt (b : List Byte) : Option MgmtMsg :=
  let ty := fieldAt b 0 1
  let len := fieldAt b 16 2
  let off := fieldAt b 8 4
  let total := fieldAt b 12 4
  let next := fieldAt b 18 2
  if b.length == 24 + len && len ≤ 8192 && zeroAt b 1 3 && 64 ≤ total && total ≤ 262144 &&
      fieldAt b (20 + len) 4 == crc32c (b.take (20 + len)) &&
      (if ty = 2 then len == 0 else next == 0 && off % 16 == 0 && decide (off + len ≤ total) && partEdge (off + len) total) then
    some { ty := ty, xid := BitVec.ofNat 32 (fieldAt b 4 4), off := off, total := total, next := next, data := slice b 20 len }
  else none

/-- Whether the lane is up: from CONFIGURABLE onwards, but in RECOVERY_LISTEN (R717). -/
def State.laneUp (s : State) : Bool := s.takesCommands

/-- A message that is ignored and counted (R717). -/
def State.mgmtBad (s : State) : State := s.bump Ctr.mgmtBad

/-! ## Exchanges (R718 to R721) -/

/-- The exchange of a number. -/
def State.exchange (s : State) (xid : W32) : Option Exchange := s.net.lane.find? fun e => e.xid == xid

/-- Replaces or adds an exchange. -/
def State.setExchange (s : State) (e : Exchange) : State :=
  s.modNet fun n => { n with lane := n.lane.filter (fun x => x.xid != e.xid) ++ [e] }

/-- The ACK of a CMD part (R717, R718). -/
def State.ackPart (s : State) (xid : W32) (total next : Nat) : State :=
  s.sendDatagram (mgmtMessage 2 xid.toNat 0 total (ceilDiv next 16) [])

/-- The reply that an exchange holds, with REPEAT set (R364, R721). -/
def Exchange.repeated (e : Exchange) : List Byte :=
  let h := Hdr.decode (e.reply.take 64)
  Hdr.bytes (Hdr.signed { h with flags := h.flags ||| 1 }) ++ e.reply.drop 64

/-- A held reply starts again from its first part (R721). -/
def State.restartReply (s : State) (e : Exchange) : State :=
  let e := { e with reply := e.repeated, acked := 0, sentAt := s.now, tries := 0, heldUntil := none }
  (s.setExchange e).sendReplyPart e

/-! ## The command runs (R718) -/

/-- The meaning of a command by its opcode (R394); an undefined opcode is refused where it arrives. -/
def runOpcode (c : Cmd) (s : State) : Host.Outcome State Fault Refusal :=
  match c.hdr.opcode.toNat with
  | 0x0101 => execNodeQuery c s
  | 0x0102 => execNodeProfileLoad c s
  | 0x0103 => execFabricTableLoad c s
  | 0x0104 => execNodeServe c s
  | 0x0105 => execNodeDrain c s
  | 0x0106 => execRoleSet c s
  | 0x0107 => execRegRead c s
  | 0x0108 => execRegWrite c s
  | 0x0201 => execConvOpen c s
  | 0x0202 => execConvAppend c s
  | 0x0203 => execConvSeal c s
  | 0x0204 => execConvTruncate c s
  | 0x0205 => execConvFork c s
  | 0x0206 => execConvClose c s
  | 0x0207 => execConvPin c s
  | 0x0208 => execConvStat c s
  | 0x0209 => execConvMoveOffer c s
  | 0x020A => execConvMoveAccept c s
  | 0x020B => execConvMoveCommit c s
  | 0x020C => execConvLease c s
  | 0x0301 => execAttnGraze c s
  | 0x0302 => execAttnGrazeExact c s
  | 0x0303 => execAttnDriftArm c s
  | 0x0304 => execAttnCairn c s
  | 0x0305 => execResultFetch c s
  | 0x0306 => execResultRelease c s
  | 0x0307 => execLayoutDefine c s
  | 0x0308 => execModifierLoad c s
  | 0x0401 => execRegionCreate c s
  | 0x0402 => execRegionRegister c s
  | 0x0403 => execRegionRevoke c s
  | 0x0404 => execRegionPublish c s
  | 0x0405 => execRegionAttach c s
  | 0x0406 => execRegionDetach c s
  | 0x0407 => execNearFill c s
  | 0x0408 => execNearCopy c s
  | 0x0409 => execNearCompare c s
  | 0x040A => execNearReduce c s
  | 0x040B => execPrefixLookup c s
  | 0x040C => execSpillTargetAdd c s
  | 0x0501 => execTwinBind c s
  | 0x0502 => execTwinResync c s
  | 0x0503 => execHealthRead c s
  | 0x0504 => execFence c s
  | 0x0505 => execOwnerProbe c s
  | 0x0601 => execAttest c s
  | 0x0602 => execTenantBegin c s
  | 0x0603 => execTenantEnd c s
  | 0x0604 => execFirmwareStage c s
  | 0x0605 => execFirmwareActivate c s
  | 0x0606 => execSetKeyUnwrap c s
  | 0x0701 => execDiagInject c s
  | 0x0702 => execDiagCounters c s
  | 0x0703 => execDiagTrace c s
  | code => .next (s.onArrive code c fun _ _ s => s)

/-- The packet of an exchange has come whole: its command runs. -/
def State.runExchange (s : State) (e : Exchange) : Host.Outcome State Fault Refusal :=
  runOpcode (parseCmd (.lane e.xid) e.data) (s.setExchange { e with running := true, data := [] })

/-! ## The rows -/

/-- A CMD part of an exchange whose packet is still coming (R718). -/
def State.takePart (s : State) (e : Exchange) (m : MgmtMsg) : Host.Outcome State Fault Refusal :=
  if m.off ≠ e.next || m.total ≠ e.total then .next (s.ackPart m.xid e.total e.next) else
  let e := { e with next := e.next + m.data.length, data := e.data ++ m.data }
  let s := (s.setExchange e).ackPart m.xid e.total e.next
  if e.next < e.total then .next s else s.runExchange e

/-- MGMT_CMD_PART (R718, R719, R721). -/
def execMgmtCmdPart (message : List Byte) (s : State) : Host.Outcome State Fault Refusal :=
  if !s.laneUp then .next s else
  match parseMgmt message with
  | none => .next s.mgmtBad
  | some m =>
    if m.ty ≠ 1 then .next s.mgmtBad else
    match s.exchange m.xid with
    | none =>
      if (s.net.lane.filter fun e => e.heldUntil.isNone).length ≥ 4 then .next s
      else if m.off ≠ 0 then .next (s.ackPart m.xid m.total 0)
      else s.takePart { xid := m.xid, total := m.total } m
    | some e =>
      if !e.reply.isEmpty then .next ((s.ackPart m.xid m.total e.next).restartReply e)
      else if e.running then .next (s.ackPart m.xid m.total e.next)
      else s.takePart e m

/-- An ACK of a REPLY part: the next part goes out, or the reply is acknowledged in full and held 100 ms more (R718, R720,
R721). -/
def State.replyAcked (s : State) (e : Exchange) (upTo : Nat) : State :=
  if upTo ≥ e.reply.length then s.setExchange { e with acked := e.reply.length, heldUntil := some (s.now + 100000000) }
  else if e.acked < upTo && upTo ≤ e.acked + 8192 then
    let e := { e with acked := upTo, sentAt := s.now, tries := 0 }
    (s.setExchange e).sendReplyPart e
  else s

/-- MGMT_ACK_RECV. -/
def execMgmtAckRecv (message : List Byte) (s : State) : Host.Outcome State Fault Refusal :=
  if !s.laneUp then .next s else
  match parseMgmt message with
  | none => .next s.mgmtBad
  | some m =>
    if m.ty ≠ 2 then .next s.mgmtBad else
    match s.exchange m.xid with
    | none => .next s
    | some e => if e.reply.isEmpty || e.heldUntil.isSome then .next s else .next (s.replyAcked e (16 * m.next))

/-- MGMT_PART_RETRANSMIT: 1 ms without an ACK (R720, R721). -/
def execMgmtPartRetransmit (xid : W32) (s : State) : Host.Outcome State Fault Refusal :=
  match s.exchange xid with
  | none => .next s
  | some e =>
    if e.reply.isEmpty || e.heldUntil.isSome || s.now < e.sentAt + 1000000 then .next s
    else if e.tries ≥ 7 then
      .next ((s.setExchange { e with heldUntil := some (s.now + 100000000) }).bump Ctr.mgmtReplyDrop)
    else
      let e := { e with tries := e.tries + 1, sentAt := s.now }
      .next ((s.setExchange e).sendReplyPart e)

/-- MGMT_REPLY_HOLD_EXPIRY (R721). -/
def execMgmtReplyHoldExpiry (xid : W32) (s : State) : Host.Outcome State Fault Refusal :=
  match (s.exchange xid).bind (·.heldUntil) with
  | none => .next s
  | some t => if s.now < t then .next s else .next (s.modNet fun n => { n with lane := n.lane.filter fun e => e.xid != xid })

end Sys2Proof.Machine
end

