-- ==== Sys2Proof/Machine/Dispatch.lean ====
section
/-! DEFINITION. The effect of each command on everything but the queue, one arm per row of the table. -/
namespace Sys2Proof.Machine

/-- The meaning of a command. -/
def exec (i : Instr) (s : State) : Host.Outcome State Fault Refusal :=
  match i with
  | .nodeQuery c => Sys2Proof.Machine.execNodeQuery c s
  | .nodeProfileLoad c => Sys2Proof.Machine.execNodeProfileLoad c s
  | .fabricTableLoad c => Sys2Proof.Machine.execFabricTableLoad c s
  | .nodeServe c => Sys2Proof.Machine.execNodeServe c s
  | .nodeDrain c => Sys2Proof.Machine.execNodeDrain c s
  | .roleSet c => Sys2Proof.Machine.execRoleSet c s
  | .regRead c => Sys2Proof.Machine.execRegRead c s
  | .regWrite c => Sys2Proof.Machine.execRegWrite c s
  | .blockEnable c => Sys2Proof.Machine.execBlockEnable c s
  | .blockDisable c => Sys2Proof.Machine.execBlockDisable c s
  | .blockCheckDone block => Sys2Proof.Machine.execBlockCheckDone block s
  | .convOpen c => Sys2Proof.Machine.execConvOpen c s
  | .convAppend c => Sys2Proof.Machine.execConvAppend c s
  | .windowAppend p window slot ticket payload trailer => Sys2Proof.Machine.execWindowAppend p window slot ticket payload trailer s
  | .gateRowPass cid => Sys2Proof.Machine.execGateRowPass cid s
  | .heldAppendPass cid => Sys2Proof.Machine.execHeldAppendPass cid s
  | .appendCommit cid => Sys2Proof.Machine.execAppendCommit cid s
  | .leaseExpiry cid => Sys2Proof.Machine.execLeaseExpiry cid s
  | .gapTimeout cid append => Sys2Proof.Machine.execGapTimeout cid append s
  | .twinTimeout cid append => Sys2Proof.Machine.execTwinTimeout cid append s
  | .convSeal c => Sys2Proof.Machine.execConvSeal c s
  | .convTruncate c => Sys2Proof.Machine.execConvTruncate c s
  | .convFork c => Sys2Proof.Machine.execConvFork c s
  | .convClose c => Sys2Proof.Machine.execConvClose c s
  | .convPin c => Sys2Proof.Machine.execConvPin c s
  | .convStat c => Sys2Proof.Machine.execConvStat c s
  | .convMoveOffer c => Sys2Proof.Machine.execConvMoveOffer c s
  | .convMoveAccept c => Sys2Proof.Machine.execConvMoveAccept c s
  | .convMoveCommit c => Sys2Proof.Machine.execConvMoveCommit c s
  | .moveProbeTimer cid => Sys2Proof.Machine.execMoveProbeTimer cid s
  | .ownerProbeReply cid owner committed epoch => Sys2Proof.Machine.execOwnerProbeReply cid owner committed epoch s
  | .moveDeadline cid => Sys2Proof.Machine.execMoveDeadline cid s
  | .convLease c => Sys2Proof.Machine.execConvLease c s
  | .extentMoveStart cid first last dest => Sys2Proof.Machine.execExtentMoveStart cid first last dest s
  | .extentMovePass cid => Sys2Proof.Machine.execExtentMovePass cid s
  | .extentSourceRelease cid first => Sys2Proof.Machine.execExtentSourceRelease cid first s
  | .attnGraze c => Sys2Proof.Machine.execAttnGraze c s
  | .attnGrazeExact c => Sys2Proof.Machine.execAttnGrazeExact c s
  | .attnCairn c => Sys2Proof.Machine.execAttnCairn c s
  | .grazeForward c => Sys2Proof.Machine.execGrazeForward c s
  | .continueForward c => Sys2Proof.Machine.execContinueForward c s
  | .landingRecordPlace p slot data => Sys2Proof.Machine.execLandingRecordPlace p slot data s
  | .homePartialComplete ctx => Sys2Proof.Machine.execHomePartialComplete ctx s
  | .resultRecordDone ctx => Sys2Proof.Machine.execResultRecordDone ctx s
  | .participantReply ctx participant status reason param0 => Sys2Proof.Machine.execParticipantReply ctx participant status reason param0 s
  | .grazeDeadline ctx => Sys2Proof.Machine.execGrazeDeadline ctx s
  | .participantDeadline ctx => Sys2Proof.Machine.execParticipantDeadline ctx s
  | .rowGroupAccept tile => Sys2Proof.Machine.execRowGroupAccept tile s
  | .tileDescriptor tile => Sys2Proof.Machine.execTileDescriptor tile s
  | .tileClockStop tile => Sys2Proof.Machine.execTileClockStop tile s
  | .tileGate tile => Sys2Proof.Machine.execTileGate tile s
  | .tileFail tile cause => Sys2Proof.Machine.execTileFail tile cause s
  | .spareBind logical testPassed => Sys2Proof.Machine.execSpareBind logical testPassed s
  | .spareTest tile testPassed => Sys2Proof.Machine.execSpareTest tile testPassed s
  | .attnDriftArm c => Sys2Proof.Machine.execAttnDriftArm c s
  | .driftBlockFrozen slot => Sys2Proof.Machine.execDriftBlockFrozen slot s
  | .driftPrepDone slot => Sys2Proof.Machine.execDriftPrepDone slot s
  | .driftReadyRecv p message => Sys2Proof.Machine.execDriftReadyRecv p message s
  | .driftReadyDeadline slot => Sys2Proof.Machine.execDriftReadyDeadline slot s
  | .driftBeatSend slot => Sys2Proof.Machine.execDriftBeatSend slot s
  | .driftBeatRecv p message => Sys2Proof.Machine.execDriftBeatRecv p message s
  | .driftBeatSilence slot side => Sys2Proof.Machine.execDriftBeatSilence slot side s
  | .driftStepStart slot => Sys2Proof.Machine.execDriftStepStart slot s
  | .driftBlockLand qp imm => Sys2Proof.Machine.execDriftBlockLand qp imm s
  | .driftAccumDone slot => Sys2Proof.Machine.execDriftAccumDone slot s
  | .driftWindowClose slot => Sys2Proof.Machine.execDriftWindowClose slot s
  | .driftAbortRecv p message => Sys2Proof.Machine.execDriftAbortRecv p message s
  | .driftRelease slot => Sys2Proof.Machine.execDriftRelease slot s
  | .driftResultAcked slot => Sys2Proof.Machine.execDriftResultAcked slot s
  | .driftResultDeadline slot => Sys2Proof.Machine.execDriftResultDeadline slot s
  | .driftAbortForget ring takeover => Sys2Proof.Machine.execDriftAbortForget ring takeover s
  | .resultFetch c => Sys2Proof.Machine.execResultFetch c s
  | .resultRelease c => Sys2Proof.Machine.execResultRelease c s
  | .recordKeepExpiry subscriber requestId => Sys2Proof.Machine.execRecordKeepExpiry subscriber requestId s
  | .layoutDefine c => Sys2Proof.Machine.execLayoutDefine c s
  | .modifierLoad c => Sys2Proof.Machine.execModifierLoad c s
  | .regionCreate c => Sys2Proof.Machine.execRegionCreate c s
  | .regionRegister c => Sys2Proof.Machine.execRegionRegister c s
  | .regionRevoke c => Sys2Proof.Machine.execRegionRevoke c s
  | .revokeComplete sequence => Sys2Proof.Machine.execRevokeComplete sequence s
  | .revokeDeadline sequence => Sys2Proof.Machine.execRevokeDeadline sequence s
  | .regionPublish c => Sys2Proof.Machine.execRegionPublish c s
  | .publishCopyDone publication => Sys2Proof.Machine.execPublishCopyDone publication s
  | .publishTwinned publication => Sys2Proof.Machine.execPublishTwinned publication s
  | .publishTimeout publication => Sys2Proof.Machine.execPublishTimeout publication s
  | .regionAttach c => Sys2Proof.Machine.execRegionAttach c s
  | .regionDetach c => Sys2Proof.Machine.execRegionDetach c s
  | .attachLeaseExpiry handle subscriber => Sys2Proof.Machine.execAttachLeaseExpiry handle subscriber s
  | .nearFill c => Sys2Proof.Machine.execNearFill c s
  | .nearCopy c => Sys2Proof.Machine.execNearCopy c s
  | .nearCompare c => Sys2Proof.Machine.execNearCompare c s
  | .nearReduce c => Sys2Proof.Machine.execNearReduce c s
  | .nearCommandStart sequence => Sys2Proof.Machine.execNearCommandStart sequence s
  | .nearCommandDone sequence => Sys2Proof.Machine.execNearCommandDone sequence s
  | .nearDeadlineCut sequence written => Sys2Proof.Machine.execNearDeadlineCut sequence written s
  | .prefixLookup c => Sys2Proof.Machine.execPrefixLookup c s
  | .spillTargetAdd c => Sys2Proof.Machine.execSpillTargetAdd c s
  | .hotEvict => Sys2Proof.Machine.execHotEvict s
  | .warmEvict => Sys2Proof.Machine.execWarmEvict s
  | .promoteStart page => Sys2Proof.Machine.execPromoteStart page s
  | .moveSwitchPoint page => Sys2Proof.Machine.execMoveSwitchPoint page s
  | .spillImageAck page => Sys2Proof.Machine.execSpillImageAck page s
  | .recallStart page => Sys2Proof.Machine.execRecallStart page s
  | .recallLanding p ticket image => Sys2Proof.Machine.execRecallLanding p ticket image s
  | .recallTimeout page => Sys2Proof.Machine.execRecallTimeout page s
  | .repairCopyLand page copy => Sys2Proof.Machine.execRepairCopyLand page copy s
  | .scrubPass tier frame => Sys2Proof.Machine.execScrubPass tier frame s
  | .rdmaWriteRecv m => Sys2Proof.Machine.execRdmaWriteRecv m s
  | .rdmaReadRecv m => Sys2Proof.Machine.execRdmaReadRecv m s
  | .twinWriteRecv qp psn imm offset data => Sys2Proof.Machine.execTwinWriteRecv qp psn imm offset data s
  | .rdmaAckRecv qp psn => Sys2Proof.Machine.execRdmaAckRecv qp psn s
  | .rdmaNakRecv qp psn kind => Sys2Proof.Machine.execRdmaNakRecv qp psn kind s
  | .ackTimeout qp => Sys2Proof.Machine.execAckTimeout qp s
  | .rnrNakRecv qp timerNs => Sys2Proof.Machine.execRnrNakRecv qp timerNs s
  | .rnrTimerExpiry qp => Sys2Proof.Machine.execRnrTimerExpiry qp s
  | .qpsEstablish c => Sys2Proof.Machine.execQpsEstablish c s
  | .qpsReset c => Sys2Proof.Machine.execQpsReset c s
  | .cePacketRecv qp => Sys2Proof.Machine.execCePacketRecv qp s
  | .cnpRecv qp => Sys2Proof.Machine.execCnpRecv qp s
  | .rateRecoveryPeriod qp => Sys2Proof.Machine.execRateRecoveryPeriod qp s
  | .pauseFrameRecv port priority pause => Sys2Proof.Machine.execPauseFrameRecv port priority pause s
  | .pfcStormTimer port priority => Sys2Proof.Machine.execPfcStormTimer port priority s
  | .egressFrameSelect port => Sys2Proof.Machine.execEgressFrameSelect port s
  | .gateEntryInstant port => Sys2Proof.Machine.execGateEntryInstant port s
  | .gclChange c => Sys2Proof.Machine.execGclChange c s
  | .gclChangeEffect port => Sys2Proof.Machine.execGclChangeEffect port s
  | .twinBind c => Sys2Proof.Machine.execTwinBind c s
  | .twinResync c => Sys2Proof.Machine.execTwinResync c s
  | .convPromotion cid => Sys2Proof.Machine.execConvPromotion cid s
  | .promotedPageHotMove page => Sys2Proof.Machine.execPromotedPageHotMove page s
  | .healthRead c => Sys2Proof.Machine.execHealthRead c s
  | .fence c => Sys2Proof.Machine.execFence c s
  | .ownerProbe c => Sys2Proof.Machine.execOwnerProbe c s
  | .stampSend partner => Sys2Proof.Machine.execStampSend partner s
  | .stampRecv p message => Sys2Proof.Machine.execStampRecv p message s
  | .partnerSilence partner => Sys2Proof.Machine.execPartnerSilence partner s
  | .standinOfferTimeout => Sys2Proof.Machine.execStandinOfferTimeout s
  | .resyncCopyAck page => Sys2Proof.Machine.execResyncCopyAck page s
  | .poolFail pool => Sys2Proof.Machine.execPoolFail pool s
  | .healthTick fecPerS linkRetrains => Sys2Proof.Machine.execHealthTick fecPerS linkRetrains s
  | .healthLowTimer => Sys2Proof.Machine.execHealthLowTimer s
  | .degradedRecover => Sys2Proof.Machine.execDegradedRecover s
  | .guardWindowStart => Sys2Proof.Machine.execGuardWindowStart s
  | .attest c => Sys2Proof.Machine.execAttest c s
  | .tenantBegin c => Sys2Proof.Machine.execTenantBegin c s
  | .tenantEnd c => Sys2Proof.Machine.execTenantEnd c s
  | .zeroingDone => Sys2Proof.Machine.execZeroingDone s
  | .firmwareStage c => Sys2Proof.Machine.execFirmwareStage c s
  | .firmwareActivate c => Sys2Proof.Machine.execFirmwareActivate c s
  | .firmwarePartitionDone pool => Sys2Proof.Machine.execFirmwarePartitionDone pool s
  | .drainDone => Sys2Proof.Machine.execDrainDone s
  | .setKeyUnwrap c => Sys2Proof.Machine.execSetKeyUnwrap c s
  | .diagInject c => Sys2Proof.Machine.execDiagInject c s
  | .diagCounters c => Sys2Proof.Machine.execDiagCounters c s
  | .diagTrace c => Sys2Proof.Machine.execDiagTrace c s
  | .injArm c => Sys2Proof.Machine.execInjArm c s
  | .injDisarm c => Sys2Proof.Machine.execInjDisarm c s
  | .injBlockDisarm c => Sys2Proof.Machine.execInjBlockDisarm c s
  | .injDelayExpiry slot => Sys2Proof.Machine.execInjDelayExpiry slot s
  | .chkUnitEnable c => Sys2Proof.Machine.execChkUnitEnable c s
  | .evtPop c => Sys2Proof.Machine.execEvtPop c s
  | .pwrEnRise input => Sys2Proof.Machine.execPwrEnRise input s
  | .pwrEnFall => Sys2Proof.Machine.execPwrEnFall s
  | .resetAssert lowNs => Sys2Proof.Machine.execResetAssert lowNs s
  | .resetRelease => Sys2Proof.Machine.execResetRelease s
  | .bellwetherRootingDone selfTest identity image => Sys2Proof.Machine.execBellwetherRootingDone selfTest identity image s
  | .trainingDone tiles hbm packages ports badLinks badBlocks => Sys2Proof.Machine.execTrainingDone tiles hbm packages ports badLinks badBlocks s
  | .startupBoundTimeout => Sys2Proof.Machine.execStartupBoundTimeout s
  | .frameInitDone => Sys2Proof.Machine.execFrameInitDone s
  | .recoveryHello => Sys2Proof.Machine.execRecoveryHello s
  | .recoveryChunk message => Sys2Proof.Machine.execRecoveryChunk message s
  | .pllLockLost pll => Sys2Proof.Machine.execPllLockLost pll s
  | .pllRelock pll => Sys2Proof.Machine.execPllRelock pll s
  | .throttleStep readings inputW => Sys2Proof.Machine.execThrottleStep readings inputW s
  | .envFence reading => Sys2Proof.Machine.execEnvFence reading s
  | .envTrip reading => Sys2Proof.Machine.execEnvTrip reading s
  | .ptpSyncRecv port offset => Sys2Proof.Machine.execPtpSyncRecv port offset s
  | .ppsEdge => Sys2Proof.Machine.execPpsEdge s
  | .mgmtCmdPart message => Sys2Proof.Machine.execMgmtCmdPart message s
  | .mgmtAckRecv message => Sys2Proof.Machine.execMgmtAckRecv message s
  | .mgmtPartRetransmit xid => Sys2Proof.Machine.execMgmtPartRetransmit xid s
  | .mgmtReplyHoldExpiry xid => Sys2Proof.Machine.execMgmtReplyHoldExpiry xid s
  | .tileWake tile => Sys2Proof.Machine.execTileWake tile s
  | .portLinkLoss port => Sys2Proof.Machine.execPortLinkLoss port s
  | .portLinkUp port => Sys2Proof.Machine.execPortLinkUp port s
  | .moveLegReply cid status reason => Sys2Proof.Machine.execMoveLegReply cid status reason s
  | .nearReduceReply ctx status reason => Sys2Proof.Machine.execNearReduceReply ctx status reason s
  | .repairFetch p cid layer head page frame => Sys2Proof.Machine.execRepairFetch p cid layer head page frame s

end Sys2Proof.Machine
end

