-- ==== Sys2Proof/Safety.lean ====
section
/-! DEFINITION. The terms in which claims about the node are stated: a step that answers a next state, what every state of a
run keeps, and a command that has come through the checks common to all opcodes. -/
namespace Sys2Proof.Machine

/-- An outcome is a next state, and the state satisfies a condition. -/
def Answers (o : Host.Outcome State Fault Refusal) (P : State → Prop) : Prop := ∃ t, o = .next t ∧ P t

/-- MOD_ALERT_N is low exactly while the event queue is not empty and ALERT_EN is 1, after a failed engine self-test, after a
missed start-up bound, and after a trip (R632, R644, R688, R695). -/
def State.alertOk (s : State) : Prop :=
  s.pins.alertLow = ((s.regs.alertEn && !s.events.isEmpty) || s.up.selfTestFailed || s.up.missedBound || s.pwr.tripped)

/-- The numbers of blocks, drift slots, physical tiles, logical tiles, ports and injection slots that the state holds. -/
def State.sizes (s : State) : List Nat :=
  [s.blocks.length, s.drifts.length, s.attn.tiles.length, s.attn.logicals.length, s.net.ports.length, s.regs.inj.length]

/-- What every step keeps: the memory is in its canonical form, the alert line shows its condition (R632), the event queue
holds at most 512 records (R629), every counter is a 64-bit number (R713), the units are as many as the node has (R182, R188, R319,
R446, R636, R700), and the rest of the command queue is `q`. -/
structure Sound (q : List Instr) (s : State) : Prop where
  queue : s.pending = q
  memory : Memory.wf s.tiers.mem = true
  alert : s.alertOk
  events : s.events.length ≤ 512
  counters : ∀ k v, Table.get s.counters k = some v → v < 2 ^ 64
  sizes : s.sizes = [24, 16, Config.tiles, Config.logicalTiles, 16, 16]

/-- A command came through every check common to all opcodes (R369, R397 to R402): its opcode's own checks take `d` and `ctx`
in the state `t`. `d` is the command less what a check-value unit of its QP has added (R626). -/
def State.Accepts (s : State) (code : Nat) (c d : Cmd) (ctx : CmdCtx) (t : State) : Prop :=
  s.arrive code c = (some (d, ctx), t)

/-- A conversation that this node is home to, at whose gate nothing waits or goes ahead of a command of a source, and in which a command
is legal (R47, R62, R64, R93). -/
structure State.AtGate (s : State) (cid : Nat) (x : Conv) (legal : ConvState → Bool) (src : Src) : Prop where
  entry : s.conv cid = some x
  home : x.home = s.nodeId
  row : x.row = []
  clear : s.gateClear cid (srcKey src) = true
  guard : s.guard x legal = none

/-- The front item of a gate row passes now: nothing is due at the gate, and no event of this cycle goes ahead of it (R62, R64). -/
structure State.FrontPasses (s : State) (cid : Nat) (it : RowItem) : Prop where
  commit : s.commitDue cid = false
  lease : s.leaseDue cid = false
  held : s.heldNext cid = none
  opens : s.openFirst cid = none
  ahead : ∀ k ∈ it.gates cid, s.ahead k (if it.arrival = s.now then it.key + 1 else 1) = false

/-- A region-group command finds its turn at the arbiter: no other waits there, and none of a lower QP is in the queue of its cycle
(R519). -/
structure State.ArbiterFree (s : State) (c : Cmd) (src : Src) : Prop where
  ahead : s.arbiterAhead c src = false
  waiting : s.regions.waiting = []

/-- Nothing is commanded and nothing is awaited: no reply, fetch, arbiter, gate row or record placement waits, no tenant ends, no
partition is updated, the counters are not being zeroed, no repair or resync copy waits for a frame, and no link partner is paused. -/
structure State.Idle (s : State) : Prop where
  queue : s.pending = []
  replies : s.net.waiting = []
  fetches : s.net.fetches = []
  arbiters : s.regions.waiting = []
  rows : ∀ x ∈ s.convs, x.2.row = []
  placed : ∀ x ∈ s.attn.reqs, x.2.held = []
  ending : s.trust.ending = none
  activating : s.trust.activating = []
  zeroing : s.trust.counterZeroing = false
  repairs : ∀ x ∈ s.tiers.pages, x.2.queued = some .repair → x.2.moveKind ≠ none
  resyncs : ∀ x ∈ s.convs, (s.untwinned x.1).any s.waitsGrant = false
  paused : ∀ n, (s.port n).rxPaused = []

/-- An append that passes its gate now: it is the next token of its layers, its pages have hot frames and twin frames, and no page
that it writes waits for a hot frame (R73, R163, R419, R555, R572, R742). -/
structure State.CanFreeze (s : State) (c : Conv) (a : Append) (l : Layout) : Prop where
  layout : s.layout c.layout = some l
  judged : c.judge a = .pass
  noWait : s.waitsHot c l a = false
  grow : (c.newPages l a).length = 0 ∨ s.regs.hotGrowMark < s.avail .hot
  twin : ∃ j, c.twin = some j ∧ (c.newPages l a).length ≤ ((s.partner j).map (·.grantsFree.length)).getD 0
  twinned : s.twinless c l a = false
  room : (c.newPages l a).length ≤ s.allocatable .hot

/-- No injection slot is armed. -/
def State.Quiet (s : State) : Prop := ∀ x ∈ s.regs.inj, x.busy = false

/-- A frame in which no word holds an error and whose tags and counters verify, with no fault armed: a read of it is good and changes
nothing (R174, R612, R658). -/
structure State.CleanFrame (s : State) (t : Tier) (f : Nat) : Prop where
  quiet : s.Quiet
  tags : s.frameHolds t f = true
  words : ∀ w ∈ s.tiers.flips, w.1 < frameAddr t f / 32 ∨ frameAddr t f / 32 + 2048 ≤ w.1

/-- An absorb region can be worked in place for a layer: its frames hold the layer's matrices in clean words, and thaw without a format
fault (R30, R126, R174). -/
def State.AbsorbReads (s : State) (g : Graze) (l : Layout) (layer : Nat) : Prop :=
  s.absorbAway g = [] ∧
  ∀ v, g.absorb ≠ 0 → Table.get s.regions.versions g.absorb.toNat = some v → ∀ d ∈ s.absorbDescriptors v l layer,
    s.CleanFrame d.tier d.frame ∧
    let fmt := fieldAt (s.versionBytes v 0 64) 1 1
    (thawField fmt (if fmt = 0 then d.length / 2 else d.length) (s.readFrame d.tier d.frame d.first d.length)).all (·.isSome) = true

/-- A request whose work begins at this node without waiting or ending: its versions and pages can be read in place, its rows can be
staged, its estimate keeps the deadline and its tiles are bound (R178, R193, R230, R290, R304, R538). -/
structure State.CanWork (s : State) (c : Conv) (r : Req) (l : Layout) (rows : List (List Byte)) : Prop where
  layout : s.layout r.layout = some l
  context : (s.attn.reqs.filter fun x => x.2.pool == c.pool).length < Config.contextsPerPool
  versions : ∀ h ∈ r.versions, ∀ v, Table.get s.regions.versions h.toNat = some v → v.state ≠ .poisoned
  absorb : s.AbsorbReads r.graze l r.layer
  rows : s.stageRows r.graze l r.layer = some rows
  pages : ∀ pid p, s.page pid = some p → (pid ∈ c.pages.map (·.2) ∨ s.attn.nextCtx ∈ p.users) → p.away = false
  work : s.reqNow r + s.workNs r l false ≤ r.deadline
  time : s.reqNow r + s.estimateNs r l ≤ r.deadline
  tiles : r.cairn = true ∨ ∀ n < 64, (s.logical n).live = true

/-- A message arrives in order and unharmed on a QP in RTS, with no fault armed and no change of what is paused at the link partner
(R448, R449, R453, R477, R491). -/
structure State.Receives (s : State) (m : RdmaMsg) : Prop where
  quiet : s.Quiet
  takes : s.takesCommands = true
  rts : s.rts m.qp = true
  qpn : m.qpnOne = false
  icrc : m.icrcOk = true
  supported : m.supported = true
  order : psnClass (s.qp m.qp).rqPsn m.psn = .expected
  pace : s.pace (s.portOf m.qp) = s

/-- A page with a reference, whose move ends without another one behind it: none is queued or pinned, no sealing, request or resync waits for
the page, and its target frame has not been retired (R145, R146, R150, R174, R178, R581). -/
structure State.MoveEnds (s : State) (pid : Nat) (p : Page) : Prop where
  entry : s.page pid = some p
  moving : p.state = .moving
  queued : p.queued = none
  pinned : p.pinnedBy = []
  whole : p.sealDue = none
  refs : p.refs ≠ 0
  stalls : ∀ x ∈ s.attn.reqs, pid ∉ x.2.stalls
  resync : pid ∉ s.recover.resyncLeft
  target : Table.get (s.frames p.targetTier) p.targetFrame ≠ some .retired

/-- A page as its move leaves it in the target frame (R141, R152). -/
def State.moved (s : State) (p : Page) : Page :=
  { p with tier := p.targetTier, frame := p.targetFrame, noFrame := false, state := .resident, moveKind := none, touch := s.ageTick
           awaitsHot := p.awaitsHot && p.targetTier == .warm }

/-- The memory address of byte k of a region (R515). -/
def Region.addr (r : Region) (k : Nat) : Option Nat := (r.frames[k / 65536]?).map fun f => frameAddr r.tier f + k % 65536

/-- Between two states a run of bytes has been stored in a region at an offset, and no other byte of memory has changed. -/
structure Stored (s t : State) (r : Region) (off : Nat) (bs : List Byte) : Prop where
  written : ∀ k a, k < bs.length → r.addr (off + k) = some a → Memory.byte t.tiers.mem a = bs.getD k 0
  other : ∀ a, (∀ k, k < bs.length → r.addr (off + k) ≠ some a) → Memory.byte t.tiers.mem a = Memory.byte s.tiers.mem a

/-- Whether a command may bring a pass an abort of its own: an ABORT received, a neighbour's silence or missing READY, a late step (R356). -/
def causesAbort : Instr → Bool
  | .driftAbortRecv _ _ | .driftBeatSilence _ _ | .driftReadyDeadline _ | .driftWindowClose _ => true
  | _ => false

/-- Every pass has stopped but those past their release; where another cause of abort is in the queue of the cycle, that of lower ORIGIN is
adopted in its turn (R353, R356, R357). -/
def State.PassesStopped (s : State) : Prop :=
  (∀ i ∈ s.pending, causesAbort i = false) → ∀ slot < 16, (s.drift slot).state = .idle ∨ (s.drift slot).release < s.clk.ptp

/-- The parts of the state that a frame speaks of. `mem` is the bytes of the frames, `tiers` what else is known of the frames, the counts
that protect them among it. -/
inductive Part where
  | pins | clk | pwr | up | node | trust | blocks | counters | events | regs | tiers | mem | convs | attn | drifts | aborts | readies | released
  | regions | net | recover | drawn
deriving DecidableEq, Repr

/-- A part of two states is the same; for the memory, every byte reads the same. -/
def Part.Same (s t : State) : Part → Prop
  | .pins => t.pins = s.pins
  | .clk => t.clk = s.clk
  | .pwr => t.pwr = s.pwr
  | .up => t.up = s.up
  | .node => t.node = s.node
  | .trust => t.trust = s.trust
  | .blocks => t.blocks = s.blocks
  | .counters => t.counters = s.counters
  | .events => t.events = s.events
  | .regs => t.regs = s.regs
  | .tiers => { t.tiers with mem := [] } = { s.tiers with mem := [] }
  | .mem => ∀ a, Memory.byte t.tiers.mem a = Memory.byte s.tiers.mem a
  | .convs => t.convs = s.convs
  | .attn => t.attn = s.attn
  | .drifts => t.drifts = s.drifts
  | .aborts => t.aborts = s.aborts
  | .readies => t.readies = s.readies
  | .released => t.released = s.released
  | .regions => t.regions = s.regions
  | .net => t.net = s.net
  | .recover => t.recover = s.recover
  | .drawn => t.drawn = s.drawn

/-- Two states differ in no part but those named. -/
def SameBut (ps : List Part) (s t : State) : Prop := ∀ p, p ∉ ps → p.Same s t

end Sys2Proof.Machine
end

