-- ==== Sys2Proof/Certificates/Slice0/Obligations.lean ====
section
/-! DEFINITION. The statements for the provers: the machine as a whole, then the commands family by family. -/

open Sys2Proof Sys2Proof.Machine

/-! ## The machine as a whole -/

/-- One step takes the command at the front of the queue and answers what exec says of it on the rest of the queue. -/
def Obligations.StepRunsFront : Prop :=
  ∀ (s : State) (c : Instr) (q : List Instr), s.pending = c :: q → step s = exec c { s with pending := q }

/-- With nothing in the queue and nothing awaited, a step is one cycle of Rime time of 20 ns (R683; log entry 1, the model's
choice): the Rime count rises by 1, the PTP count by 20 ns, and nothing else changes. In OFF nothing counts (R37). -/
def Obligations.IdleStepIsOneCycle : Prop :=
  ∀ s : State, s.Idle →
    step s = .next (if s.pwr.state = .off then s
      else { s with clk := { s.clk with rime := s.clk.rime + 1, ptp := s.clk.ptp + 20 } })

/-- What the registers with a stated reset value read as after reset, by address (R52, R159, R160, R187, R188, R189, R221, R293,
R361, R391, R392, R454, R503, R511, R549, R550, R594, R596, R619, R631, R697, R704, R705), and the state in which reset leaves the
node: ROOTING, every block DISABLED, the Rime count at 0, no counter, event, conversation or command (R399, R683, R710, R713). -/
def Obligations.ResetValues : Prop :=
  (∀ p ∈ ([(0x00010100, 1), (0x00010104, 0), (0x00010108, 0), (0x00020100, 0), (0x00020104, 1400), (0x00020108, 0),
      (0x00030100, 0), (0x00030108, 0), (0x0003010C, 0), (0x00040100, 0), (0x00040104, 0), (0x00040108, 65536),
      (0x0004010C, 131072), (0x00040110, 8192), (0x00040114, 0x000103E8), (0x00040118, 0xC0001818), (0x00050100, 0),
      (0x00050104, 65536), (0x00050108, 131072), (0x0005010C, 262144), (0x00050110, 65536), (0x00070100, 200 * 65536 + 500),
      (0x00070104, 64), (0x00090100, 0), (0x000A0100, 0xE4), (0x000A0104, 3000 * 65536), (0x000A0108, 20), (0x000A010C, 16384)] ++
      [(0x000B0100, 0x5555), (0x000B0104, 262144), (0x000E0120, 0), (0x000E0148, 0xFF0F4240), (0x000E014C, 1),
      (0x000E0158, 1000000), (0x000E0160, 0), (0x00100100, 1000), (0x00110100, 1000 * 65536), (0x00110104, 0),
      (0x00120100, 10000 * 65536 + 300), (0x00140100, 0), (0x00140104, 0), (0x00140118, 1), (0x00170100, 0)] : List (Nat × Nat)),
    State.reset.regValue p.1 = some p.2) ∧
  (∀ n < 16, State.reset.regValue (0x00070140 + 4 * n) = some ((4 * n + 3) * 2 ^ 24 + (4 * n + 2) * 2 ^ 16 + (4 * n + 1) * 2 ^ 8 + 4 * n)) ∧
  (∀ n < 72, State.reset.regValue (0x00070200 + 4 * n) = some 0xFF0F) ∧
  (∀ n < 16, State.reset.regValue (0x000A0180 + 4 * n) = some 0 ∧ State.reset.regValue (0x000D0100 + 4 * n) = some 0) ∧
  (∀ n < 8, State.reset.regValue (0x000E0100 + 4 * n) = some (([0, 8, 16, 24, 32, 40, 46, 48] : List Nat).getD n 0 * 2 ^ 24)) ∧
  (∀ b, 1 ≤ b → b ≤ 24 → State.reset.regValue (b * 65536 + 4) = some 0 ∧ State.reset.regValue (b * 65536 + 8) = some 0 ∧
    State.reset.regValue (b * 65536 + 12) = some 0) ∧
  State.reset.node.state = .rooting ∧ State.reset.clk.rime = 0 ∧ (∀ c, State.reset.counter c = 0) ∧ State.reset.events = [] ∧
  State.reset.convs = [] ∧ State.reset.pending = []

/-- The state after reset has what every step keeps. -/
def Obligations.ResetIsSound : Prop := Sound [] State.reset

/-- Every step keeps the canonical form of the memory, the alert line in agreement with its conditions, the bounds of the event
queue and of the counters, and takes at most the front command from the queue. -/
def Obligations.StepKeepsSound : Prop :=
  ∀ s t : State, Sound s.pending s → step s = .next t → Sound s.pending.tail t

/-- A step never answers a refusal, and it faults only on a SCRUB_PASS of a frame that its tier does not have. -/
def Obligations.StepStopsOnlyOnAbsentFrame : Prop :=
  ∀ s : State, (∃ t, step s = .next t) ∨
    (∃ tier f q, s.pending = .scrubPass tier f :: q ∧ tierFrames tier ≤ f ∧ step s = .fault .noSuchFrame)

/-- A counter rises by the amount counted, saturating at 2^64 - 1, and no other counter changes (R713).
An event is queued under its block and reason, with the PTP time where PTP is locked and the Rime time otherwise, and with DETAIL 0 in
confidential mode; where 512 records wait it is dropped and counted in EVT_LOST. Afterwards MOD_ALERT_N is low where ALERT_EN is 1. Its
place is last, but ahead of those of its own cycle that have a higher block ID or injection point (R629, R630, R632). -/
def Obligations.CountersAndEvents : Prop :=
  (∀ (s : State) (c d : CtrId) (n : Nat), s.counter c < 2 ^ 64 →
    (s.bumpBy c n).counter c = min (s.counter c + n) (2 ^ 64 - 1) ∧
    (c.key ≠ d.key → (s.bumpBy c n).counter d = s.counter d) ∧ SameBut [.counters] s (s.bumpBy c n)) ∧
  (∀ (s : State) (b r d : Nat) (inj : Bool),
    (s.events.length < 512 →
      ∃ e, (s.raise b r d inj).events = queueEvent s.events e ∧ e.cycle = s.clk.rime ∧ e.place = eventPlace b r d ∧ e.block = b ∧ e.reason = r ∧ e.injected = inj ∧
        e.detail = (if s.node.confidential then 0 else d) ∧ e.rimeTime = !s.clk.locked ∧
        e.time = (if s.clk.locked then s.clk.ptp else s.now) ∧ (s.raise b r d inj).counters = s.counters ∧
        (s.regs.alertEn = true → (s.raise b r d inj).pins.alertLow = true)) ∧
    (512 ≤ s.events.length →
      (s.raise b r d inj).events = s.events ∧ (s.raise b r d inj).counter Ctr.evtLost = min (s.counter Ctr.evtLost + 1) (2 ^ 64 - 1)) ∧
    SameBut [.pins, .events, .counters] s (s.raise b r d inj)) ∧
  (∀ (es : List Event) (e : Event),
    ((∀ x ∈ es, x.cycle = e.cycle → x.place ≤ e.place) → queueEvent es e = es ++ [e]) ∧
    (∀ p x q, es = p ++ x :: q → (∀ y ∈ p, y.cycle = e.cycle → y.place ≤ e.place) → x.cycle = e.cycle → e.place < x.place →
      queueEvent es e = p ++ e :: x :: q)) ∧
  (∀ b b' r r' d d', b < b' → eventPlace b r d < eventPlace b' r' d')

/-- What a write to a frame leaves: the bytes written read back, every byte outside them reads as before, and the canonical form
of the memory stays. -/
def Obligations.FrameReadAfterWrite : Prop :=
  ∀ (s : State) (t : Tier) (f off : Nat) (bs : List Byte), Memory.wf s.tiers.mem = true →
    (s.writeFrame t f off bs).readFrame t f off bs.length = bs ∧
    (∀ a, a < frameAddr t f + off ∨ frameAddr t f + off + bs.length ≤ a →
      Memory.byte (s.writeFrame t f off bs).tiers.mem a = Memory.byte s.tiers.mem a) ∧
    Memory.wf (s.writeFrame t f off bs).tiers.mem = true

/-! ## The command header, its checks, and the reply -/

/-- A command header is 64 bytes, and reading the bytes gives back every field of it (R363). -/
def Obligations.HeaderRoundTrip : Prop :=
  ∀ h : Hdr, h.bytes.length = 64 ∧ Hdr.decode h.bytes = h

/-- A reply slot holds the reply header in bytes 0 to 63 and the trailer in bytes 64 to 127, field by field (R373). -/
def Obligations.ReplySlotLayout : Prop :=
  ∀ (r : Reply) (slots n outstanding : Nat), 0 < slots → slots ≤ 4096 → n < 2 ^ 64 → outstanding < 2 ^ 32 →
    r.result.length < 2 ^ 32 →
    let b := r.slotBytes slots n outstanding
    b.length = 128 ∧ slice b 0 64 = r.header ∧ fieldAt b 64 8 = n ∧ fieldAt b 72 4 = r.result.length ∧
    fieldAt b 76 4 = outstanding ∧ fieldAt b 80 8 = r.resultTarget.toNat ∧ slice b 88 32 = List.replicate 32 0 ∧
    fieldAt b 120 4 = crc32c (slice b 0 120) ∧ bits (fieldAt b 124 4) 23 0 = n % slots ∧
    bits (fieldAt b 124 4) 31 24 = n / slots % 255 + 1

/-- The checks of a command's header in the order of R369: its form (R365, R417), that the opcode is defined, FORWARD, and the tenant epoch
(R371).
A wrong HDR_CRC ends a command with REFUSED_PARAM and reason HDR_CRC, counted and noted in CHECK_FAIL of CTX, and the expected QP_SEQ
advances by 1 (R369, R633). -/
def Obligations.HeaderChecks : Prop :=
  (∀ (s : State) (code : Nat) (c : Cmd),
    let h := c.hdr
    let node := match c.src with
      | .qp i => (s.qp i).kind = .node
      | .lane _ => False
    (h.version ≠ 1 ∨ h.hdrWords ≠ 16 ∨ h.rsv7 ≠ 0 ∨ h.rsv58 ≠ 0 ∨ h.status ≠ 0 ∨ h.reason ≠ 0 ∨ 8 ≤ h.flags.toNat ∨
        h.flags.toNat.testBit 0 = true → s.checkHeader code c = some (Ans.param Reason.hdrFormat)) ∧
    (h.opcode = 0x0209 → ¬ node → h.param1 ≠ 0 → s.checkHeader code c = some (Ans.param Reason.hdrFormat)) ∧
    (h.flags.toNat.testBit 2 = true → h.opcode ≠ 0x0301 → h.opcode ≠ 0x0302 → h.opcode ≠ 0x0304 →
        s.checkHeader code c = some (Ans.param Reason.hdrFormat)) ∧
    (h.formOk = true → h.noKeep = false → opSpec h.opcode.toNat = none → s.checkHeader code c = some (Ans.param Reason.opcodeUnknown)) ∧
    (∀ o, h.formOk = true → (h.noKeep = true → o.keepOk = true) → opSpec h.opcode.toNat = some o → o.hdrOk h = true → o.code = code →
      (h.opcode = 0x0209 → node ∨ h.param1 = 0) →
      (h.flags.toNat.testBit 1 = true → ¬ node → s.checkHeader code c = some (Ans.denied Reason.forwardDenied)) ∧
      (h.flags.toNat.testBit 1 = false → h.tenantEpoch.toNat ≠ s.epoch ∨ (s.trust.tenant = none ∧ o.tenantFree = false) →
        s.checkHeader code c = some (Ans.denied Reason.tenantEpoch)) ∧
      (h.flags.toNat.testBit 1 = false → h.tenantEpoch.toNat = s.epoch → s.trust.tenant ≠ none ∨ o.tenantFree = true →
        s.trust.ending = none → s.checkHeader code c = none))) ∧
  (∀ (s t : State) (code i : Nat) (c d : Cmd) (ctx : CmdCtx),
    s.intake c = (some (d, ctx), t) → d.src = .qp i → d.hdr.crcOk = false → t.Quiet →
    s.arrive code c =
      (none, (((t.bump Ctr.hdrCrcFail).checkNoted Blk.ctx).modQp i fun q => { q with expectedSeq := (q.expectedSeq + 1) % 2 ^ 32 }).finish ctx
        (Ans.param Reason.hdrCrc)))

/-- QP_SEQ (R370): with d = (QP_SEQ - expected) mod 2^32, a command with a right HDR_CRC passes at d = 0 and the expected QP_SEQ
becomes QP_SEQ + 1; at 1 <= d < 2^31 it completes with SEQ_GAP and the expected QP_SEQ becomes QP_SEQ + 1; at d >= 2^31 it
completes with SEQ_REPEAT and the expected QP_SEQ stays. Both outcomes are counted in SEQ_FAULT. -/
def Obligations.SequenceRule : Prop :=
  ∀ (s t : State) (code i : Nat) (c d : Cmd) (ctx : CmdCtx),
    s.intake c = (some (d, ctx), t) → d.src = .qp i → d.hdr.crcOk = true → t.Quiet → (t.qp i).expectedSeq < 2 ^ 32 →
    let diff := (d.hdr.qpSeq.toNat + 2 ^ 32 - (t.qp i).expectedSeq) % 2 ^ 32
    let next := t.modQp i fun q => { q with expectedSeq := (d.hdr.qpSeq.toNat + 1) % 2 ^ 32 }
    (diff = 0 → t.checkSeq d = (none, next) ∧
      ∀ a, next.checkHeader code d = some a → s.arrive code c = (none, next.finish ctx a)) ∧
    (1 ≤ diff → diff < 2 ^ 31 → s.arrive code c = (none, (next.bump Ctr.seqFault).finish ctx (Ans.param Reason.seqGap))) ∧
    (2 ^ 31 ≤ diff → s.arrive code c = (none, (t.bump Ctr.seqFault).finish ctx (Ans.param Reason.seqRepeat)))

/-- A command on a HOST QP that breaks no check of R369 goes on to its opcode's own checks: it is acknowledged, counted in OUTSTANDING
and in the command buffer, its QP_SEQ taken, and a record of it kept as in progress (R369, R373, R382, R402, R603).
A command that comes whole on the management lane under a new XID, with fewer than four exchanges in progress, and breaks no check
of R369 goes on to its opcode's own checks; its QP_SEQ must be 0 (R719). -/
def Obligations.CommandAccepted : Prop :=
  (∀ (s : State) (code i dl : Nat) (c : Cmd) (o : OpSpec),
    let n := 64 + c.payload.length
    c.src = .qp i → s.Quiet → s.takesCommands = true → s.rts i = true → (s.qp i).kind = .host → s.regs.chk = [] → c.tail = [] →
    n ≤ 4 * 2 ^ 20 → s.net.bufHost + 4 * 2 ^ 20 ≤ hostShare → (s.qp i).outstanding < (s.qp i).slots → c.hdr.crcOk = true →
    psnClass (s.qp i).rqPsn c.psn = .expected → c.hdr.qpSeq.toNat = (s.qp i).expectedSeq → s.checkHeader code c = none → opSpec code = some o →
    s.record (s.qp i).subscriber c.hdr.requestId = none →
    (s.net.records.filter fun r => r.pool == s.poolFor o.pool c.hdr && (r.state == .inProgress || r.state == .ended)).length
      < Config.recordsPerPool →
    s.checkLegal o c = .ok dl →
    ∃ ctx t, s.Accepts code c c ctx t ∧ ctx.src = c.src ∧ ctx.subscriber = (s.qp i).subscriber ∧ ctx.requestId = c.hdr.requestId ∧
      ctx.deadline = dl ∧ ctx.recorded = true ∧ ctx.answered = false ∧ (t.qp i).outstanding = (s.qp i).outstanding + 1 ∧
      (t.qp i).expectedSeq = ((s.qp i).expectedSeq + 1) % 2 ^ 32 ∧ t.net.bufHost = s.net.bufHost + n ∧
      (∃ r, t.record (s.qp i).subscriber c.hdr.requestId = some r ∧ r.state = .inProgress ∧ r.fingerprint = fingerprint c.hdr c.payload) ∧
      SameBut [.net] s t) ∧
  (∀ (s : State) (code dl : Nat) (x : W32) (c : Cmd) (o : OpSpec),
    c.src = .lane x → s.Quiet → s.takesCommands = true → (∀ e ∈ s.net.lane, e.xid ≠ x) →
    (s.net.lane.filter fun e => e.heldUntil.isNone).length < 4 → c.hdr.crcOk = true → c.hdr.qpSeq = 0 →
    s.checkHeader code c = none → opSpec code = some o → s.record laneSubscriber c.hdr.requestId = none →
    (s.net.records.filter fun r => r.pool == s.poolFor o.pool c.hdr && (r.state == .inProgress || r.state == .ended)).length
      < Config.recordsPerPool →
    s.checkLegal o c = .ok dl →
    ∃ ctx t, s.Accepts code c c ctx t ∧ ctx.src = c.src ∧ ctx.subscriber = laneSubscriber ∧ ctx.requestId = c.hdr.requestId ∧
      ctx.deadline = dl ∧ ctx.recorded = true ∧ (∃ e ∈ t.net.lane, e.xid = x ∧ e.running = true) ∧ SameBut [.net] s t)

/-- What the opcode table of R394 asks of a command before the opcode's own checks: the requester (R398), the node state (R399), the
role (R400) and the deadline (R401, R402); whether an attention request's deadline is too short is judged at its gate (R744). A refusal by the node's state or role carries in PARAM0 the state and length of the
conversation that the command names, where this node is home to one (R66, R379). -/
def Obligations.LegalityChecks : Prop :=
  ∀ (s : State) (c : Cmd) (o : OpSpec) (i : Nat), c.src = .qp i → c.hdr.flags.toNat.testBit 1 = false →
    (o.origin = .manager → ((s.node.fabric.map (·.managers)).getD []).contains (s.qp i).remoteAddr = false →
      s.checkLegal o c = .error (Ans.denied Reason.privileged)) ∧
    (o.origin = .node → (s.qp i).kind ≠ .node → s.checkLegal o c = .error (Ans.denied Reason.nodeQpOnly)) ∧
    (o.origin = .any → o.legal.holds s.node.state = false →
      s.checkLegal o c = .error (Ans.state Reason.nodeState (s.wordFor o c.hdr)) ∧
      ∀ x, o.pool = .byCid → s.conv c.hdr.cid = some x → x.home = s.nodeId → s.wordFor o c.hdr = x.state.code + 2 ^ 32 * x.length) ∧
    (o.origin = .any → o.legal.holds s.node.state = true → s.node.drains = [] → o.cacheOnly = true → s.node.role ≠ .cache →
      s.checkLegal o c = .error (Ans.state Reason.nodeRole (s.wordFor o c.hdr))) ∧
    (o.origin = .any → o.legal.holds s.node.state = true → s.node.drains = [] → (o.cacheOnly = true → s.node.role = .cache) →
      (o.defaultUs = none → s.checkLegal o c = if c.hdr.deadlineUs = 0 then .ok 0 else .error (Ans.param Reason.deadlineFixed)) ∧
      (∀ d, o.defaultUs = some d → s.checkLegal o c =
        if c.hdr.deadlineUs = 1 ∧ o.attends = false then .error (Ans.param Reason.deadlineShort)
        else if c.hdr.deadlineUs = 0 then .ok (s.now + 1000 * d) else .ok (s.now + 1000 * c.hdr.deadlineUs.toNat)))

/-- A duplicate on a HOST QP (R383): one whose original is in progress is told NOT_READY with REPEAT set; one whose original ended OK
is given the kept reply again, with REPEAT set; one with another fingerprint is refused with REQUEST_ID_REUSE. -/
def Obligations.DuplicateAnswered : Prop :=
  ∀ (s : State) (o : OpSpec) (c : Cmd) (ctx : CmdCtx) (rc : Record), s.Quiet → c.hdr.forward = false →
    s.record ctx.subscriber ctx.requestId = some rc →
    let cx := { ctx with pool := s.poolFor o.pool c.hdr }
    (rc.state = .inProgress → rc.fingerprint = fingerprint c.hdr c.payload →
      ∃ e, 1 ≤ e ∧ s.checkIdentity o c ctx =
        (none, ((s.estimateFor ctx.subscriber ctx.requestId).2.bump Ctr.replyRepeat).finish cx
          { status := Status.notReady, reason := Reason.requestInProgress, p0 := e, again := true })) ∧
    (rc.state = .ended → rc.fingerprint = fingerprint c.hdr c.payload → ∀ rp, rc.reply = some rp →
      ∃ u, s.checkIdentity o c ctx = (none, u.finish cx
        { status := rp.status, reason := rp.reason, p0 := rp.param0.toNat, p1 := rp.param1.toNat, again := true
          result := rc.kept, item := ⟨rp.resultTarget, rp.resultKey, 0⟩ }) ∧ SameBut [.net, .counters] s u ∧
        u.net.egress = s.net.egress) ∧
    (rc.state = .inProgress ∨ (rc.state = .ended ∧ rc.reply ≠ none) → rc.fingerprint ≠ fingerprint c.hdr c.payload →
      s.checkIdentity o c ctx = (none, s.finish cx (Ans.param Reason.requestIdReuse)))

/-- The end of a command changes the transport, the records and the counters only; where its result is kept, also the frames that
hold it and the choice of them. -/
def Obligations.FinishFrame : Prop :=
  ∀ (s : State) (ctx : CmdCtx) (a : Ans),
    (a.keep = false → SameBut [.net, .counters] s (s.finish ctx a)) ∧
    SameBut [.net, .counters, .tiers, .mem, .drawn] s (s.finish ctx a) ∧ (ctx.answered = true → s.finish ctx a = s)

/-- The end of a command on a HOST QP in RTS: its result, where it has one, is written to the result item's address, then the reply goes
to its ring slot under the next REPLY_SEQ; the reply copies the command's OPCODE, REQUEST_ID, TARGET_ID, LAYER and QP_SEQ; OUTSTANDING
falls by one and the command's place in the command buffer is free (R363, R373, R374, R375, R603). Where the QP has meanwhile another
connection than the one the command came on, no reply goes out, and it is counted in RESULT_DROP (R479).
The record of a command that ends OK keeps its reply, with the trailer, for KEEP_MS from now; that of a command that ends otherwise is
dropped (R382). -/
def Obligations.CommandEnd : Prop :=
  (∀ (s : State) (ctx : CmdCtx) (a : Ans) (i : Nat),
    ctx.src = .qp i → ctx.answered = false → a.keep = false → s.rts i = true → ctx.conn = (s.qp i).conn → (s.qp i).kind = .host →
    let t := s.finish ctx a
    let n := (s.qp i).replySeq
    ∃ m r, t.net.egress = s.net.egress ++ [m] ∧ m.qp = i ∧
      m.ops = (if a.result = [] then [] else [WireOp.write a.item.addr a.item.key a.result none]) ++
        [.reply r n ((s.qp i).outstanding - 1) ((s.qp i).ringAddr + BitVec.ofNat 64 (128 * (n % (s.qp i).slots))) (s.qp i).ringKey] ∧
      r.opcode = ctx.opcode ∧ r.requestId = ctx.requestId ∧ r.targetId = ctx.targetId ∧ r.layer = ctx.layer ∧ r.qpSeq = ctx.qpSeq ∧
      r.epoch = s.epoch ∧ r.status = a.status ∧ r.reason = a.reason ∧ r.param0 = BitVec.ofNat 64 a.p0 ∧
      (a.status ≠ Status.refusedState → r.param1 = BitVec.ofNat 64 a.p1) ∧ r.result = a.result ∧
      (t.qp i).replySeq = n + 1 ∧ (t.qp i).outstanding = (s.qp i).outstanding - 1 ∧ t.net.bufHost = s.net.bufHost - ctx.bufBytes) ∧
  (∀ (s : State) (ctx : CmdCtx) (a : Ans) (i : Nat),
    ctx.src = .qp i → ctx.answered = false → a.keep = false → ctx.conn ≠ (s.qp i).conn →
    (s.finish ctx a).net.egress = s.net.egress ∧
    (s.finish ctx a).counter Ctr.resultDrop = min (s.counter Ctr.resultDrop + 1) (2 ^ 64 - 1)) ∧
  (∀ (s : State) (ctx : CmdCtx) (a : Ans) (rc : Record),
    ctx.recorded = true → ctx.answered = false → a.keep = false → s.record ctx.subscriber ctx.requestId = some rc →
    (a.status = Status.ok → ∃ r, (s.finish ctx a).record ctx.subscriber ctx.requestId = some r ∧ r.state = .ended ∧
      r.fingerprint = rc.fingerprint ∧ r.keepUntil = s.now + 1000000 * s.regs.keepMs ∧
      (∀ i, ctx.src = .qp i → s.rts i = true → ctx.conn = (s.qp i).conn → (s.qp i).kind = .host →
        r.trailer.replySeq = (s.qp i).replySeq ∧ r.trailer.outstanding = (s.qp i).outstanding - 1 ∧
        r.trailer.resultBytes = a.result.length ∧ r.trailer.ticket = replyTicket (s.qp i).slots (s.qp i).replySeq) ∧
      ∃ rp, r.reply = some rp ∧ rp.status = a.status ∧ rp.reason = a.reason ∧ rp.param0 = BitVec.ofNat 64 a.p0 ∧
        rp.param1 = BitVec.ofNat 64 a.p1) ∧
    (a.status ≠ Status.ok → (s.finish ctx a).record ctx.subscriber ctx.requestId = none))

/-! ## Node commands -/

/-- The reply to NODE_QUERY carries the node state, Node ID, grade, role, flags and TABLE_VERSION in PARAM0, and the health score, the
SPARE tiles, the armed drift passes and the firmware version in PARAM1 (R405). -/
def Obligations.NodeQueryReply : Prop :=
  ∀ (s t : State) (c d : Cmd) (ctx : CmdCtx), s.Accepts 0x0101 c d ctx t → d.payload = [] →
    exec (.nodeQuery c) s = .next (t.finish ctx (Ans.ok
      (t.node.state.code + 2 ^ 8 * (t.node.profile.map (·.nodeId)).getD 0 + 2 ^ 18 * (t.node.profile.map (·.grade)).getD 0 +
        2 ^ 20 * t.node.role.code + flagAt ((t.selfEntry.map (·.mobile)).getD false) 22 + flagAt t.node.confidential 23 +
        flagAt t.node.profile.isSome 24 + flagAt t.node.fabric.isSome 25 + flagAt t.trust.tenant.isSome 26 +
        flagAt (t.node.drains.any (·.running)) 27 + 2 ^ 32 * (t.node.fabric.map (·.version)).getD 0)
      (t.recover.score + 2 ^ 16 * (t.attn.tiles.filter fun x => x.role == .spare).length +
        2 ^ 24 * (t.drifts.filter fun x => x.state != .idle).length + 2 ^ 32 * t.trust.fwVersion)))

/-- NODE_PROFILE_LOAD with no tenant in (R404, R406, R407, R154, R366, R650, R651): a profile whose envelope is well formed, signed
and meant for this device takes effect, sets HOT_RESERVE by its grade, can set confidential mode and never clears it, is stored, and
disarms every injection slot; any other envelope changes nothing and is refused under the reason of the check it fails.
FABRIC_TABLE_LOAD (R408 to R410): a well-formed table is answered with its version and digest and takes the old one's place; in a
serving node only where it leaves what R410 protects; any other table changes nothing.
NODE_SERVE (R411, R706): after its checks have passed every block that is not enabled or checking begins its checks, with ENABLE set,
and the reply waits for them; a check that fails decides the reply and nothing changes. -/
def Obligations.NodeSetup : Prop :=
  (∀ (s t : State) (c d : Cmd) (ctx : CmdCtx), s.Accepts 0x0102 c d ctx t → t.trust.tenant = none →
    ∃ v a, exec (.nodeProfileLoad c) s = .next (v.finish ctx a) ∧
      (if envelopeForm d.payload = false then a = Ans.param Reason.profileFormat ∧ v = t
      else if envelopeOk d.payload = false then a = Ans.denied Reason.profileSignature ∧ v = t
      else if slice d.payload 8 32 ≠ identityDigest then a = Ans.denied Reason.profileDevice ∧ v = t
      else
        match parseProfile d.payload with
        | some p => a = Ans.ok ∧ v.node.profile = some p ∧ v.node.confidential = (t.node.confidential || p.confidential) ∧
            v.regs.hotReserve = (if p.grade = 3 then 377487 else if p.grade = 2 then 251658 else 125829) ∧
            v.trust.flashProfile = some d.payload ∧ v.Quiet ∧ SameBut [.node, .trust, .regs] t v
        | none => a = Ans.param Reason.profileFormat ∧ v = t)) ∧
  (∀ (s t : State) (c d : Cmd) (ctx : CmdCtx), s.Accepts 0x0103 c d ctx t →
    (t.parseFabric d.payload = none → exec (.fabricTableLoad c) s = .next (t.finish ctx (Ans.param Reason.fabricFormat))) ∧
    (∀ f, t.parseFabric d.payload = some f →
      (t.node.state = .configurable ∨ (∀ old, t.node.fabric = some old → t.fabricKeeps old f = true) →
        exec (.fabricTableLoad c) s = .next ((t.finish ctx (Ans.ok f.version f.digest.toNat)).takeFabric f)) ∧
      (∀ old, t.node.state ≠ .configurable → t.node.fabric = some old → t.fabricKeeps old f = false →
        exec (.fabricTableLoad c) s = .next (t.finish ctx (Ans.state Reason.fabricChange))))) ∧
  (∀ (s t : State) (c d : Cmd) (ctx : CmdCtx), s.Accepts 0x0104 c d ctx t → d.payload = [] → t.Quiet → t.blocks.length = 24 →
    (∀ r, t.serveRefusal = some r → exec (.nodeServe c) s = .next (t.finish ctx (Ans.state r))) ∧
    (t.serveRefusal = none → (∃ n < 24, (t.blockAt (n + 1)).st = .disabled ∨ (t.blockAt (n + 1)).st = .refused) →
      ∃ u, exec (.nodeServe c) s = .next u ∧ u.node.serving = t.node.serving ++ [ctx] ∧ u.node.state = t.node.state ∧
        (∀ n < 24, if (t.blockAt (n + 1)).st = .disabled ∨ (t.blockAt (n + 1)).st = .refused then
            (u.blockAt (n + 1)).enable = true ∧ (u.blockAt (n + 1)).st = .checking ∧
              (u.blockAt (n + 1)).verdict = t.checkVerdict (n + 1)
          else u.blockAt (n + 1) = t.blockAt (n + 1)) ∧ SameBut [.blocks, .node] t u))

/-- NODE_DRAIN of a unit in range that can be drained (R412, R413): the drain is noted as running and the reply is OK; a drained pool
takes no more commands, a drained port sends no more; the RETURN of a drained unit ends the drain. DRAIN_DONE (R413): the first drain that has
come to its end ends with an event, and the drain of a node that is not FENCED leaves CONFIGURABLE. ROLE_SET at a MOBILE node (R414): the role that the node has
is answered at once; a role that it may leave is replaced by the one asked for. -/
def Obligations.DrainAndRole : Prop :=
  (∀ (s t : State) (c d : Cmd) (ctx : CmdCtx), s.Accepts 0x0105 c d ctx t → d.payload = [] →
    let scope := d.hdr.p0 % 8
    let unit := bits d.hdr.p0 15 8
    (t.drainUnits scope ≤ unit → exec (.nodeDrain c) s = .next (t.finish ctx (Ans.param Reason.drainScope))) ∧
    (unit < t.drainUnits scope → bit d.hdr.p0 3 = false → t.drainBusy scope unit = false →
      exec (.nodeDrain c) s = .next ((t.startDrain scope unit).finish ctx (Ans.ok)) ∧
      (scope = 1 ∨ scope = 3 → (t.startDrain scope unit).node.drains = t.node.drains ++ [{ scope := scope, unit := unit, running := true }] ∧
        SameBut [.node, .recover, .net] t (t.startDrain scope unit)) ∧
      (scope = 1 → unit ∈ (t.startDrain scope unit).recover.poolsDrained) ∧
      (scope = 3 → unit < t.net.ports.length → ((t.startDrain scope unit).port unit).drained = true)) ∧
    (unit < t.drainUnits scope → scope ≠ 0 → bit d.hdr.p0 3 = true → t.drainOf scope unit = some { scope := scope, unit := unit, running := false } →
      exec (.nodeDrain c) s = .next ((t.returnUnit scope unit).finish ctx (Ans.ok)) ∧
      (t.returnUnit scope unit).drainOf scope unit = none)) ∧
  (∀ (s t : State) (c d : Cmd) (ctx : CmdCtx) (e : FabricNode), s.Accepts 0x0106 c d ctx t → d.payload = [] → d.hdr.p0 ≠ 3 →
    t.selfEntry = some e →
    let role := Role.ofCode d.hdr.p0
    (e.mobile = false → exec (.roleSet c) s = .next (t.finish ctx (Ans.state Reason.roleFixed))) ∧
    (e.mobile = true → role = t.node.role → exec (.roleSet c) s = .next (t.finish ctx (Ans.ok role.code))) ∧
    (e.mobile = true → role ≠ t.node.role → t.roleHolds = false →
      exec (.roleSet c) s = .next ((t.setRole role).finish ctx (Ans.ok role.code)) ∧
      (role ≠ .cache → (t.setRole role).node.role = role ∧ SameBut [.node] t (t.setRole role)))) ∧
  (∀ s : State, (∀ x ∈ s.node.drains, x.scope ≠ 4) →
    ((∀ x ∈ s.node.drains, x.running = true → s.drainEmpty x = false) → exec .drainDone s = .next s) ∧
    (∀ d, (s.node.drains.find? fun x => x.running && s.drainEmpty x) = some d → ∃ u : State, exec .drainDone s = .next u ∧
      (d.scope = 0 → s.node.state ≠ .fenced → u.node = { s.node with state := .configurable, drains := s.node.drains.filter (· != d) }) ∧
      (d.scope ≠ 0 → u.node = { s.node with drains := s.node.drains.map fun x => if x = d then { x with running := false } else x } ∧
        SameBut [.node, .regs, .drawn, .events, .pins, .counters] s u ∧
        (s.events.length < 512 → ∃ e ∈ u.events, e.block = Blk.err))))

/-! ## Registers -/

/-- REG_READ (R415, R713): registers of one block whose reads leave nothing behind are answered in the order of their addresses, and a
place without a register reads 0; a REG_READ with COUNT 2 at the lower register of a counter returns its 64-bit value. -/
def Obligations.RegisterRead : Prop :=
  ∀ (s t : State) (c d : Cmd) (ctx : CmdCtx), s.Accepts 0x0107 c d ctx t → d.payload = [] →
    let a := d.hdr.targetId.toNat
    let n := d.hdr.p0
    let x := fun k => if k < n then (t.regValue (a + 4 * k)).getD 0 else 0
    (1 ≤ n → n ≤ 4 → (∀ k < n, (a + 4 * k) / 65536 = a / 65536 ∧ (t.regValue (a + 4 * k)).isSome = true ∧ t.afterRead (a + 4 * k) = t) →
      exec (.regRead c) s = .next (t.finish ctx (Ans.ok (x 0 + 2 ^ 32 * x 1) (x 2 + 2 ^ 32 * x 3)))) ∧
    (∀ b i, 1 ≤ b → b ≤ 24 → i < counterCount b → b ≠ Blk.inj → a = b * 65536 + 0x8000 + 8 * i → n = 2 →
      ∃ v : State, exec (.regRead c) s = .next (v.finish ctx (Ans.ok (t.counter (b, i)))) ∧ SameBut [.regs] t v)

/-- REG_WRITE (R416): an accepted write is answered with the register after it, one refused changes nothing. A write of CMD_CTL
(R391) sets KEEP_MS to DATA where MASK is set, and is refused outside 1 to 1,000. A write of HOT_GROW_MARK (R159, R161) is refused where
a relation of R161 that holds would cease to hold. EVT_POP (R631, R632): a write of 1 to EVT_POP removes the oldest event record and
drives MOD_ALERT_N by what is left. -/
def Obligations.RegisterWrite : Prop :=
  ∀ (s t : State) (c d : Cmd) (ctx : CmdCtx), s.Accepts 0x0108 c d ctx t → d.payload = [] →
    let a := d.hdr.targetId.toNat
    let v := fun old => Nat.lor (Nat.land old (2 ^ 32 - 1 - d.hdr.p1)) (Nat.land d.hdr.p0 d.hdr.p1)
    (∀ u, a % 65536 ≠ 4 → t.writeReg a d.hdr.p0 d.hdr.p1 ctx = .ok u →
      exec (.regWrite c) s = .next (u.finish ctx (Ans.ok ((u.regValue a).getD 0)))) ∧
    (∀ e, t.writeReg a d.hdr.p0 d.hdr.p1 ctx = .error e → exec (.regWrite c) s = .next (t.finish ctx e)) ∧
    (a = 0x000A0108 → (t.blockAt Blk.ctx).st ≠ .checking →
      let k := v t.regs.keepMs % 65536
      exec (.regWrite c) s = .next (if 1 ≤ k ∧ k ≤ 1000 then (t.modRegs fun r => { r with keepMs := k }).finish ctx (Ans.ok k)
        else t.finish ctx (Ans.param Reason.cmdParam))) ∧
    (a = 0x00040110 → (t.blockAt Blk.hot).st ≠ .checking →
      let k := v t.regs.hotGrowMark % 2 ^ 24
      exec (.regWrite c) s = .next (if t.regs.hotGrowMark < t.regs.hotEvictStart ∧ t.regs.hotEvictStart ≤ k then
          t.finish ctx (Ans.param Reason.tierParam)
        else (t.modRegs fun r => { r with hotGrowMark := k }).finish ctx (Ans.ok k))) ∧
    (a = 0x00140114 → (t.blockAt Blk.err).st ≠ .checking → bit d.hdr.p0 0 = true → bit d.hdr.p1 0 = true →
      exec (.evtPop c) s = .next (t.popEvent.finish ctx (Ans.ok 0)) ∧ t.popEvent.events = t.events.drop 1 ∧
      (t.up.selfTestFailed = false → t.up.missedBound = false → t.pwr.tripped = false →
        t.popEvent.pins.alertLow = (t.regs.alertEn && decide (2 ≤ t.events.length))) ∧ SameBut [.events, .pins] t t.popEvent)

/-- BLOCK_ENABLE (R706, R707): a write of ENABLE 1 to a block that is DISABLED or REFUSED sets it CHECKING at once, and its reply waits
for the end of the checks; at a block that is ENABLED the write changes nothing.
BLOCK_CHECK_DONE (R707, R411): a block whose checks all passed is ENABLED with CHECK_REASON 0; one of which a check failed is REFUSED
with that check's reason and its ENABLE cleared. With the end of the last block's checks a waiting NODE_SERVE is answered: OK and SERVING
where every block is ENABLED, the reason of the refused block otherwise. -/
def Obligations.BlockEnable : Prop :=
  (∀ (s t : State) (c d : Cmd) (ctx : CmdCtx) (b : Nat), s.Accepts 0x0108 c d ctx t → d.payload = [] → 1 ≤ b → b ≤ 24 →
    (b ≠ Blk.inj ∨ t.node.confidential = false) → t.blocks.length = 24 → t.Quiet → d.hdr.targetId.toNat = b * 65536 + 4 →
    d.hdr.p0 < 2 ^ 32 → bit d.hdr.p0 0 = true → bit d.hdr.p1 0 = true →
    ((t.blockAt b).st = .disabled ∨ (t.blockAt b).st = .refused →
      exec (.blockEnable c) s = .next (t.modBlock b fun x =>
        { x with enable := true, st := .checking, reason := 0, verdict := t.checkVerdict b, waiter := some ctx })) ∧
    ((t.blockAt b).st = .enabled → (t.blockAt b).enable = true → (t.blockAt b).waiter = none →
      exec (.blockEnable c) s = .next (t.finish ctx (Ans.ok 1)))) ∧
  (∀ (s : State) (b : Nat), 1 ≤ b → b ≤ 24 → s.blocks.length = 24 → (s.blockAt b).st = .checking → (s.blockAt b).waiter = none →
    (s.node.serving = [] → ∃ u, exec (.blockCheckDone b) s = .next u ∧ SameBut [.blocks] s u ∧
      (∀ n, n ≠ b → 1 ≤ n → u.blockAt n = s.blockAt n) ∧
      u.blockAt b = (if (s.blockAt b).verdict = 0 then { s.blockAt b with st := .enabled, reason := 0 }
        else { s.blockAt b with st := .refused, reason := (s.blockAt b).verdict, enable := false })) ∧
    (∀ ctx, s.node.serving = [ctx] → (∀ n, 1 ≤ n → n ≤ 24 → n ≠ b → (s.blockAt n).st = .enabled) →
      ((s.blockAt b).verdict = 0 → ∃ v : State, exec (.blockCheckDone b) s = .next (v.finish ctx (Ans.ok)) ∧ v.node.state = .serving ∧
        v.node.serving = [] ∧ SameBut [.blocks, .node, .recover] s v) ∧
      ((s.blockAt b).verdict ≠ 0 → ∃ v : State, exec (.blockCheckDone b) s = .next (v.finish ctx (Ans.state (s.blockAt b).verdict)) ∧
        v.node.state = s.node.state ∧ v.node.serving = [])))

/-- BLOCK_DISABLE (R709): a write of ENABLE 0 returns the block to DISABLED with CHECK_REASON 0 while the node is CONFIGURABLE or FENCED;
while it is SERVING or DEGRADED_SERVE the write changes nothing and completes with REFUSED_STATE and reason BLOCK_IN_USE. -/
def Obligations.BlockDisable : Prop :=
  ∀ (s t : State) (c d : Cmd) (ctx : CmdCtx) (b : Nat), s.Accepts 0x0108 c d ctx t → d.payload = [] → 1 ≤ b → b ≤ 24 →
    (b ≠ Blk.inj ∨ t.node.confidential = false) → t.blocks.length = 24 → (t.blockAt b).st ≠ .checking → (t.blockAt b).waiter = none →
    d.hdr.targetId.toNat = b * 65536 + 4 → bit d.hdr.p0 0 = false → bit d.hdr.p1 0 = true →
    (t.node.state = .configurable ∨ t.node.state = .fenced →
      exec (.blockDisable c) s = .next ((t.modBlock b fun x => { x with enable := false, st := .disabled, reason := 0 }).finish ctx
        (Ans.ok 0))) ∧
    (t.node.state = .serving ∨ t.node.state = .degraded →
      exec (.blockDisable c) s = .next (t.finish ctx (Ans.state Reason.blockInUse)))

/-- INJ_ARM (R636, R637): ARM at a slot whose target and kind R635 allows arms it, to fire from its delay on; a target that is no point,
and a kind or count that the point does not allow, are refused. INJ_DISARM frees the slot. INJ_BLOCK_DISARM (R638) disarms every slot that
targets the block and no other. INJ_DELAY_EXPIRY (R636): an armed slot whose delay has run out fires at the next occurrence. -/
def Obligations.Injection : Prop :=
  (∀ (s t : State) (c d : Cmd) (ctx : CmdCtx) (n : Nat) (x : InjSlot), s.Accepts 0x0108 c d ctx t → d.payload = [] → n < 16 →
    t.node.confidential = false → (t.blockAt Blk.inj).st ≠ .checking → t.regs.inj[n]? = some x →
    d.hdr.targetId.toNat = 0x00150100 + 0x10 * n + 0xC →
    (Nat.land d.hdr.p0 d.hdr.p1 % 4 = 1 →
      (∀ a, injRefusal x.block x.point x.kind x.count = some a → exec (.injArm c) s = .next (t.finish ctx a)) ∧
      (injRefusal x.block x.point x.kind x.count = none → ∃ v : State, exec (.injArm c) s = .next (v.finish ctx (Ans.ok 0)) ∧
        SameBut [.regs] t v ∧ v.regs.inj[n]? = some { x with busy := true, done := 0, live := false, due := t.now + 1000 * x.delay.toNat } ∧
        ∀ m, m ≠ n → v.regs.inj[m]? = t.regs.inj[m]?)) ∧
    (Nat.land d.hdr.p0 d.hdr.p1 % 4 = 2 → ∃ v : State, exec (.injDisarm c) s = .next (v.finish ctx (Ans.ok 0)) ∧
      SameBut [.regs] t v ∧ v.regs.inj[n]? = some { x with busy := false, live := false } ∧
      ∀ m, m ≠ n → v.regs.inj[m]? = t.regs.inj[m]?)) ∧
  (∀ (s t : State) (c d : Cmd) (ctx : CmdCtx) (b : Nat), s.Accepts 0x0108 c d ctx t → d.payload = [] → 1 ≤ b → b ≤ 24 →
    (b ≠ Blk.inj ∨ t.node.confidential = false) → (t.blockAt b).st ≠ .checking → d.hdr.targetId.toNat = b * 65536 + 0x20 →
    bit d.hdr.p0 0 = true → bit d.hdr.p1 0 = true →
    ∃ v a, exec (.injBlockDisarm c) s = .next (v.finish ctx (Ans.ok a)) ∧ SameBut [.regs] t v ∧
      ∀ (n : Nat) (x : InjSlot), t.regs.inj[n]? = some x →
        v.regs.inj[n]? = some (if x.block = b then { x with busy := false, live := false } else x)) ∧
  (∀ (s : State) (n : Nat) (x : InjSlot), s.regs.inj[n]? = some x → x.busy = true → x.due ≤ s.now →
    ∃ u, exec (.injDelayExpiry n) s = .next u ∧ SameBut [.regs] s u ∧ u.regs.inj[n]? = some { x with live := true })

/-- CHK_UNIT_ENABLE (R623, R624): a write that sets UNIT_EN of a user unit whose fields keep R624 enables it; one that breaks R624 is
refused, and so is a write of UNIT_EN to a unit of the firmware. QPS_ESTABLISH (R457, R372, R490): a staged QP in RESET whose fields keep
R457 enters RTS with its staged fields, fresh counts and the line rate. QPS_RESET (R458): the staged QP is in RESET afterwards, and keeps
its ERR_REASON. GCL_CHANGE (R507, R511): a well-formed administrative list becomes pending until its base time or the next start of a cycle.
GCL_CHANGE_EFFECT (R507): at that time it becomes the operative list. -/
def Obligations.UnitsAndQueuePairs : Prop :=
  (∀ (s t : State) (c d : Cmd) (ctx : CmdCtx) (n : Nat), s.Accepts 0x0108 c d ctx t → d.payload = [] → n < 64 →
    (t.blockAt Blk.chk).st ≠ .checking → d.hdr.targetId.toNat = 0x00130100 + 0x20 * n → d.hdr.p1 = 2 ^ 32 - 1 → d.hdr.p0 < 2 ^ 32 →
    bit d.hdr.p0 31 = true →
    let u := Table.getD t.regs.chk n {}
    let w : ChkUnit := { u with cfg := BitVec.ofNat 32 d.hdr.p0 &&& 0xFE7F3FFF }
    (n < 24 → exec (.chkUnitEnable c) s = .next (t.finish ctx (Ans.state Reason.chkUnitBusy))) ∧
    (24 ≤ n → u.en = false → t.unitOk n w = false → exec (.chkUnitEnable c) s = .next (t.finish ctx (Ans.param Reason.chkParam))) ∧
    (24 ≤ n → u.en = false → t.unitOk n w = true → exec (.chkUnitEnable c) s =
      .next ((t.modRegs fun r => { r with chk := Table.set r.chk n w }).finish ctx (Ans.ok w.cfg.toNat)))) ∧
  (∀ (s t : State) (c d : Cmd) (ctx : CmdCtx), s.Accepts 0x0108 c d ctx t → d.payload = [] → (t.blockAt Blk.rdma).st ≠ .checking →
    d.hdr.targetId.toNat = 0x000D013C →
    let i := t.regs.stage.index
    (Nat.land d.hdr.p0 d.hdr.p1 % 4 = 1 → (t.qp i).state = .reset → t.stageBad = false →
      ∃ v : State, exec (.qpsEstablish c) s = .next (v.finish ctx (Ans.ok 0)) ∧ SameBut [.net, .regs] t v ∧ (v.qp i).state = .rts ∧
        (v.qp i).kind = t.regs.stage.qp.kind ∧ (v.qp i).remoteQpn = t.regs.stage.remoteQpn ∧ (v.qp i).sqPsn = t.regs.stage.sqPsn ∧
        (v.qp i).rqPsn = t.regs.stage.rqPsn ∧ (v.qp i).ringKey = t.regs.stage.ringKey ∧ (v.qp i).expectedSeq = 0 ∧
        (v.qp i).replySeq = 0 ∧ (v.qp i).outstanding = (t.qp i).outstanding ∧ (v.qp i).rc = t.lineRate ∧ (v.qp i).alpha = 1024 ∧
        ∀ j, j ≠ i → v.qp j = t.qp j) ∧
    (Nat.land d.hdr.p0 d.hdr.p1 % 4 = 1 → (t.qp i).state ≠ .reset →
      exec (.qpsEstablish c) s = .next (t.finish ctx (Ans.state Reason.qpState))) ∧
    (Nat.land d.hdr.p0 d.hdr.p1 % 4 = 2 →
      ∃ v : State, exec (.qpsReset c) s = .next (v.finish ctx (Ans.ok 0)) ∧ (v.qp i).state = .reset ∧
        (v.qp i).unacked = [] ∧ (v.qp i).sqPsn = 0 ∧ ((t.qp i).state ≠ .rts → (v.qp i).errorReason = (t.qp i).errorReason ∧ SameBut [.net] t v))) ∧
  (∀ (s t : State) (c d : Cmd) (ctx : CmdCtx), s.Accepts 0x0108 c d ctx t → d.payload = [] → (t.blockAt Blk.sched).st ≠ .checking →
    d.hdr.targetId.toNat = 0x000E015C → Nat.land d.hdr.p0 d.hdr.p1 % 2 = 1 → t.regs.gclPort < t.net.ports.length →
    let p := t.port t.regs.gclPort
    (p.adminOk = false → exec (.gclChange c) s = .next (t.finish ctx (Ans.param Reason.schedParam))) ∧
    (p.adminOk = true → ∃ v : State, exec (.gclChange c) s = .next (v.finish ctx (Ans.ok 0)) ∧ SameBut [.net] t v ∧
      ∃ w, (v.port t.regs.gclPort).pendingList = some ({ entries := p.admin.take p.adminLen, base := p.adminBase, cycle := p.adminCycle }, w) ∧
        (t.clk.ptp < p.adminBase → w = p.adminBase) ∧
        (p.adminBase ≤ t.clk.ptp → t.clk.ptp ≤ w ∧ w < t.clk.ptp + p.adminCycle ∧ (w - p.adminBase) % p.adminCycle = 0))) ∧
  (∀ (s : State) (i w : Nat) (g : GateList), i < s.net.ports.length → (s.port i).pendingList = some (g, w) → w ≤ s.clk.ptp →
    ∃ u, exec (.gclChangeEffect i) s = .next u ∧ (u.port i).oper = g ∧ (u.port i).pendingList = none ∧ SameBut [.net, .counters] s u ∧
      ∀ j, j ≠ i → u.port j = s.port j)

/-! ## Conversations -/

/-- CONV_OPEN of a CID that no conversation has, with a right open block and room for it (R49, R80, R418, R745): the conversation is OPEN,
homed here, empty in every layer of its layout, and its source holds the tail lease for 5 ms. An existing conversation is refused and
keeps its entry. CONV_SEAL by the lease holder (R86): the conversation is SEALED without a lease, its uncommitted appends discarded and its
committed lengths as they were. CONV_CLOSE (R90): the entry is released.
The reply to a command that has changed what a conversation's twin record holds (R558): at once where the conversation has no twin;
otherwise it waits for the acknowledgement of the twin record, which is posted to the twin in class 4 where the link to it is up. -/
def Obligations.OpenSealClose : Prop :=
  ((∀ (s t : State) (c d : Cmd) (ctx : CmdCtx), s.Accepts 0x0201 c d ctx t →
    let cid := d.hdr.cid
    (∀ l, t.conv cid = none → t.ahead cid (srcKey ctx.src + 1) = false → t.openFirst cid = none → t.openRefusal d.payload = none → t.layout (fieldAt d.payload 0 1) = some l →
      t.tableUse (t.mappedPool (cidHash cid)) < Config.tablePerPool → t.regs.warmAdmitMark ≤ t.avail .warm →
      ∃ (v : State) (x : Conv), exec (.convOpen c) s = .next (v.finishTwinned cid x ctx (Ans.ok)) ∧ v.conv cid = some x ∧ x.state = .opened ∧
        x.home = t.nodeId ∧ x.pool = t.mappedPool (cidHash cid) ∧ x.layout = fieldAt d.payload 0 1 ∧
        x.committed = List.replicate l.layers 0 ∧ x.lease = some (srcKey ctx.src) ∧ x.leaseExpiry = t.now + 5000000 ∧
        (∀ k, k ≠ cid → v.conv k = t.conv k) ∧ SameBut [.convs, .recover] t v) ∧
    (∀ x, t.conv cid = some x → x.home = t.nodeId → x.row = [] → t.gateClear cid (srcKey ctx.src) = true → t.barred x = none →
      t.openRefusal d.payload = none → exec (.convOpen c) s = .next (t.finish ctx (Ans.state Reason.convState (x.state.code + 2 ^ 32 * x.length))))) ∧
  (∀ (s t : State) (c d : Cmd) (ctx : CmdCtx) (x : Conv), s.Accepts 0x0203 c d ctx t → d.payload = [] →
    t.AtGate d.hdr.cid x onlyOpen ctx.src → x.lease = some (srcKey ctx.src) →
    ∃ (v : State) (y : Conv), exec (.convSeal c) s = .next (v.finishTwinned d.hdr.cid y ctx (Ans.ok (2 ^ 32 * y.length))) ∧ v.conv d.hdr.cid = some y ∧
      y.state = .sealed ∧ y.lease = none ∧ y.passed = [] ∧ y.held = [] ∧ y.committed = x.committed) ∧
  (∀ (s t : State) (c d : Cmd) (ctx : CmdCtx) (x : Conv), s.Accepts 0x0206 c d ctx t → d.payload = [] →
    t.AtGate d.hdr.cid x (fun st => st == .opened || st == .sealed || st == .lost) ctx.src →
    ∃ (v : State) (y : Conv), exec (.convClose c) s = .next (v.finishTwinned d.hdr.cid y ctx (Ans.ok)) ∧ v.conv d.hdr.cid = none ∧ y.state = .free ∧
      y.length = 0)) ∧
  (∀ (s : State) (cid : Nat) (x : Conv) (ctx : CmdCtx) (a : Ans),
    (x.twin = none → s.finishTwinned cid x ctx a = s.finish ctx a) ∧
    (∀ j, x.twin = some j → (∀ p, s.partner j = some p → ∀ f ∈ p.freed, f.2 = true) →
      let t := s.finishTwinned cid x ctx a
      (∃ w, Table.get t.net.waiting s.net.nextWait = some w ∧ w.ctx = ctx ∧ w.status = a.status ∧ w.reason = a.reason ∧
        w.result = a.result ∧ w.cid = cid) ∧ t.net.records = s.net.records ∧ SameBut [.net] s t ∧
      (s.linkUp j = true → ∃ m, t.net.egress = s.net.egress ++ [m] ∧ m.qp = s.nodeQp j ∧ m.cls = 4 ∧
        m.tag = .twinRecord s.net.nextWait ∧
        m.ops = [.write (BitVec.ofNat 64 cid) 0 (s.twinRecordBytes x) (some (twinImm 3 0))])))

/-- CONV_TRUNCATE to N by the lease holder (R89): no layer is longer than N afterwards and no layer changes that was not longer; N equal
to the longest layer changes nothing, N above it is refused. CONV_FORK at F (R87, R88): the child is OPEN at length F in every layer, its
lease with the source, and the parent stays as it was. -/
def Obligations.TruncateAndFork : Prop :=
  (∀ (s t : State) (c d : Cmd) (ctx : CmdCtx) (x : Conv) (l : Layout), s.Accepts 0x0204 c d ctx t → d.payload = [] →
    t.AtGate d.hdr.cid x onlyOpen ctx.src → x.lease = some (srcKey ctx.src) → t.layout x.layout = some l →
    let n := d.hdr.p0
    let longest := x.committed.foldl max 0
    (longest < n → exec (.convTruncate c) s = .next (t.finish ctx (Ans.param Reason.truncateLength))) ∧
    (n = longest → exec (.convTruncate c) s = .next (t.finish ctx (Ans.ok (2 ^ 32 * x.length)))) ∧
    (n < longest →
      let cut := x.cutPages l n fun ly => x.committed.getD ly 0
      let away := x.cutAway l n fun ly => x.committed.getD ly 0
      t.blocked (cut.map (·.2)) ctx = (none, t) → t.roomFor x.twin (cut.length + away.length) = none →
      ∃ (v : State) (y : Conv), exec (.convTruncate c) s =
          .next ((v.finishTwinned d.hdr.cid y ctx (Ans.ok (2 ^ 32 * y.length))).twinShared d.hdr.cid) ∧
        v.conv d.hdr.cid = some y ∧ y.committed = x.committed.map (min n) ∧ y.state = .opened)) ∧
  (∀ (s t : State) (c d : Cmd) (ctx : CmdCtx) (x : Conv) (l : Layout), s.Accepts 0x0205 c d ctx t → d.payload = [] →
    t.AtGate d.hdr.cid x openOrSealed ctx.src → t.layout x.layout = some l →
    let child := d.hdr.p0
    let f := d.hdr.p1
    t.ahead child (srcKey ctx.src + 1) = false →
    let cut := if f % l.tokens = 0 then [] else x.pages.filter fun p => p.1.index == f / l.tokens
    (x.length < f → exec (.convFork c) s = .next (t.finish ctx (Ans.param Reason.forkLength))) ∧
    (f ≤ x.length → t.conv child = none → t.tableUse (t.mappedPool (cidHash child)) < Config.tablePerPool →
      t.regs.warmAdmitMark ≤ t.avail .warm → t.blocked (cut.map (·.2)) ctx = (none, t) →
      t.roomFor x.twin (cut.length + (x.cutAway l f fun _ => f + 1).length) = none →
      ∃ (v : State) (y : Conv), exec (.convFork c) s = .next (v.finishTwinned child y ctx (Ans.ok)) ∧ v.conv child = some y ∧ y.state = .opened ∧
        y.committed = List.replicate l.layers f ∧ y.lease = some (srcKey ctx.src) ∧ y.attached = x.attached ∧
        v.conv d.hdr.cid = some x))

/-- CONV_STAT (R66, R422): the state and committed length, the lease holder, the number of extents and the epoch, and nothing changes.
CONV_LEASE RENEW by the holder (R81): the lease runs 5 ms from now. CONV_LEASE TAKE (R82): the source holds the lease from now on, the
appends of another holder that have not been committed are discarded, and the committed lengths are written. CONV_PIN of a range in the
layout (R146, R421): the pages it covers are pinned, or with UNPIN no longer pinned, by the conversation, and the answer is their number
with that of the pages it covers at outlying nodes. -/
def Obligations.StatLeasePin : Prop :=
  (∀ (s t : State) (c d : Cmd) (ctx : CmdCtx) (x : Conv), s.Accepts 0x0208 c d ctx t → t.AtGate d.hdr.cid x (fun st => st != .free) ctx.src →
    let p0 := x.state.code + 2 ^ 32 * x.length
    let p1 := (match x.lease with
      | some q => q + 2
      | none => 0xFFFFFF) + 2 ^ 24 * x.extents.length + 2 ^ 32 * x.epoch
    (d.payload = [] → exec (.convStat c) s = .next (t.finish ctx (Ans.ok p0 p1))) ∧
    (d.payload.length = 16 → itemFits ctx.src (resultItemAt d.payload 0) (4 * x.committed.length) = true →
      exec (.convStat c) s = .next (t.finish ctx
        { Ans.ok p0 p1 with result := (x.committed.map (le 4)).flatten, item := resultItemAt d.payload 0 }))) ∧
  (∀ (s t : State) (c d : Cmd) (ctx : CmdCtx) (x : Conv), s.Accepts 0x020C c d ctx t → t.AtGate d.hdr.cid x onlyOpen ctx.src →
    (d.hdr.param0 = 0 → d.payload = [] → x.lease = some (srcKey ctx.src) →
      exec (.convLease c) s = .next ((t.modConv d.hdr.cid fun x => { x with leaseExpiry := t.now + 5000000 }).finish ctx
        (Ans.ok (2 ^ 32 * x.length)))) ∧
    (d.hdr.param0 = 1 → d.payload.length = 16 → itemFits ctx.src (resultItemAt d.payload 0) (4 * x.committed.length) = true →
      ∃ (v : State) (y : Conv), exec (.convLease c) s = .next (v.finish ctx { Ans.ok (2 ^ 32 * x.length) with
          result := (x.committed.map (le 4)).flatten, item := resultItemAt d.payload 0 }) ∧
        v.conv d.hdr.cid = some y ∧ y.lease = some (srcKey ctx.src) ∧ y.leaseExpiry = t.now + 5000000 ∧ y.committed = x.committed ∧
        (x.lease ≠ some (srcKey ctx.src) → y.passed = [] ∧ y.held = []))) ∧
  (∀ (s t : State) (c d : Cmd) (ctx : CmdCtx) (x : Conv) (l : Layout) (ls : List Nat), s.Accepts 0x0207 c d ctx t → d.payload = [] →
    t.AtGate d.hdr.cid x openOrSealed ctx.src → t.layout x.layout = some l → pinLayers l.layers d.hdr.p1 = some ls →
    bits d.hdr.p0 31 0 < (ls.map fun ly => x.committed.getD ly 0).foldl max 0 →
    let pages := x.pinPages l ls (bits d.hdr.p0 31 0) (bits d.hdr.p0 63 32)
    let n := pages.length + x.pinnedAway l ls (bits d.hdr.p0 31 0) (bits d.hdr.p0 63 32)
    (x.extents = [] → n = pages.length) ∧
    (bit d.hdr.p1 32 = true → ∃ v : State, exec (.convPin c) s = .next (v.finish ctx (Ans.ok n)) ∧ SameBut [.tiers] t v ∧
      ∀ pid ∈ pages, ∀ p, v.page pid = some p → d.hdr.cid ∉ p.pinnedBy) ∧
    (bit d.hdr.p1 32 = false →
      (t.tiers.pages.filter fun p => !p.2.pinnedBy.isEmpty).length +
        (pages.filter fun pid => ((t.page pid).map (·.pinnedBy.isEmpty)).getD false).length ≤ Config.pinLimit →
      ∃ v : State, exec (.convPin c) s = .next (v.finish ctx (Ans.ok n)) ∧
        ∀ pid ∈ pages, ∀ p, v.page pid = some p → d.hdr.cid ∈ p.pinnedBy))

/-- The gate (R61 to R64): a command to a conversation at whose row others wait takes its place in it, behind all that came before and
behind those of its own cycle that are of no higher QP number, and the 257th is refused with a hint of 10 µs. What is due at the gate goes
ahead of it: commits, then the lease's expiry, then held appends whose gaps are filled; with none due the gate is as it was. GATE_ROW_PASS:
the front command of the row is judged as at its arrival at an empty row. -/
def Obligations.GateRow : Prop :=
  (∀ (s t : State) (c d : Cmd) (ctx : CmdCtx) (x : Conv), s.Accepts 0x0203 c d ctx t → d.payload = [] → t.conv d.hdr.cid = some x →
    x.home = t.nodeId → x.row ≠ [] → t.commitDue d.hdr.cid = false → t.leaseDue d.hdr.cid = false → t.heldNext d.hdr.cid = none →
    exec (.convSeal c) s = .next (if x.row.length < 256 then t.modConv d.hdr.cid fun y => { y with row := rowInsert y.row (.cmd d ctx) }
      else t.finish ctx (Ans.throttled Reason.gateQueueFull 10))) ∧
  (∀ (row : List RowItem) (it : RowItem),
    ((∀ y ∈ row, y.arrival = it.arrival → y.key ≤ it.key) → rowInsert row it = row ++ [it]) ∧
    (∀ y rest, row = y :: rest → y.arrival = it.arrival → it.key < y.key → rowInsert row it = it :: row)) ∧
  (∀ (s : State) (cid : Nat), s.commitDue cid = false → s.leaseDue cid = false → s.heldNext cid = none → s.gateFirst cid = s) ∧
  (∀ (s t : State) (cid : Nat) (x : Conv) (c : Cmd) (ctx : CmdCtx) (rest : List RowItem), s.conv cid = some x →
    x.row = .cmd c ctx :: rest → x.home = s.nodeId → s.FrontPasses cid (.cmd c ctx) → t = s.modConv cid (fun y => { y with row := rest }) →
    (c.hdr.opcode = 0x0208 → c.payload = [] → s.guard x (fun st => st != .free) = none → exec (.gateRowPass cid) s =
      .next (t.finish ctx (Ans.ok (x.state.code + 2 ^ 32 * x.length) ({ x with row := rest } : Conv).statWord))) ∧
    (c.hdr.opcode = 0x0203 → s.guard x onlyOpen = none → x.lease = some (srcKey ctx.src) →
      ∃ (v : State) (y : Conv), exec (.gateRowPass cid) s = .next (v.finishTwinned cid y ctx (Ans.ok (2 ^ 32 * y.length))) ∧ v.conv cid = some y ∧
        y.state = .sealed ∧ y.row = rest ∧ y.committed = x.committed)) ∧
  (∀ (s : State) (cid : Nat) (x : Conv) (a : Append) (rest : List RowItem), s.conv cid = some x → a.cid = cid →
    x.row = .append a :: rest → x.home = s.nodeId → s.FrontPasses cid (.append a) → s.guard x onlyOpen = none →
    x.lease = some a.key → x.judge a = .wait →
    exec (.gateRowPass cid) s = .next (s.modConv cid fun y => { y with row := rest, held := y.held ++ [a] }))

/-- Appends (R68 to R79, R419, R742). CONV_APPEND: an append that R742 refuses is answered so; one that passes its gate is frozen and waits
for its twin writes, and the lease runs 5 ms from now; a committed length changes only at the commit. WINDOW_APPEND: a write whose ticket
does not name its slot and generation is placed and counted in APPEND_STALE only; one that R742 does not refuse takes its place in the
gate row. HELD_APPEND_PASS: the held append whose gap is filled passes its gate. -/
def Obligations.AppendArrival : Prop :=
  (∀ (s t : State) (c d : Cmd) (ctx : CmdCtx), s.Accepts 0x0202 c d ctx t → 32 ≤ d.payload.length → t.Quiet →
    let n := d.payload.length - 32
    let tr := d.payload.drop n
    let a : Append := { t.makeAppend (srcKey ctx.src) 0 0 0 (some ctx) (d.payload.take n) tr with cid := d.hdr.cid }
    let refusal := t.appendRefusal a tr n (fieldAt tr 16 4 == n) (a.crc.toNat == crc32c (d.payload.take n ++ tr.take 28))
      (fieldAt tr 0 6 == d.hdr.cid && fieldAt tr 6 1 == 0)
    (∀ r, refusal = some r → exec (.convAppend c) s = .next (t.refuseTrailer a r false)) ∧
    (∀ x l, refusal = none → t.AtGate d.hdr.cid x onlyOpen ctx.src → x.lease = some (srcKey ctx.src) → t.CanFreeze x a l →
      ∃ (u : State) (y : Conv) (n : Nat), exec (.convAppend c) s = .next u ∧ u.conv d.hdr.cid = some y ∧
        y.passed = x.passed ++ [{ a with passedAt := t.now, unacked := n }] ∧ y.committed = x.committed ∧ y.held = x.held ∧
        y.lease = x.lease ∧ y.leaseExpiry = t.now + 5000000 ∧ (∀ k, k ≠ d.hdr.cid → u.conv k = t.conv k))) ∧
  (∀ (s : State) (qp psn slot : Nat) (w : W64) (tk : W32) (data tr : List Byte) (r : Region), s.Quiet → s.takesCommands = true →
    s.rts qp = true → psnClass (s.qp qp).rqPsn psn = .expected → s.region w = some r → r.window = true → r.qp = qp → slot < r.slots → r.state = .live →
    let stale := tk.toNat % 2 ^ 24 ≠ slot ∨ tk.toNat / 2 ^ 24 ≠ Table.getD r.generations slot 0 ∨ fieldAt tr 6 1 ≠ tk.toNat / 2 ^ 24
    let a := s.makeAppend qp w slot tk none (data.take (fieldAt tr 16 4)) tr
    let len := fieldAt tr 16 4
    (stale → ∃ u : State, exec (.windowAppend ⟨qp, psn⟩ w slot tk data tr) s = .next u ∧
      u.counter Ctr.appendStale = min (s.counter Ctr.appendStale + 1) (2 ^ 64 - 1) ∧ SameBut [.tiers, .mem, .net, .counters] s u) ∧
    (∀ x, ¬ stale → (s.qp qp).outstanding < (s.qp qp).slots → LegalIn.holds .svc s.node.state = true →
      s.appendRefusal a tr len (decide (len ≤ r.slotBytes - 32)) (a.crc.toNat == crc32c (data.take len ++ tr.take 28)) true = none →
      s.conv a.cid = some x → x.home = s.nodeId → x.row.length < 256 → s.commitDue a.cid = false → s.leaseDue a.cid = false →
      s.heldNext a.cid = none →
      ∃ u : State, exec (.windowAppend ⟨qp, psn⟩ w slot tk data tr) s = .next u ∧
        u.conv a.cid = some { x with row := rowInsert x.row (.append a) } ∧ (u.qp qp).outstanding = (s.qp qp).outstanding + 1 ∧
        SameBut [.tiers, .mem, .net, .convs] s u)) ∧
  (∀ (s : State) (cid : Nat) (x : Conv) (a : Append) (l : Layout), s.conv cid = some x → x.home = s.nodeId → s.guard x onlyOpen = none →
    x.held = [a] → a.cid = cid → x.lease = some a.key → s.commitDue cid = false → s.leaseDue cid = false → s.ahead cid 1 = false → s.CanFreeze x a l →
    ∃ (u : State) (y : Conv) (n : Nat), exec (.heldAppendPass cid) s = .next u ∧ u.conv cid = some y ∧ y.held = [] ∧
      y.passed = x.passed ++ [{ a with passedAt := s.now, unacked := n }] ∧ y.committed = x.committed)

/-- APPEND_COMMIT (R78, R79): an append whose twin writes are all acknowledged and that is the next token of each of its layers commits:
those layers are one longer, every other layer stays, and the commit is answered. LEASE_EXPIRY (R62, R81, R83): a lease whose 5 ms have run
out ends, behind the commits that are due, and the uncommitted appends are discarded. GAP_TIMEOUT (R600): an append that has been held for 5 ms is answered and gone.
TWIN_TIMEOUT (R419): an append that has not committed 5 ms after its gate pass is gone, with every later append of its layers. -/
def Obligations.AppendEnds : Prop :=
  (∀ (s : State) (cid : Nat) (x : Conv) (a : Append), (s.takeAcks cid).conv cid = some x → x.committable = some a →
    a.unacked = 0 ∧ (∀ ly ∈ a.layers, x.committed.getD ly 0 = a.token) ∧
    ∃ (v : State) (y : Conv), exec (.appendCommit cid) s = .next (v.answerAppend a
        { status := Status.ok, p0 := a.token + 1 + 2 ^ 32 * a.layerCount }) ∧ v.conv cid = some y ∧
      (∀ ly < x.committed.length, y.committed.getD ly 0 = if ly ∈ a.layers then a.token + 1 else x.committed.getD ly 0) ∧
      y.passed = (x.passed.filter fun b => b.uid != a.uid) ∧ SameBut [.convs, .net, .regions] s v) ∧
  (∀ (s : State) (cid q : Nat) (x : Conv), s.conv cid = some x → x.lease = some q → x.leaseExpiry ≤ s.now → s.commitDue cid = false →
    ∃ (u : State) (y : Conv), exec (.leaseExpiry cid) s = .next u ∧ u.conv cid = some y ∧ y.lease = none ∧ q ∈ y.lostLease ∧
      y.passed = [] ∧ y.held = [] ∧ y.committed = x.committed ∧ y.state = x.state) ∧
  (∀ (s : State) (cid uid : Nat) (x : Conv) (a : Append), s.conv cid = some x →
    (x.held.find? fun b => b.uid == uid) = some a → a.arrival + 5000000 ≤ s.now → s.commitDue cid = false → s.leaseDue cid = false →
    s.heldNext cid = none →
    ∃ v : State, exec (.gapTimeout cid uid) s = .next (v.refuseAppend a (Ans.miss Reason.gapTimeout)) ∧
      v.conv cid = some { x with held := x.held.filter fun b => b.uid != uid } ∧ SameBut [.convs, .counters] s v) ∧
  (∀ (s : State) (cid uid : Nat) (x : Conv) (a : Append), s.conv cid = some x →
    (x.passed.find? fun b => b.uid == uid) = some a → a.passedAt + 5000000 ≤ s.now →
    ∃ (u : State) (y : Conv), exec (.twinTimeout cid uid) s = .next u ∧ u.conv cid = some y ∧ y.committed = x.committed ∧
      (∀ b ∈ y.passed, b ∈ x.passed ∧ b.uid ≠ uid ∧ ¬ (a.token < b.token ∧ ∃ ly ∈ b.layers, ly ∈ a.layers)) ∧
      (∀ b ∈ x.passed, b.uid ≠ uid → ¬ (a.token < b.token ∧ ∃ ly ∈ b.layers, ly ∈ a.layers) → b ∈ y.passed))

/-- Moves of ownership (R423 to R427): each of these commands completes. CONV_MOVE_OFFER of a requester: the conversation is MOVING without
a lease, under an epoch one higher. CONV_MOVE_ACCEPT of the destination under that epoch: the old home names the destination as home; another
epoch is refused. CONV_MOVE_COMMIT: the shadow is dropped, and the reply and the requester's follow the twin record. MOVE_LEG_REPLY: a refused
leg returns the conversation to its former state; of a conversation that is not moving it declines an extent; a status that is not defined is no
reply. MOVE_DEADLINE: the requester of an undecided move is answered once, and the move goes on. -/
def Obligations.MoveMessages : Prop :=
  (∀ (s t : State) (c d : Cmd) (ctx : CmdCtx) (x : Conv), s.Accepts 0x0209 c d ctx t → d.payload = [] → t.fromNode ctx = false →
    t.AtGate d.hdr.cid x openOrSealed ctx.src → d.hdr.p0 ≠ t.nodeId → (t.fabricNode d.hdr.p0).map (·.role) = some Role.cache →
    ∃ (u : State) (y : Conv), exec (.convMoveOffer c) s = .next u ∧ u.conv d.hdr.cid = some y ∧ y.state = .moving ∧ y.lease = none ∧
      y.committed = x.committed ∧ y.epoch = x.epoch ∧
      y.move = some { dest := d.hdr.p0, epoch := x.epoch + 1, former := x.state, requester := some ctx, lastSent := t.now }) ∧
  (∀ (s t : State) (c d : Cmd) (ctx : CmdCtx) (x : Conv) (m : Move), s.Accepts 0x020A c d ctx t → d.payload = [] →
    t.conv d.hdr.cid = some x → x.move = some m →
    (m.incoming = false → m.dest = t.sender ctx → m.epoch = d.hdr.p1 → m.accepted = false →
      let y := { x with home := m.dest, epoch := m.epoch, move := some { m with accepted := true, lastSent := t.now } }
      ∃ v : State, exec (.convMoveAccept c) s = .next (v.finishTwinned d.hdr.cid y ctx (Ans.ok)) ∧ v.conv d.hdr.cid = some y) ∧
    (m.epoch ≠ d.hdr.p1 → exec (.convMoveAccept c) s = .next (t.finish ctx (Ans.state Reason.epochStale x.word)))) ∧
  (∀ (s t : State) (c d : Cmd) (ctx : CmdCtx) (x : Conv) (m : Move), s.Accepts 0x020B c d ctx t → d.payload = [] →
    t.conv d.hdr.cid = some x → x.move = some m → m.incoming = false → m.dest = t.sender ctx → m.epoch = d.hdr.p1 → m.accepted = true →
    ∃ (v : State) (y : Conv), exec (.convMoveCommit c) s = .next (v.finishAll d.hdr.cid y ((ctx, Ans.ok) ::
        if m.replied then [] else m.requester.toList.map fun k => (k, Ans.ok (m.dest + 2 ^ 32 * m.epoch)))) ∧
      v.conv d.hdr.cid = some y ∧ y.move = none ∧ y.state = m.former ∧ y.home = x.home ∧ y.committed = x.committed) ∧
  (∀ (s : State) (cid : Nat) (st : BitVec 8) (rs : W16) (x : Conv), s.conv cid = some x →
    (16 ≤ st.toNat → exec (.moveLegReply cid st rs) s = .next s) ∧
    (∀ m, x.move = some m → m.incoming = false → m.accepted = false → st ≠ 0 → st.toNat < 16 →
      ∃ u : State, exec (.moveLegReply cid st rs) s = .next u ∧ SameBut [.convs, .net, .counters, .recover] s u ∧
        u.conv cid = some { x with state := m.former, home := s.nodeId, epoch := m.epoch - 1, move := none }) ∧
    (∀ m, x.move = none → st ≠ 0 → st.toNat < 16 → (x.extentMoves.find? fun k => !k.passed) = some m →
      ∃ u : State, exec (.moveLegReply cid st rs) s = .next u ∧ SameBut [.convs, .net] s u ∧
        u.conv cid = some { x with extentMoves := x.extentMoves.filter (· != m) })) ∧
  (∀ (s : State) (cid : Nat) (x : Conv) (m : Move) (ctx : CmdCtx), s.conv cid = some x → x.move = some m → m.requester = some ctx →
    m.replied = false → ctx.deadline ≤ s.now →
    exec (.moveDeadline cid) s = .next ((s.modConv cid fun y => { y with move := some { m with replied := true } }).finish ctx
      (Ans.miss Reason.moveUnresolved)))

/-- Probes and extent moves: each of these commands completes. OWNER_PROBE (R426, R438): the home under the epoch, or a node that knows a
higher one, answers OWNER 1 with COMMITTED and its epoch; any other node answers OWNER 0 and never accepts that epoch. MOVE_PROBE_TIMER (R426):
200 µs after the last message of an undecided move the old home probes the destination. OWNER_PROBE_REPLY (R426): OWNER counts as ACCEPT, OWNER
and COMMITTED as COMMIT, and OWNER 0 ends the move. EXTENT_MOVE_START (R48, R743): within the bounds a range of readable pages is sent to an
outlying node; a node that is no CACHE node declines an extent that comes to it, and one that comes leaves the conversation's home and lengths
as they were. EXTENT_MOVE_PASS (R62, R743): once that node has taken and twinned the pages the extent map names it, where the bounds still hold.
EXTENT_SOURCE_RELEASE (R48): the pages leave the source when every request that passed earlier has ended. -/
def Obligations.ProbesAndExtents : Prop :=
  (∀ (s t : State) (c d : Cmd) (ctx : CmdCtx), s.Accepts 0x0505 c d ctx t → d.payload = [] →
    let refused := fun (v : State) => SameBut [.recover] t v ∧ (d.hdr.cid, d.hdr.p1) ∈ v.recover.refusedEpochs
    (∀ x, t.conv d.hdr.cid = some x → (x.home = t.nodeId ∧ x.epoch = d.hdr.p1) ∨ d.hdr.p1 < x.epoch →
      exec (.ownerProbe c) s = .next (t.finish ctx (Ans.ok (1 + (if x.moveCommitted then 2 else 0) + 2 ^ 32 * x.epoch)))) ∧
    (∀ x, t.conv d.hdr.cid = some x → ¬ (x.home = t.nodeId ∧ x.epoch = d.hdr.p1) → x.epoch ≤ d.hdr.p1 →
      ∃ v : State, exec (.ownerProbe c) s = .next (v.finish ctx (Ans.ok (2 ^ 32 * x.epoch))) ∧ refused v) ∧
    (t.conv d.hdr.cid = none → ∃ v : State, exec (.ownerProbe c) s = .next (v.finish ctx (Ans.ok)) ∧ refused v)) ∧
  (∀ (s : State) (cid : Nat) (x : Conv) (m : Move), s.conv cid = some x → x.move = some m → m.incoming = false →
    (s.poolLeaves x.pool = false → m.lastSent + 200000 ≤ s.now →
      ∃ u : State, exec (.moveProbeTimer cid) s = .next u ∧ u.conv cid = some { x with move := some { m with lastSent := s.now } } ∧
        (s.linkUp m.dest = true → u.net.egress.length = s.net.egress.length + 1) ∧ SameBut [.convs, .net, .drawn] s u) ∧
    ∀ e, (m.epoch ≤ e → ∃ (u : State) (y : Conv), exec (.ownerProbeReply cid true true e) s = .next u ∧ u.conv cid = some y ∧
        y.move = none ∧ y.state = m.former) ∧
      (m.epoch ≤ e → m.accepted = false → ∃ (u : State) (y : Conv), exec (.ownerProbeReply cid true false e) s = .next u ∧
        u.conv cid = some y ∧ y.home = m.dest ∧ y.epoch = m.epoch ∧ y.state = x.state) ∧
      (∃ (u : State) (y : Conv), exec (.ownerProbeReply cid false false e) s = .next u ∧ u.conv cid = some y ∧ y.move = none ∧
        y.state = m.former ∧ y.home = s.nodeId)) ∧
  (∀ (s : State) (cid first last dest : Nat) (x : Conv) (l : Layout), s.conv cid = some x →
    (x.home = s.nodeId → s.layout x.layout = some l → s.moveAllowed x l first last dest = true → x.holder first last dest = none →
      x.extents.length + x.extentMoves.length < 15 →
      (∀ k ∈ x.pages, first ≤ k.1.index → k.1.index < last → ∃ p, s.page k.2 = some p ∧ p.away = false ∧ s.CleanFrame p.tier p.frame) →
      ∃ u : State, exec (.extentMoveStart cid first last dest) s = .next u ∧ SameBut [.convs, .net] s u ∧
        let k := (x.pages.filter fun p => decide (first ≤ p.1.index) && decide (p.1.index < last)).length
        u.conv cid = some
          { x with extentMoves := x.extentMoves ++ [{ id := s.net.nextWait, first := first, last := last, dest := dest, copies := k }] }) ∧
    (x.home ≠ s.nodeId →
      ∃ (u : State) (y : Conv), exec (.extentMoveStart cid first last s.nodeId) s = .next u ∧ u.conv cid = some y ∧ y.home = x.home ∧
        y.committed = x.committed ∧ y.state = x.state ∧ (s.node.role ≠ .cache → SameBut [.drawn] s u) ∧ ∀ k, k ≠ cid → u.conv k = s.conv k)) ∧
  (∀ (s : State) (cid : Nat) (x : Conv) (m : ExtentMove), s.conv cid = some x → x.home = s.nodeId →
    s.commitDue cid = false → s.leaseDue cid = false → (x.extentMoves.find? fun k => !k.passed && s.extentTaken cid k) = some m →
    (s.moveStands x m = true → ∃ (u : State) (y : Conv), exec (.extentMovePass cid) s = .next u ∧ u.conv cid = some y ∧
      y.extents = (x.extents.filter fun e => !(e.first == m.first && e.last == m.last)) ++
        [{ node := m.dest, first := m.first, last := m.last }] ∧ y.committed = x.committed ∧ y.pages = x.pages ∧
      SameBut [.convs, .net, .recover] s u) ∧
    (s.moveStands x m = false → exec (.extentMovePass cid) s = .next (s.dropMove cid m))) ∧
  (∀ (s : State) (cid : Nat) (x : Conv) (m : ExtentMove), s.conv cid = some x →
    (x.extentMoves.find? fun k => k.passed && k.first == m.first) = some m → s.extentTaken cid m = true → (∀ r ∈ m.waitFor, s.req r = none) →
    ∃ (u : State) (y : Conv), exec (.extentSourceRelease cid m.first) s = .next u ∧ u.conv cid = some y ∧
      y.pages = (x.pages.filter fun p => !(x.pages.any fun q => q.2 == p.2 && decide (m.first ≤ q.1.index) && decide (q.1.index < m.last))) ∧
      y.extentMoves = x.extentMoves.filter (· != m))

/-! ## Attention -/

/-- ATTN_GRAZE, ATTN_GRAZE_EXACT and ATTN_CAIRN (R57, R252, R285, R286): a request that passes its gate takes a context with the layer's
COMMITTED count as its snapshot and its rows staged, and a forward goes to every outlying node that holds positions below the snapshot.
GRAZE_FORWARD (R290, R292): a participant takes a context for its extent, with the snapshot, modifier tag and deadline of the forward.
None of them changes a conversation. -/
def Obligations.AttentionRequests : Prop :=
  (∀ (s t : State) (c d : Cmd) (ctx : CmdCtx) (x : Conv) (g : Graze) (l : Layout) (rows : List (List Byte)) (exact cairn : Bool)
      (i : Instr) (code : Nat),
    (i, code, exact, cairn) ∈ [(Instr.attnGraze c, 0x0301, false, false), (.attnGrazeExact c, 0x0302, true, false),
      (.attnCairn c, 0x0304, false, true)] → d.hdr.opcode.toNat = code → d.hdr.forward = false →
    s.Accepts code c d ctx t → t.AtGate d.hdr.cid x (fun st => openOrSealed st || st == .moving) ctx.src → t.layout x.layout = some l →
    t.now < ctx.deadline → d.hdr.deadlineUs ≠ 1 → d.hdr.param0 = 0 → d.hdr.param1 = 0 → t.checkGraze d.payload x.layout l d.hdr.layer.toNat exact cairn none = .ok g →
    let r := t.newReq x d.hdr.cid d.hdr.layer.toNat ctx exact cairn g l
    (r.parts.length < 2 ∨ t.attn.triggersUsed < Config.triggers) →
    (∀ e ∈ x.extents, e.first * l.tokens < r.snapshot → t.peerUp e.node = true) → t.CanWork x r l rows →
    r.snapshot = x.committed.getD d.hdr.layer.toNat 0 ∧
    ∃ (u : State) (n : Nat) (sv : List (Nat × Nat)), exec i s = .next u ∧
      u.req t.attn.nextCtx = some { r.emptySums l with rows := rows, outstanding := n, served := sv } ∧
      (∀ k, k ≠ t.attn.nextCtx → u.req k = t.req k) ∧
      u.attn.triggersUsed = t.attn.triggersUsed + (if r.parts.length < 2 then 0 else 1) ∧
      (∀ p ∈ x.pages, p.1.layer = d.hdr.layer.toNat → p.1.index * l.tokens < r.snapshot → p.1.index < 2 ^ 32 →
        (∀ e ∈ x.extents, ¬ (e.first ≤ p.1.index ∧ p.1.index < e.last)) → ∀ y, u.page p.2 = some y → t.attn.nextCtx ∈ y.users) ∧
      u.net.egress.length = t.net.egress.length + (r.parts.length - 1) ∧
      (∀ k p, 1 ≤ k → r.parts[k]? = some p →
        ∃ m ∈ u.net.egress, m.tag = .forward t.attn.nextCtx k ∧ m.qp = t.nodeQp p.node) ∧
      SameBut [.tiers, .attn, .regions, .net] t u) ∧
  (∀ (s t : State) (c d : Cmd) (ctx : CmdCtx) (x : Conv) (f : Forward) (g : Graze) (l : Layout) (rows : List (List Byte)),
    s.Accepts (forwardCode c.hdr) c d ctx t → d.hdr.forward = true → fieldAt d.payload 24 1 ≠ 3 →
    parseForward d.payload = some f → t.conv d.hdr.cid = some x → t.guard x (fun st => st != .lost) = none →
    t.layout x.layout = some l → d.hdr.param0 = 0 → d.hdr.param1 = 0 →
    let exact := d.hdr.opcode == 0x0302
    let cairn := d.hdr.opcode == 0x0304
    (x.holdsExtent l d.hdr.layer.toNat f.first f.last = false →
      f.pass = (firstPass exact cairn).code → exec (.grazeForward c) s = .next (t.finish ctx (Ans.retry Reason.extentMoved))) ∧
    (x.holdsExtent l d.hdr.layer.toNat f.first f.last = true → f.pass = (firstPass exact cairn).code →
      t.checkGraze (d.payload.drop 64) x.layout l d.hdr.layer.toNat exact cairn (some f.modTag) = .ok g →
      let r := t.newForward f d ctx x l g exact cairn
      t.CanWork x r l rows →
      ∃ (u : State) (n : Nat) (sv : List (Nat × Nat)), exec (.grazeForward c) s = .next u ∧ SameBut [.tiers, .attn, .regions] t u ∧
        u.req t.attn.nextCtx = some { r.emptySums l with rows := rows, outstanding := n, served := sv } ∧
        r.snapshot = f.snapshot ∧ r.deadline = f.deadline ∧ r.modTag = f.modTag ∧ r.landing = f.landing))

/-- The passes of a request; each of these commands completes. HOME_PARTIAL_COMPLETE (R238, R251, R294, R301): the home adds its own partials
to the combined ones with its bit of the mask; a participant writes its record into its landing slot at the home, and ends OK or, after a
score-only pass, waits for CONTINUE; what of landed records waited for it is placed. LANDING_RECORD_PLACE (R253 to R255, R261, R315): a record
that has its turn is placed once for the participants of its mask; a duplicate, one that does not match and one that is malformed are counted
and placed nowhere; a bad candidate block ends the request. PARTICIPANT_REPLY (R14, R299, R307): a defined status but OK ends the request with it,
unless one of a lower participant waits in the same cycle or the release of the result does; an undefined one is no reply. CONTINUE_FORWARD
(R302): the summing pass starts with the anchors carried. NEAR_REDUCE_REPLY (R296): OK counts this node's own record. When every participant of
the pass is in, the home's result is ready (R294, R295), and RESULT_RECORD_DONE ends the request OK with the record of its mode. GRAZE_DEADLINE and
PARTICIPANT_DEADLINE (R306): a request whose deadline has passed ends with DEADLINE_MISS, unless its result is released in the same cycle (R299).
The end of a request (R291, R300, R307, R316): its context, its trigger counter and its page references are given up, no other request changes,
and its command gets one reply with the status and reason of the end. -/
def Obligations.AttentionPasses : Prop :=
  (∀ (s : State) (ctx : Nat) (r : Req) (l : Layout), s.req ctx = some r → s.layout r.layout = some l → r.outstanding = 0 → r.stalls = [] →
    r.rows ≠ [] → r.ownDone = false → r.ownSent = false → r.waitsContinue = false →
    (r.pass = .sum → r.graze.mode ≤ 2 → r.isForward = false → bit r.mask 0 = false → r.countExceeds r.partials = false →
      ∃ v : State, exec (.homePartialComplete ctx) s = .next ((v.advance ctx).placeTurn ctx) ∧ SameBut [.attn] s v ∧
        v.req ctx = some { r.addSums 1 r.partials with ownDone := true }) ∧
    (r.pass = .sum → r.graze.mode ≤ 2 → r.isForward = false → bit r.mask 0 = false → r.countExceeds r.partials = true →
      exec (.homePartialComplete ctx) s = .next ((s.bump Ctr.firnMismatch).placeTurn ctx)) ∧
    (r.pass = .sum → r.graze.mode ≤ 2 → r.isForward = false → bit r.mask 0 = true →
      ∃ v : State, exec (.homePartialComplete ctx) s = .next ((v.advance ctx).placeTurn ctx) ∧ SameBut [.attn, .counters] s v ∧
        v.counter Ctr.firnDup = min (s.counter Ctr.firnDup + 1) (2 ^ 64 - 1) ∧ v.req ctx = some { r with ownDone := true }) ∧
    (r.pass = .sum → r.graze.mode ≤ 2 → r.isForward = true →
      exec (.homePartialComplete ctx) s = .next (((s.landAtHome r (s.ownRecord r l)).endReq ctx (Ans.ok)).placeTurn ctx)) ∧
    (r.pass = .scoreOnly → r.isForward = true → ∃ v : State, exec (.homePartialComplete ctx) s = .next (v.placeTurn ctx) ∧
      v.net = (s.landAtHome r (s.maxRecord r l)).net ∧ v.req ctx = some { r with waitsContinue := true } ∧ SameBut [.net, .attn] s v)) ∧
  (∀ (s : State) (r : Req) (b : List Byte), s.rts (s.nodeQp r.home) = true → ∃ m : Msg, (s.landAtHome r b).net.egress = s.net.egress ++ [m] ∧
    m.qp = s.nodeQp r.home ∧ m.ops = [.write (BitVec.ofNat 64 r.landing) 0 b (some (BitVec.ofNat 32 r.landing))] ∧
    SameBut [.net] s (s.landAtHome r b)) ∧
  (∀ (s : State) (qp psn slot : Nat) (data : List Byte), s.Quiet → s.takesCommands = true → s.rts qp = true → (s.qp qp).kind = .node →
    psnClass (s.qp qp).rqPsn psn = .expected →
    let holder := s.landingOf (s.peerOf qp) slot data
    let awaited := (holder.bind fun x => s.req x.1).map fun r => r.pass == .cairnScore
    let fault := if landedCrcOk awaited data then [Part.net] else [.net, .blocks, .events, .pins, .counters]
    (holder = none → ∃ v : State, exec (.landingRecordPlace ⟨qp, psn⟩ slot data) s =
      .next (v.bump (if recordFrameOk data || crcSealed data then Ctr.firnLate else Ctr.firnRecordFail)) ∧ SameBut fault s v) ∧
    (∀ ctx k r, holder = some (ctx, k) → s.req ctx = some r → r.held = [] → s.recordAhead ctx (landedNumber k data) = false →
      ∃ v : State, exec (.landingRecordPlace ⟨qp, psn⟩ slot data) s = .next (v.placeRecord ctx k data) ∧ v.req ctx = some r ∧
        SameBut (.attn :: fault) s v)) ∧
  (∀ (s : State) (ctx k : Nat) (b : List Byte) (r : Req) (l : Layout), s.req ctx = some r → s.layout r.layout = some l →
    (r.judge l k b = .again → s.placeRecord ctx k b = s.bump Ctr.firnDup) ∧
    (r.judge l k b = .mismatch → s.placeRecord ctx k b = s.bump Ctr.firnMismatch) ∧
    (r.judge l k b = .malformed → s.placeRecord ctx k b = s.bump Ctr.firnRecordFail) ∧
    (r.judge l k b = .badBlock → s.placeRecord ctx k b = s.endReq ctx (Ans.retry Reason.cairnBlock)) ∧
    (∀ mask f, r.judge l k b = .take mask f → ∃ (v : State) (ps : List Participant), s.placeRecord ctx k b = v.advance ctx ∧
      v.req ctx = some { f r with parts := ps } ∧ ps.length = r.parts.length ∧ SameBut [.attn] s v ∧
      ∀ (n : Nat) (p : Participant), r.parts[n]? = some p → ps[n]? = some { p with placed := p.placed || (n != 0 && bit mask n) })) ∧
  (∀ (s : State) (ctx k : Nat) (st : BitVec 8) (rs : W16) (p0 : W64) (r : Req) (p : Participant), s.req ctx = some r → r.isForward = false →
    k ≠ 0 → r.parts[k]? = some p →
    let lower := ∃ x ∈ s.failures ctx r, x.1 < k
    (16 ≤ st.toNat → exec (.participantReply ctx k st rs p0) s = .next s) ∧
    (st = 0 → ∃ v : State, exec (.participantReply ctx k st rs p0) s = .next ((v.advance ctx).foresee ctx) ∧ SameBut [.attn] s v ∧
      v.req ctx = some { r with parts := modifyAt r.parts k fun p =>
        { p with oks := p.oks + 1, replied := p.replied || decide (p.oks + 1 ≥ if r.exact || r.cairn then 2 else 1) } }) ∧
    (st ≠ 0 → st.toNat < 16 → ∃ v : State, SameBut [.attn] s v ∧ v.req ctx = some r ∧
      (s.releaseWins ctx = true ∨ (lower ∧ st.toNat ≠ Status.anchorBreach) → exec (.participantReply ctx k st rs p0) s = .next v) ∧
      (s.releaseWins ctx = false → ¬ lower → ∃ b : Ans, exec (.participantReply ctx k st rs p0) s = .next (v.endReq ctx b) ∧
        (rs.toNat = Reason.nodeState → b = Ans.miss Reason.participantLost) ∧
        (rs.toNat ≠ Reason.nodeState → b.status = st.toNat ∧ b.reason = rs.toNat ∧
          (st.toNat = Status.anchorBreach → s.failures ctx r = [] → r.breachHigh = none → b.p0 = p0.toNat))))) ∧
  (∀ (s t : State) (c d : Cmd) (ctx : CmdCtx) (f : Forward) (id : Nat) (r : Req) (l : Layout) (as : List Int),
    s.Accepts (forwardCode c.hdr) c d ctx t → d.hdr.forward = true → fieldAt d.payload 24 1 = 3 → parseForward d.payload = some f →
    (t.attn.reqs.find? fun x => x.2.isForward && x.2.home == f.home && x.2.participant == f.participant &&
      x.2.cmd.requestId == d.hdr.requestId && x.2.waitsContinue) = some (id, r) → t.req id = some r → r.cairn = false →
    t.layout r.layout = some l → parseAnchors (r.graze.rowCount l) (d.payload.drop 64) = some as →
    ∃ (v w : State) (y : Req), exec (.continueForward c) s = .next (w.issueReq id) ∧ w = v.modReq id (fun _ => y) ∧ w.req id = some y ∧
      v.convs = t.convs ∧ y.pass = .continued ∧ y.anchors = as ∧ y.waitsContinue = false ∧ y.cmd = ctx ∧ y.rows = r.rows ∧
      y.ownDone = false ∧ y.mask = 0) ∧
  (∀ (s : State) (ctx : Nat) (st : BitVec 8) (rs : W16) (r : Req), s.req ctx = some r → r.ownSent = true → r.graze.mode = 3 →
    (16 ≤ st.toNat → exec (.nearReduceReply ctx st rs) s = .next s) ∧
    (st = 0 → r.isForward = false → ∃ v : State, exec (.nearReduceReply ctx st rs) s = .next (v.advance ctx) ∧ SameBut [.attn] s v ∧
      v.req ctx = some { r with ownDone := true, ownSent := false }) ∧
    (st = 0 → r.isForward = true → exec (.nearReduceReply ctx st rs) s = .next (s.endReq ctx (Ans.ok))) ∧
    (st ≠ 0 → st.toNat < 16 →
      exec (.nearReduceReply ctx st rs) s = .next (s.endReq ctx { status := st.toNat, reason := rs.toNat }))) ∧
  (∀ (s : State) (ctx : Nat) (r : Req) (l : Layout), s.req ctx = some r → s.layout r.layout = some l →
    (r.pass = .sum ∨ r.pass = .continued → r.readyForResult = false → ∃ v : State, SameBut [.attn] s v ∧ v.req ctx = some r.counted ∧
      (r.fired = false → s.advance ctx = v) ∧
      (r.fired = true → homeMode r.graze.mode = true →
        s.advance ctx = v.modReq ctx fun r => { r with triggeredAt := s.now, readyForResult := true }) ∧
      (r.fired = true → homeMode r.graze.mode = false → s.advance ctx = v.endReq ctx (Ans.ok))) ∧
    (r.readyForResult = true → ∃ (v : State) (b : Ans), exec (.resultRecordDone ctx) s = .next (v.endReq ctx b) ∧ b.status = Status.ok ∧
      b.result = s.resultRecord r l ∧ b.item = r.graze.item ∧ b.keep = true ∧ SameBut [.attn] s v ∧ v.req ctx = some r) ∧
    (r.isForward = false → r.deadline ≤ s.now → s.releaseWins ctx = false →
      exec (.grazeDeadline ctx) s = .next (s.endReq ctx (Ans.miss Reason.deadlinePassed))) ∧
    (r.isForward = false → s.now < r.deadline ∨ s.releaseWins ctx = true → exec (.grazeDeadline ctx) s = .next s) ∧
    (r.isForward = true → r.deadline ≤ s.clk.ptp →
      exec (.participantDeadline ctx) s = .next (s.endReq ctx (Ans.miss Reason.deadlinePassed))) ∧
    (r.isForward = true → s.clk.ptp < r.deadline → exec (.participantDeadline ctx) s = .next s)) ∧
  (∀ (s : State) (ctx : Nat) (r : Req) (a : Ans), s.req ctx = some r →
    ∃ (v : State) (b : Ans), s.endReq ctx a = v.finish r.cmd b ∧ b.status = a.status ∧ b.reason = a.reason ∧ (a.p0 ≠ 0 → b.p0 = a.p0) ∧
      v.req ctx = none ∧ (∀ k, k ≠ ctx → v.req k = s.req k) ∧ (∀ pid p, v.page pid = some p → ctx ∉ p.users) ∧
      v.attn.triggersUsed = s.attn.triggersUsed - (if r.trigger.isSome then 1 else 0) ∧
      (r.isForward = false → a.status = Status.ok → r.cairn = false →
        v.counter Ctr.grazeDone = min (s.counter Ctr.grazeDone + 1) (2 ^ 64 - 1)) ∧ v.convs = s.convs)

/-! ## Tiles -/

/-- ROW_GROUP_ACCEPT (R183, R225, R346): a waiting row group is taken while its slots and accumulator bytes are free, graze and cairn
requests before drift passes. TILE_DESCRIPTOR (R219, R224): the next descriptor of the row group in work is worked; after its last the
request's partials take the sums; a weight of 2^8 or more ends the request with ANCHOR_BREACH (R245). TILE_CLOCK_STOP, TILE_GATE and
TILE_WAKE (R185, R186): an idle tile stops its clock and is gated after the register's times, and a woken tile runs when its wake ends.
TILE_FAIL (R226, R227, R228): a failed tile is FAILED and OFF with nothing queued, is counted, and the lowest spare is chosen for its
logical tile, which holds its row groups to be done again; an UNTESTED or FAILED tile does not fail again. SPARE_BIND (R227, R228, R232):
a spare that is awake and passed its test becomes ACTIVE under the logical tile and takes the abandoned row groups. SPARE_TEST (R232): a test that
passed sets the time of the last one. -/
def Obligations.TileWork : Prop :=
  ((∀ (s : State) (p i : Nat) (w : Work), p < s.attn.tiles.length → (s.tile p).power = .run → s.pllOn 0 = true →
    firstWork (s.tile p).queue (fun w => !w.accepted) = some i → (s.tile p).queue[i]? = some w →
    let held := ((s.tile p).queue.filter (·.accepted)).map s.groupSize
    (¬ ((held.map (·.1)).sum + (s.groupSize w).1 ≤ 6 ∧ (held.map (·.2)).sum + (s.groupSize w).2 ≤ 1179648) →
      exec (.rowGroupAccept p) s = .next s) ∧
    ((held.map (·.1)).sum + (s.groupSize w).1 ≤ 6 → (held.map (·.2)).sum + (s.groupSize w).2 ≤ 1179648 →
      ∃ u : State, exec (.rowGroupAccept p) s = .next u ∧ SameBut [.attn] s u ∧ (∀ k, k ≠ p → u.tile k = s.tile k) ∧
        (u.tile p).queue[i]? = some { w with accepted := true } ∧ ∀ k, k ≠ i → (u.tile p).queue[k]? = (s.tile p).queue[k]?)) ∧
  (∀ (s s1 : State) (p i : Nat) (w : Work) (d : Descriptor) (rest : List Descriptor) (j : Job) (ps : List Position), s.Quiet →
    p < s.attn.tiles.length → (s.tile p).power = .run → s.pllOn 0 = true →
    ((s.tile p).queue.findIdx? fun w => w.accepted && w.done > 0).or (firstWork (s.tile p).queue fun w => w.accepted && !w.left.isEmpty) = some i →
    (s.tile p).queue[i]? = some w → w.left = d :: rest → s.job w = some j →
    (s.noteLate d).readDescriptor j.env.layout d (!j.scoreOnly) = (some ps, s1) →
    let out := j.work w.group ps
    let y := { w with sums := addRows w.sums out.sums, maxima := addMaxima w.maxima out.maxima, done := w.done + 1 }
    (out.breach = false → rest ≠ [] → s.counter Ctr.nanScore < 2 ^ 64 → ∃ u : State, exec (.tileDescriptor p) s = .next u ∧ (u.tile p).queue[i]? = some y ∧
      u.counter Ctr.nanScore = min (s.counter Ctr.nanScore + out.nans) (2 ^ 64 - 1) ∧ u.convs = s.convs) ∧
    (∀ r, out.breach = false → rest = [] → w.drift = false → j.scoreOnly = false → s.req w.ctx = some r → y.sums ≠ [] →
      ∃ (u : State) (q : Req), exec (.tileDescriptor p) s = .next u ∧ u.req w.ctx = some q ∧ q.outstanding = r.outstanding - 1 ∧
        q.partials = mergeAt Partial.add r.partials (w.group.head * j.perHead + w.group.lo) y.sums ∧
        (u.tile p).queue = (s.tile p).queue.take i ++ (s.tile p).queue.drop (i + 1)) ∧
    (out.breach = true → w.drift = false → ∃ (v : State) (b : Ans), exec (.tileDescriptor p) s = .next (v.endReq w.ctx b) ∧
      b.status = Status.anchorBreach ∧ b.reason = Reason.breachWeight ∧
      v.counter Ctr.anchorBreach = min (s.counter Ctr.anchorBreach + 1) (2 ^ 64 - 1))) ∧
  (∀ (s : State) (p : Nat), p < s.attn.tiles.length →
    ((s.tile p).role = .active → (s.tile p).queue = [] → (s.tile p).power = .run → (s.tile p).idleSince + s.regs.stopAfterNs ≤ s.now →
      ∃ u : State, exec (.tileClockStop p) s = .next u ∧ u.tile p = { s.tile p with power := .clockStop } ∧ SameBut [.attn] s u) ∧
    ((s.tile p).role = .active → (s.tile p).queue = [] → ((s.tile p).power = .run ∨ (s.tile p).power = .clockStop) →
      s.regs.gateAfterUs ≠ 0 → (s.tile p).idleSince + 1000 * s.regs.gateAfterUs ≤ s.now →
      ∃ u : State, exec (.tileGate p) s = .next u ∧ u.tile p = { s.tile p with power := .gated } ∧ SameBut [.attn] s u) ∧
    (s.regs.gateAfterUs = 0 → exec (.tileGate p) s = .next s) ∧
    (∀ n, (s.tile p).role = .active → (s.tile p).wakeDue = some n → n ≤ s.now → ∃ u : State, exec (.tileWake p) s = .next u ∧
      u.tile p = { s.tile p with power := .run, wakeDue := none } ∧ SameBut [.attn] s u) ∧
    ((s.tile p).role ≠ .active → exec (.tileWake p) s = .next s) ∧
    (∀ n, (s.tile p).wakeDue = some n → s.now < n → exec (.tileWake p) s = .next s))) ∧
  ((∀ (s : State) (p : Nat) (cause : TileFault), p < s.attn.tiles.length → s.failsAhead p = [] →
    ((s.tile p).role ≠ .active → (s.tile p).role ≠ .spare → exec (.tileFail p cause) s = .next s) ∧
    ((s.tile p).role = .active ∨ (s.tile p).role = .spare →
      (∀ n, (s.logical n).valid = true → (s.logical n).phys = p → (s.tile p).logical = some n) →
      ∃ u : State, exec (.tileFail p cause) s = .next u ∧
      (u.tile p).role = .failed ∧ (u.tile p).power = .off ∧ (u.tile p).queue = [] ∧ (u.tile p).logical = none) ∧
    (∀ n k rest, (s.tile p).role = .active → (s.tile p).logical = some n → n < s.attn.logicals.length → (s.tile p).queue = [] →
      (s.logical n).abandoned = [] → s.freeSpares = k :: rest → (∀ l ∈ s.attn.logicals, l.substitute ≠ some p) →
      (∀ d ∈ s.drifts, d.state ≠ .ready ∧ d.state ≠ .running) →
      ∃ u : State, exec (.tileFail p cause) s = .next u ∧ (u.logical n).valid = false ∧ (u.logical n).substitute = some k ∧
        u.counter Ctr.tileFault = min (s.counter Ctr.tileFault + 1) (2 ^ 64 - 1) ∧ u.attn.reqs = s.attn.reqs ∧ u.drifts = s.drifts)) ∧
  (∀ (s : State) (n p : Nat), n < s.attn.logicals.length → p < s.attn.tiles.length → (s.logical n).substitute = some p →
    (s.now < (s.tile p).wakeDue.getD 0 → exec (.spareBind n true) s = .next s) ∧
    ((s.tile p).wakeDue.getD 0 ≤ s.now → ∃ u : State, exec (.spareBind n true) s = .next u ∧ SameBut [.attn, .counters, .blocks, .events, .pins] s u ∧
      u.logical n = { s.logical n with phys := p, valid := true, substitute := none, abandoned := [] } ∧
      (u.tile p).role = .active ∧ (u.tile p).power = .run ∧ (u.tile p).logical = some n ∧ (u.tile p).queue = (s.logical n).abandoned ∧
      u.counter Ctr.tileSubst = min (s.counter Ctr.tileSubst + 1) (2 ^ 64 - 1))) ∧
  (∀ (s : State) (p : Nat), p < s.attn.tiles.length → (s.tile p).role = .spare → (s.tile p).lastTest + 10000000000 ≤ s.now →
    ∃ u : State, exec (.spareTest p true) s = .next u ∧ u.tile p = { s.tile p with lastTest := s.now } ∧ SameBut [.attn] s u))

/-! ## Drift passes -/

/-- ATTN_DRIFT_ARM (R334, R338, R339, R351): an arm that no check refuses takes an IDLE slot, which is ARMED, the frames of its block, its
two landing buffers, accumulators and queries, a trigger counter for every step but the last, and a gate entry for the opening and
closing of every send window; its deadline is T_rel plus the result window. CANCEL (R358) aborts the armed pass and is answered OK.
An abort that a member detects (R354 to R356, R359, R361): it is remembered, sent to every other member whose QP is up, the slot is IDLE
again, every other slot stays, and the arm is answered COLLECTIVE_ABORT with the reason; where one of a lower ORIGIN waits in the same cycle,
that one is left to end the pass. -/
def Obligations.DriftArmAndAbort : Prop :=
  (∀ (s t : State) (c d : Cmd) (ctx : CmdCtx) (l : Layout), s.Accepts 0x0303 c d ctx t →
    bit (fieldAt d.payload 1 1) 0 = false →
    let a := parseArm d.hdr d.payload
    let need := a.frameNeeds l l.keyLen
    let n := need.1 + 2 * need.2.1 + need.2.2
    t.armRefusal d a = none → t.layout a.layout = some l → t.armBusy a = none → n ≤ t.allocatable .hot →
    t.attn.triggersUsed + (a.members - 1) ≤ Config.triggers → (∀ m ∈ t.aborts, ¬ (m.ring = a.ring ∧ m.takeover = a.takeover)) →
    t.regions.keys.length < 65536 → (∀ x ∈ t.readies, fieldAt x.2 0 2 ≠ a.ring) →
    ∃ (u : State) (slot : Nat) (y : Drift), exec (.attnDriftArm c) s = .next u ∧ slot < t.drifts.length ∧ (t.drift slot).state = .idle ∧
      u.drifts = setAt t.drifts slot y ∧ y.state = .armed ∧ y.ring = a.ring ∧ y.takeover = a.takeover ∧ y.durations = a.durations ∧
      y.cmd = some { ctx with deadline := a.release + 1000 * a.windowUs } ∧ y.frames.length = n ∧
      y.counters.length = a.members - 1 ∧ y.block.length = need.1 ∧ y.landingFrames.map List.length = [need.2.1, need.2.1] ∧
      u.attn.triggersUsed = t.attn.triggersUsed + (a.members - 1) ∧
      (y.port < t.net.ports.length → ∀ w ∈ a.windows, (w.1, true, slot) ∈ (u.port y.port).drift ∧ (w.2, false, slot) ∈ (u.port y.port).drift) ∧
      u.convs = t.convs) ∧
  (∀ (s t : State) (c d : Cmd) (ctx : CmdCtx) (i : Nat), s.Accepts 0x0303 c d ctx t → 24 ≤ d.payload.length →
    bit (fieldAt d.payload 1 1) 0 = true →
    ((List.range 16).find? fun i =>
      let x := t.drift i
      t.abortable x && x.ring == d.hdr.targetId.toNat && x.takeover == fieldAt d.payload 16 8) = some i →
    exec (.attnDriftArm c) s = .next ((t.detectAbort i Reason.driftCancelled).finish ctx (Ans.ok))) ∧
  (∀ (s : State) (slot reason st rs : Nat) (o : Option Nat) (det : W64) (ctx : CmdCtx), slot < s.drifts.length →
    (s.drift slot).state ≠ .idle → (s.drift slot).cmd = some ctx →
    let d := s.drift slot
    let a : Abort := { ring := d.ring, origin := o.getD d.member, originStatus := st, reason := reason, originReason := rs
                       takeover := d.takeover, step := d.step, detail := det }
    (s.lowerAbort slot a.origin = true → SameBut [.net, .counters] s (s.detectAbort slot reason o st rs det)) ∧
    (s.lowerAbort slot a.origin = false → ∃ (v : State), s.detectAbort slot reason o st rs det = v.finish ctx
        { status := Status.collectiveAbort, reason := reason, p0 := a.param0, p1 := det.toNat } ∧
      v.drifts = setAt s.drifts slot {} ∧ (∃ m ∈ v.aborts, m.ring = d.ring ∧ m.takeover = d.takeover ∧ m.reason = reason ∧ m.at_ = s.now) ∧
      v.attn.triggersUsed = s.attn.triggersUsed - (d.members - 1) ∧ v.attn.reqs = s.attn.reqs ∧
      (∀ m j, m < d.members → m ≠ d.member → (s.ringMembers d.ring)[m]? = some j → s.rts (s.nodeQp j) = true →
        ∃ x ∈ v.net.egress, x.qp = s.nodeQp j ∧ x.ops = [.send a.bytes]) ∧
      v.counter Ctr.driftAbort = min (s.counter Ctr.driftAbort + 1) (2 ^ 64 - 1)))

/-- The preparation and the supervision of a pass. DRIFT_BLOCK_FROZEN and DRIFT_PREP_DONE (R332, R335): the block is frozen, the rows are
staged, and the part that comes second makes the pass READY, with READY sent. DRIFT_READY_RECV (R336): a READY with another digest aborts
the pass, as one of another T0 does, and one with its own is noted, the successor's with its landing buffers; one that no armed pass of its
ring can take is kept. DRIFT_READY_DEADLINE (R335): without every READY the
pass aborts with DRIFT_NOT_READY. DRIFT_BEAT_SEND, DRIFT_BEAT_RECV and DRIFT_BEAT_SILENCE (R337). DRIFT_ABORT_RECV (R356, R357,
R359): a pass not past its release adopts the abort, unless a cause of a lower ORIGIN waits in the same cycle; without a pass it is remembered;
one that comes after the release, or to a pass that has ended, is counted as late. DRIFT_ABORT_FORGET (R359): after 2 s it is forgotten. -/
def Obligations.DriftSupervision : Prop :=
  (∀ (s s1 : State) (slot : Nat) (d : Drift) (l : Layout) (b : List Byte), slot < s.drifts.length → s.drift slot = d → d.state = .armed →
    s.layout d.layout = some l →
    (d.frozen = false → s.readForPass slot d.blockRegion d.blockOffset (d.stagingLen l) = (some b, s1) → s1.drifts = s.drifts →
      (∀ f ∈ d.block, s1.CleanFrame .hot f) →
      ∃ u : State, exec (.driftBlockFrozen slot) s = .next u ∧ (u.drift slot).frozen = true ∧ u.convs = s1.convs ∧
        (d.rows = [] → (u.drift slot).state = .armed) ∧
        (d.rows ≠ [] → d.sentReady = false → (u.drift slot).state = .ready ∧ (u.drift slot).sentReady = true)) ∧
    (∀ y, d.rows = [] → s.readForPass slot d.queryRegion d.queryOffset (queryLen d l (s.rowElements d.asGraze l)) = (some b, s1) →
      s1.drifts = s.drifts → s1.thawAbsorb d.asGraze l d.layer = ([], s1) → s1.stageQuery d l b = some y → y.rows ≠ [] → d.sentReady = false →
      ∃ u : State, exec (.driftPrepDone slot) s = .next u ∧ (u.drift slot).rows = y.rows ∧ (u.drift slot).qpos = y.qpos ∧
        (u.drift slot).anchors = y.anchors ∧ (d.frozen = false → u.drift slot = y) ∧
        (d.frozen = true → (u.drift slot).state = .ready ∧ (u.drift slot).sentReady = true))) ∧
  (∀ (s s1 : State) (qp psn : Nat) (msg b : List Byte), s.receiveRaw qp psn msg = (some b, s1) → b.length = 64 → zeroAt b 3 5 = true →
    zeroAt b 44 20 = true →
    (s1.passOf (fieldAt b 0 2) = none → ∃ u : State, exec (.driftReadyRecv ⟨qp, psn⟩ msg) s = .next u ∧ (qp, b) ∈ u.readies ∧
      SameBut [.readies] s1 u) ∧
    ∀ slot, s1.passOf (fieldAt b 0 2) = some slot →
    let d := s1.drift slot
    let m := fieldAt b 2 1
    s1.abortable d = true → s1.fromMember d m qp = true → (m = d.pred ∨ m = d.succ) →
    (d.takeover ≠ fieldAt b 8 8 ∨ BitVec.ofNat 64 (fieldAt b 16 8) ≠ d.digest →
      exec (.driftReadyRecv ⟨qp, psn⟩ msg) s = .next (s1.detectAbort slot Reason.driftNeighbourDigest)) ∧
    (d.takeover = fieldAt b 8 8 → BitVec.ofNat 64 (fieldAt b 16 8) = d.digest → ∃ u : State, exec (.driftReadyRecv ⟨qp, psn⟩ msg) s = .next u ∧
      SameBut [.drifts, .net] s1 u ∧ (m = d.pred → (u.drift slot).readyPred = true ∧ (u.drift slot).beatPred = s1.now) ∧
      (m = d.succ → (u.drift slot).readySucc = true ∧ (u.drift slot).landingAddr = BitVec.ofNat 64 (fieldAt b 24 8) ∧
        (u.drift slot).landingStride = BitVec.ofNat 64 (fieldAt b 32 8) ∧
        (u.drift slot).landingKey = BitVec.ofNat 32 (fieldAt b 40 4)))) ∧
  (∀ (s : State) (slot : Nat) (d : Drift), slot < s.drifts.length → s.drift slot = d →
    ((d.state = .armed ∨ d.state = .ready) → d.takeover ≤ s.clk.ptp + 20000 →
      (d.sentReady = true → d.readyPred = true → d.readySucc = true → exec (.driftReadyDeadline slot) s = .next s) ∧
      (¬ (d.sentReady = true ∧ d.readyPred = true ∧ d.readySucc = true) → ∃ m, exec (.driftReadyDeadline slot) s =
        .next (s.detectAbort slot Reason.driftNotReady (some m)) ∧ (d.sentReady = false → m ≤ d.member) ∧ (d.readyPred = false → m ≤ d.pred) ∧
        (d.readySucc = false → m ≤ d.succ))) ∧
    (d.state ≠ .idle → d.state ≠ .writing → d.sentReady = true → d.beatSent + 8000 ≤ s.now → s.clk.ptp < d.release →
      ∃ u : State, exec (.driftBeatSend slot) s = .next u ∧ u.drift slot = { d with beatSent := s.now } ∧ SameBut [.drifts, .net] s u ∧
        ∀ m j, (m = d.pred ∨ m = d.succ) → (s.ringMembers d.ring)[m]? = some j → s.rts (s.nodeQp j) = true →
          ∃ x ∈ u.net.egress, x.qp = s.nodeQp j ∧ x.ops = [.send d.beatBytes]) ∧
    (d.state ≠ .idle → d.readyPred = true → d.beatPred + 24000 ≤ s.now → s.clk.ptp ≤ d.release →
      ∃ v : State, exec (.driftBeatSilence slot .predecessor) s = .next (v.detectAbort slot Reason.driftMemberSilent (some d.pred)) ∧
        SameBut [.counters] s v ∧ v.counter Ctr.beatMiss = min (s.counter Ctr.beatMiss + 1) (2 ^ 64 - 1)) ∧
    (d.readyPred = false → exec (.driftBeatSilence slot .predecessor) s = .next s)) ∧
  (∀ (s s1 : State) (qp psn slot : Nat) (msg b : List Byte), s.receiveRaw qp psn msg = (some b, s1) → b.length = 16 → zeroAt b 3 13 = true →
    s1.passOf (fieldAt b 0 2) = some slot → s1.fromMember (s1.drift slot) (fieldAt b 2 1) qp = true →
    let d := s1.drift slot
    ∃ u : State, exec (.driftBeatRecv ⟨qp, psn⟩ msg) s = .next u ∧ SameBut [.drifts] s1 u ∧
      u.drift slot = { d with beatPred := if fieldAt b 2 1 = d.pred then s1.now else d.beatPred
                              beatSucc := if fieldAt b 2 1 = d.succ then s1.now else d.beatSucc }) ∧
  (∀ (s s1 : State) (qp psn : Nat) (msg b : List Byte) (a : Abort), s.receiveRaw qp psn msg = (some b, s1) → Abort.parse b = some a →
    (∀ m ∈ s1.aborts, ¬ (m.ring = a.ring ∧ m.takeover = a.takeover)) →
    let hit := s1.drifts.findIdx? fun d => d.state != .idle && d.ring == a.ring && d.takeover == a.takeover
    let noted := fun (u : State) => ∃ m ∈ u.aborts, m.ring = a.ring ∧ m.takeover = a.takeover ∧ m.reason = a.reason
    let late := fun (u : State) => u.counter Ctr.driftAbortLate = min (s1.counter Ctr.driftAbortLate + 1) (2 ^ 64 - 1)
    (hit = none → (a.ring, a.takeover) ∉ s1.released → ∃ u : State, exec (.driftAbortRecv ⟨qp, psn⟩ msg) s = .next u ∧
      SameBut [.aborts] s1 u ∧ noted u) ∧
    (hit = none → (a.ring, a.takeover) ∈ s1.released → ∃ u : State, exec (.driftAbortRecv ⟨qp, psn⟩ msg) s = .next u ∧
      SameBut [.aborts, .counters] s1 u ∧ noted u ∧ late u) ∧
    (∀ slot, hit = some slot → s1.clk.ptp ≤ (s1.drift slot).release → s1.lowerAbort slot a.origin = false →
      ∃ u : State, exec (.driftAbortRecv ⟨qp, psn⟩ msg) s = .next u ∧ u.drifts = setAt s1.drifts slot {} ∧ noted u) ∧
    (∀ slot, hit = some slot → s1.clk.ptp ≤ (s1.drift slot).release → s1.lowerAbort slot a.origin = true →
      ∃ u : State, exec (.driftAbortRecv ⟨qp, psn⟩ msg) s = .next u ∧ SameBut [.counters] s1 u) ∧
    (∀ slot, hit = some slot → s1.clk.ptp > (s1.drift slot).release → ∃ u : State, exec (.driftAbortRecv ⟨qp, psn⟩ msg) s = .next u ∧
      SameBut [.aborts, .counters] s1 u ∧ noted u ∧ late u)) ∧
  (∀ (s : State) (ring takeover : Nat), ∃ u : State, exec (.driftAbortForget ring takeover) s = .next u ∧ SameBut [.aborts] s u ∧
    ∀ m, m ∈ u.aborts ↔ m ∈ s.aborts ∧ ¬ (m.ring = ring ∧ m.takeover = takeover ∧ m.at_ + 2000000000 ≤ s.now))

/-- The steps of a pass. DRIFT_STEP_START (R338): at T0 a READY pass runs step 0, and at the start of the next step a pass that is not
late runs it. DRIFT_ACCUM_DONE (R341): the step's accumulation is complete. DRIFT_BLOCK_LAND (R340): the block expected next, with every
SEAL good, is verified; any other, or a bad SEAL, aborts the pass. DRIFT_WINDOW_CLOSE (R341): what is late at the close aborts the pass;
after the last step it holds. DRIFT_RELEASE (R349, R350): at T_rel every record of 4,096 rows is written to the result target in turn.
DRIFT_RESULT_ACKED (R351): with the last acknowledgement the slot is IDLE and the arm is answered OK. DRIFT_RESULT_DEADLINE (R351). -/
def Obligations.DriftSteps : Prop :=
  (∀ (s : State) (slot : Nat) (d : Drift) (l : Layout), slot < s.drifts.length → s.drift slot = d → s.layout d.layout = some l →
    (d.state = .ready → d.takeover ≤ s.clk.ptp → ∃ v : State, exec (.driftStepStart slot) s = .next (v.foreseeStep slot) ∧
      (v.drift slot).state = .running ∧ (v.drift slot).step = 0 ∧ SameBut [.attn, .drifts] s v) ∧
    (d.state = .running → d.step + 1 < d.members → d.start (d.step + 1) ≤ s.clk.ptp → d.late = none →
      ∃ v : State, exec (.driftStepStart slot) s = .next (v.foreseeStep slot) ∧ (v.drift slot).state = .running ∧
        (v.drift slot).step = d.step + 1 ∧ SameBut [.attn, .drifts] s v) ∧
    ((d.step < d.accumulated ∨ s.clk.ptp + s.accumNs d l + 500 ≤ d.start (d.step + 1)) → s.foreseeStep slot = s) ∧
    (d.accumulated ≤ d.step → d.start (d.step + 1) < s.clk.ptp + s.accumNs d l + 500 →
      s.foreseeStep slot = s.detectAbort slot Reason.driftComputeLate) ∧
    (d.accIssued = true → d.accLeft = 0 → ∃ u : State, exec (.driftAccumDone slot) s = .next u ∧ SameBut [.attn, .drifts] s u ∧
      (u.drift slot).accumulated = d.accumulated + 1 ∧ (u.drift slot).sums = d.sums) ∧
    (d.state = .running → d.start (d.step + 1) ≤ s.clk.ptp + 500 →
      (∀ r, d.late = some r → exec (.driftWindowClose slot) s = .next (s.detectAbort slot r)) ∧
      (d.late = none → d.step + 1 = d.members → ∃ u : State, exec (.driftWindowClose slot) s = .next u ∧ SameBut [.drifts] s u ∧
        u.drift slot = { d with state := .holding }) ∧
      (d.late = none → d.step + 1 ≠ d.members → exec (.driftWindowClose slot) s = .next s)) ∧
    (d.late = (if d.accumulated ≤ d.step then some Reason.driftComputeLate
      else if d.step + 2 ≤ d.members ∧ d.step ∉ d.sent then some Reason.driftSendLate
      else if d.step + 2 ≤ d.members ∧ d.step ∉ d.verified then some Reason.driftBlockLate else none)) ∧
    (∀ q, d.state = .holding → d.release ≤ s.clk.ptp → s.driftQp d = some q → s.rts q = true →
      let n := ceilDiv d.sums.length 4096
      ∃ (u : State) (ms : List Msg), exec (.driftRelease slot) s = .next u ∧ u.net.egress = s.net.egress ++ ms ∧ ms.length = n ∧
        (u.drift slot).state = .writing ∧ (u.drift slot).resultsLeft = n ∧ SameBut [.net, .drifts, .drawn] s u ∧
        ∀ k < n, ∃ (m : Msg) (imm : W32), ms[k]? = some m ∧ m.qp = q ∧
          m.ops = [.write (BitVec.ofNat 64 (d.target.toNat + k * driftRecordSize d.mode l.valueLen)) d.key (s.driftRecord d l k) (some imm)]) ∧
    (∀ ctx, d.state = .writing → d.cmd = some ctx →
      let n := (s.net.acked.filter (· == .driftResult slot)).length
      (n < d.resultsLeft → ∃ u : State, exec (.driftResultAcked slot) s = .next u ∧ SameBut [.net, .drifts] s u ∧
        u.drift slot = { d with resultsLeft := d.resultsLeft - n }) ∧
      (d.resultsLeft ≤ n → ∃ v : State, exec (.driftResultAcked slot) s = .next (v.finish ctx (Ans.ok)) ∧
        v.drifts = setAt s.drifts slot {} ∧ (d.ring, d.takeover) ∈ v.released ∧ v.counter Ctr.driftDone = min (s.counter Ctr.driftDone + 1) (2 ^ 64 - 1))) ∧
    (∀ ctx, d.state ≠ .idle → d.cmd = some ctx → d.release + 1000 * d.windowUs ≤ s.clk.ptp →
      ∃ v : State, exec (.driftResultDeadline slot) s = .next (v.finish ctx (Ans.miss Reason.driftResultLate)) ∧
        v.drifts = setAt s.drifts slot {} ∧ (d.ring, d.takeover) ∈ v.released)) ∧
  (∀ (s : State) (qp slot : Nat) (imm : W32) (l : Layout), s.passOf (imm.toNat / 65536) = some slot →
    s.fromMember (s.drift slot) (s.drift slot).pred qp = true →
    (s.abortable (s.drift slot) = false → exec (.driftBlockLand qp imm) s = .next (s.bump Ctr.immIgnored)) ∧ (s.abortable (s.drift slot) = true →
    s.layout (s.drift slot).layout = some l →
    let d := s.drift slot
    let n := bits imm.toNat 15 10
    let j := bits imm.toNat 9 4
    let fs := (d.landingFrames.getD (n % 2) []).take (d.blockPages l j)
    let good := n = d.verified.length ∧ n + 2 ≤ d.members ∧ j = (d.member + 2 * d.members - 1 - n) % d.members ∧ bits imm.toNat 3 0 = 0
    (¬ good → exec (.driftBlockLand qp imm) s = .next (s.detectAbort slot Reason.driftBlockCheck)) ∧
    let sealed_ := ∀ f ∈ fs, sealOk (s.readFrame .hot f 0 Config.frameBytes) = true
    let clean := s.Quiet ∧ ∀ f ∈ fs, s.CleanFrame .hot f
    (good → clean → sealed_ → ∃ u : State, exec (.driftBlockLand qp imm) s = .next u ∧ (u.drift slot).verified = d.verified ++ [n] ∧
      SameBut [.attn, .drifts, .net] s u) ∧
    (good → clean → ¬ sealed_ → ∃ v : State, exec (.driftBlockLand qp imm) s = .next (v.detectAbort slot Reason.driftBlockCheck) ∧
      v.counter Ctr.sealCheckFail = min (s.counter Ctr.sealCheckFail +
        (fs.filter fun f => !sealOk (s.readFrame .hot f 0 Config.frameBytes)).length) (2 ^ 64 - 1) ∧
      (s.blocks.length = 24 → (v.blockAt Blk.hot).checkFail = true) ∧ SameBut [.counters, .blocks, .events, .pins] s v))) ∧
  (∀ (s : State) (qp : Nat) (imm : W32), s.passOf (imm.toNat / 65536) = none → ∃ u : State, exec (.driftBlockLand qp imm) s = .next u ∧
    SameBut [.counters] s u)

/-! ## Kept results, layouts and modifier programs -/

/-- A fetch or release that nothing of its cycle goes ahead of (R390). RESULT_FETCH (R387, R388): an ended request with a kept result is answered with its own status and parameters, and the result goes to
the item named, which needs room for it; one in progress is NOT_READY; an unknown one is GONE. RESULT_RELEASE (R389): the record of an ended
request is released. RECORD_KEEP_EXPIRY (R382, R386): a record whose keep time has passed expires. LAYOUT_DEFINE (R59, R60): a
well-formed layout that fits a frame takes its slot, unless the slot is in use. MODIFIER_LOAD (R213, R214, R215): a well-formed program takes
its slot and the reply carries its tag; slot 0 and a slot in use are refused. -/
def Obligations.KeptResultsAndTables : Prop :=
  (∀ (s t : State) (c d : Cmd) (ctx : CmdCtx), s.Accepts 0x0305 c d ctx t → d.payload.length = 16 →
    t.resultAhead d ctx = false →
    let it := resultItemAt d.payload 0
    itemFits ctx.src it 0 = true →
    (t.record ctx.subscriber d.hdr.param0 = none → exec (.resultFetch c) s = .next (t.finish ctx (Ans.gone Reason.unknownRequest))) ∧
    (∀ rc, t.record ctx.subscriber d.hdr.param0 = some rc → rc.state = .inProgress → ∃ (v : State) (e : Nat),
      exec (.resultFetch c) s = .next (v.finish ctx { status := Status.notReady, reason := Reason.requestInProgress, p0 := e }) ∧ 1 ≤ e ∧
      SameBut [.drawn] t v) ∧
    (∀ rc rp, t.record ctx.subscriber d.hdr.param0 = some rc → rc.state = .ended → rc.reply = some rp → rc.kept ≠ [] →
      (itemFits ctx.src it rc.kept.length = false → exec (.resultFetch c) s = .next (t.finish ctx (Ans.param Reason.resultSpace))) ∧
      (itemFits ctx.src it rc.kept.length = true → ∃ v : State, exec (.resultFetch c) s = .next (v.finish ctx
          { status := rp.status, reason := rp.reason, p0 := rp.param0.toNat, p1 := rp.param1.toNat, result := rc.kept, item := it
            again := rc.resultDelivered }) ∧
        v.record ctx.subscriber d.hdr.param0 = some { rc with delivered := true, resultDelivered := true } ∧ SameBut [.net] t v))) ∧
  (∀ (s t : State) (c d : Cmd) (ctx : CmdCtx) (rc : Record), s.Accepts 0x0306 c d ctx t → d.payload = [] →
    t.resultAhead d ctx = false → t.record ctx.subscriber d.hdr.param0 = some rc →
    (rc.state = .inProgress → exec (.resultRelease c) s = .next (t.finish ctx (Ans.state Reason.resultInProgress))) ∧
    (rc.state = .ended → ∃ v : State, exec (.resultRelease c) s = .next (v.finish ctx (Ans.ok)) ∧ SameBut [.net, .tiers, .mem] t v ∧
      v.record ctx.subscriber d.hdr.param0 = some { rc with state := .released, reply := none, kept := [], keptFrames := [] })) ∧
  (∀ (s : State) (sub : Nat) (id : W64) (rc : Record), s.record sub id = some rc → rc.state = .ended →
    (s.now < rc.keepUntil → exec (.recordKeepExpiry sub id) s = .next s) ∧
    (rc.keepUntil ≤ s.now → ∃ u : State, exec (.recordKeepExpiry sub id) s = .next u ∧ SameBut [.net, .tiers] s u ∧
      u.record sub id = some { rc with state := .expired, reply := none, kept := [], keptFrames := [] })) ∧
  (∀ (s t : State) (c d : Cmd) (ctx : CmdCtx), s.Accepts 0x0307 c d ctx t → Layout.recordOk d.payload = true →
    let l := Layout.decode d.payload
    (Config.dataBytes < l.pageBytes → exec (.layoutDefine c) s = .next (t.finish ctx (Ans.param Reason.layoutTooLarge))) ∧
    (l.pageBytes ≤ Config.dataBytes → t.layoutInUse d.hdr.targetId.toNat = true →
      exec (.layoutDefine c) s = .next (t.finish ctx (Ans.state Reason.layoutInUse))) ∧
    (l.pageBytes ≤ Config.dataBytes → t.layoutInUse d.hdr.targetId.toNat = false →
      ∃ v : State, exec (.layoutDefine c) s = .next (v.finish ctx (Ans.ok)) ∧ v.layout d.hdr.targetId.toNat = some l ∧
        (∀ k, k ≠ d.hdr.targetId.toNat → v.layout k = t.layout k) ∧ SameBut [.attn] t v)) ∧
  (∀ (s t : State) (c d : Cmd) (ctx : CmdCtx), s.Accepts 0x0308 c d ctx t → Modifier.recordOk d.payload = true →
    let m := Modifier.decode d.payload
    let n := d.hdr.targetId.toNat
    (n = 0 → exec (.modifierLoad c) s = .next (t.finish ctx (Ans.param Reason.modifierSlot))) ∧
    (n ≠ 0 → t.modifierInUse n = true → exec (.modifierLoad c) s = .next (t.finish ctx (Ans.state Reason.modifierInUse))) ∧
    (n ≠ 0 → t.modifierInUse n = false → ∃ v : State, exec (.modifierLoad c) s = .next (v.finish ctx (Ans.ok m.tag.toNat)) ∧
      v.modifier n = some m ∧ (∀ k, k ≠ n → v.modifier k = t.modifier k) ∧ SameBut [.attn] t v))

/-! ## Regions -/

/-- Commands whose turn has come at the arbiter (R519). REGION_CREATE (R433, R515): the region has its frames, its owner is the requester's subscriber and it is LIVE. REGION_REGISTER (R483):
the reply carries a new remote key and the base address. REGION_REVOKE (R485, R486): the key's index is free under its next generation, and
the messages admitted under it are waited for. REVOKE_COMPLETE (R486): when none is left the reply is OK with the sequence number.
REVOKE_DEADLINE (R487): at the deadline the QPs of those that are left are out of RTS, and the reply is OK. -/
def Obligations.RegionsAndKeys : Prop :=
  (∀ (s t : State) (c d : Cmd) (ctx : CmdCtx), s.Accepts 0x0401 c d ctx t → t.ArbiterFree d ctx.src →
    let id := d.hdr.targetId
    let b := d.payload
    let tier := if fieldAt b 1 1 = 1 then Tier.warm else Tier.hot
    (regionIdOk id = false → exec (.regionCreate c) s = .next (t.finish ctx (Ans.param Reason.regionIdForm))) ∧
    (regionIdOk id = true → createOk b = true → (∃ r, t.region id = some r) →
      ∃ k, exec (.regionCreate c) s = .next (t.finish ctx (Ans.state Reason.regionState k))) ∧
    (regionIdOk id = true → createOk b = true → t.region id = none → t.regions.regions.length < 16384 → t.regs.warmAdmitMark ≤ t.avail .warm →
      ceilDiv (fieldAt b 8 8) 65536 ≤ t.allocatable tier →
      ∃ (v : State) (r : Region), exec (.regionCreate c) s = .next (v.finish ctx (Ans.ok)) ∧ v.region id = some r ∧
        r.window = (fieldAt b 0 1 == 1) ∧ r.tier = tier ∧ r.length = fieldAt b 8 8 ∧ r.owner = ctx.subscriber ∧ r.state = .live ∧
        r.slots = fieldAt b 4 2 ∧ r.slotBytes = 2 ^ fieldAt b 2 1 ∧ r.frames.length = ceilDiv (fieldAt b 8 8) 65536 ∧
        (∀ k, k ≠ id → v.region k = t.region k) ∧ SameBut [.tiers, .mem, .regions, .drawn] t v)) ∧
  (∀ (s t : State) (c d : Cmd) (ctx : CmdCtx) (base : W64), s.Accepts 0x0402 c d ctx t → t.ArbiterFree d ctx.src → d.payload = [] →
    t.registerable d.hdr.targetId (bit d.hdr.p0 0) = .ok base →
    (65536 ≤ t.regions.keys.length → exec (.regionRegister c) s = .next (t.finish ctx (Ans.throttled Reason.keyTableFull 1000))) ∧
    (t.regions.keys.length < 65536 → ∃ (v : State) (i : Nat), exec (.regionRegister c) s = .next (v.finish ctx (Ans.ok
        (i * 256 + Table.getD t.regions.keyGens i 0) base.toNat)) ∧ SameBut [.regions, .drawn] t v ∧
      v.regions.keys = Table.set t.regions.keys i { region := d.hdr.targetId, write := bit d.hdr.p0 0, read := bit d.hdr.p0 1 })) ∧
  (∀ (s t : State) (c d : Cmd) (ctx : CmdCtx) (k : Key), s.Accepts 0x0403 c d ctx t → t.ArbiterFree d ctx.src → d.payload = [] →
    (∀ a, t.revokeRefusal d.hdr.targetId = some a → exec (.regionRevoke c) s = .next (t.finish ctx a)) ∧
    (t.revokeRefusal d.hdr.targetId = none → Table.get t.regions.keys (d.hdr.p0 / 256) = some k →
    let i := d.hdr.p0 / 256
    (k.region ≠ d.hdr.targetId ∨ t.keyOf i ≠ d.hdr.p0 → exec (.regionRevoke c) s = .next (t.finish ctx (Ans.param Reason.keyUnknown))) ∧
    (k.region = d.hdr.targetId → t.keyOf i = d.hdr.p0 → ∃ u : State, exec (.regionRevoke c) s = .next u ∧ SameBut [.regions] t u ∧
      Table.get u.regions.keys i = none ∧ Table.getD u.regions.keyGens i 0 = (Table.getD t.regions.keyGens i 0 + 1) % 256 ∧
      Table.get u.regions.revokes (t.regions.revokeSeq + 1) = some
        { sequence := t.regions.revokeSeq + 1, ctx := some ctx, region := d.hdr.targetId, number := t.keyOf i, waits := t.admittedUnder i }))) ∧
  (∀ (s : State) (id : W64),
    (∀ r, s.region id = some r → s.revokeRefusal id = (if r.state = .poisoned then some Ans.poisoned else if r.state = .closing then
      some (regionStateAns .closing) else none)) ∧
    (s.region id = none → s.version id = none → s.revokeRefusal id = some (unknownId id))) ∧
  (∀ (s : State) (n : Nat) (v : Revoke) (ctx : CmdCtx), Table.get s.regions.revokes n = some v → v.sequence = n → v.ctx = some ctx →
    (∀ r, s.region v.region = some r → r.state ≠ .closing) →
    (v.waits ≠ [] → exec (.revokeComplete n) s = .next s) ∧
    (v.waits = [] → ∃ w : State, exec (.revokeComplete n) s = .next (w.finish ctx (Ans.ok n)) ∧ SameBut [.regions] s w ∧
      Table.get w.regions.revokes n = none) ∧
    (s.now < ctx.deadline → exec (.revokeDeadline n) s = .next s) ∧
    (ctx.deadline ≤ s.now → ∃ w : State, exec (.revokeDeadline n) s = .next ((w.finish ctx (Ans.ok n)).settleRegion v.region) ∧
      (∀ q ∈ v.waits, w.rts q = false) ∧ Table.get w.regions.revokes n = none))

/-- REGION_PUBLISH in its turn at the arbiter (R519, R523, R601): a publication that no check refuses takes its place in the NAME's order with its frames and its content.
PUBLISH_COPY_DONE (R523, R524, R526), where no other publication of the NAME waits: a NAME that holds a version of the same digest answers
OK with that version, counted, and attaches the publisher; one of another digest answers VERSION_CONFLICT; a free NAME gets a new version
with the digest and length of the content, LOADING. PUBLISH_TWINNED (R523, R526): with every twin write acknowledged the version is
PUBLISHED, the publisher attached, and the reply carries handle and digest. PUBLISH_TIMEOUT (R525): the version is gone. -/
def Obligations.Publishing : Prop :=
  (∀ (s t : State) (c d : Cmd) (ctx : CmdCtx), s.Accepts 0x0404 c d ctx t → t.ArbiterFree d ctx.src →
    let b := d.payload
    (∀ a v, t.publishRefusal d = some (a, v) → exec (.regionPublish c) s = .next (v.finish ctx a)) ∧
    (∀ r, t.publishRefusal d = none → t.region (BitVec.ofNat 64 (fieldAt b 0 8)) = some r →
      t.checkRegion (BitVec.ofNat 64 (fieldAt b 0 8)) r (fieldAt b 8 8) (fieldAt b 16 8) = (true, t) →
      ∃ (u : State) (p : Publication), exec (.regionPublish c) s = .next u ∧
        u.regions.pubs = Table.set t.regions.pubs t.regions.nextPub p ∧ p.ctx = ctx ∧ p.name = d.hdr.targetId ∧
        p.content = fieldAt b 24 1 ∧ p.wrapped = (fieldAt b 25 1 == 1) ∧ p.copied = false ∧ p.handle = none ∧
        p.bytes = u.readRegion r (fieldAt b 8 8) (fieldAt b 16 8) ∧ p.frames.length = ceilDiv (fieldAt b 16 8) 65536 ∧
        u.regions.versions = t.regions.versions ∧ u.convs = t.convs)) ∧
  (∀ (s : State) (k : Nat) (p : Publication), Table.get s.regions.pubs k = some p → p.copied = false → p.handle = none → p.wrapped = false →
    p.content = 0 → (s.regions.pubs.filter fun e => e.2.name == p.name) = [(k, p)] →
    let dg := sha p.bytes
    let h := handleOf dg
    (∀ x v, x < 2 ^ 64 → Table.get s.regions.names p.name.toNat = some x → Table.get s.regions.versions x = some v →
      (v.digest ≠ dg → ∃ w : State, exec (.publishCopyDone k) s = .next (w.finish p.ctx
        { status := Status.versionConflict, reason := Reason.publishConflict, p0 := x, p1 := fieldAt v.digest 0 8 }) ∧
        w.regions.versions = s.regions.versions) ∧
      (v.digest = dg → v.content = 0 → v.state ≠ .poisoned → ∃ w : State, exec (.publishCopyDone k) s = .next (w.finish p.ctx
        (Ans.ok x (fieldAt dg 0 8))) ∧ w.counter Ctr.publishDedup = min (s.counter Ctr.publishDedup + 1) (2 ^ 64 - 1) ∧
        Table.get w.regions.versions x = some { v with subscribers := Table.set v.subscribers p.ctx.subscriber s.leaseEnd })) ∧
    (Table.get s.regions.names p.name.toNat = none → s.version h = none → s.regions.versions.length < 4096 →
      s.regions.names.length < 4096 → ∃ (u : State) (v : Version),
      exec (.publishCopyDone k) s = .next u ∧ u.version h = some v ∧ v.digest = dg ∧ v.length = p.bytes.length ∧ v.state = .loading ∧
      v.frames.length = ceilDiv p.bytes.length 65536 ∧ Table.get u.regions.names p.name.toNat = some h.toNat ∧ u.convs = s.convs)) ∧
  (∀ (s : State) (k : Nat) (p : Publication) (h : W64) (v : Version), Table.get s.regions.pubs k = some p → p.handle = some h →
    s.version h = some v → v.state ≠ .poisoned → (s.regions.pubs.filter fun e => e.2.name == p.name) = [(k, p)] →
    let n := (s.net.acked.filter (· == .publish k)).length
    (n < v.unackedTwin → ∃ u : State, exec (.publishTwinned k) s = .next u ∧ SameBut [.net, .regions] s u ∧
      u.version h = some { v with unackedTwin := v.unackedTwin - n }) ∧
    (v.unackedTwin ≤ n → ∃ (w : State) (y : Version), exec (.publishTwinned k) s = .next (w.finish p.ctx
      (Ans.ok h.toNat (fieldAt v.digest 0 8))) ∧ w.version h = some y ∧ y.state = .published ∧ y.digest = v.digest ∧
      Table.get y.subscribers p.ctx.subscriber = some s.leaseEnd ∧ Table.get w.regions.pubs k = none)) ∧
  (∀ (s : State) (k : Nat) (p : Publication), Table.get s.regions.pubs k = some p →
    (s.now < p.ctx.deadline → exec (.publishTimeout k) s = .next s) ∧
    (p.ctx.deadline ≤ s.now → (s.regions.pubs.filter fun e => e.2.name == p.name) = [(k, p)] →
      ∃ w : State, exec (.publishTimeout k) s = .next (w.finish p.ctx (Ans.miss Reason.publishTimeout)) ∧
        Table.get w.regions.pubs k = none ∧ ∀ h, p.handle = some h → w.version h = none))

/-- In its turn at the arbiter (R519), REGION_ATTACH of a subscriber (R531, R532), of a conversation (R533) and of a prefix that ends at a page boundary (R535): the version
counts the attachment, an attached prefix makes its length every layer's COMMITTED. REGION_DETACH (R532, R536, R518): the attachment goes,
and a mutable region of the requester without keys is freed. ATTACH_LEASE_EXPIRY (R532, R539): an attachment whose time has passed goes,
unless a region-group command that names the version waits in the same cycle, and a version without attachments and references is freed. PREFIX_LOOKUP (R547): a match is a PUBLISHED version of that model and chunk
size whose token identifiers are the first ones given; without an indexed version there is none. -/
def Obligations.Attachments : Prop :=
  (∀ (s t : State) (c d : Cmd) (ctx : CmdCtx) (v : Version), s.Accepts 0x0405 c d ctx t → t.ArbiterFree d ctx.src → d.payload = [] →
    t.version d.hdr.targetId = some v → v.state = .published →
    let h := d.hdr.targetId
    (d.hdr.p0 = 0 → ∃ (w : State) (y : Version), exec (.regionAttach c) s = .next (w.finish ctx (Ans.ok y.count)) ∧
      y = { v with subscribers := Table.set v.subscribers ctx.subscriber (t.now + 1000000 * t.regs.attachLeaseMs) } ∧
      w.version h = some y ∧ SameBut [.regions] t w) ∧
    (∀ x l, d.hdr.p0 ≠ 0 → t.AtGate d.hdr.p0 x openOrSealed ctx.src → t.layout x.layout = some l → h ∉ x.attached → x.attached.length < 64 →
      v.content ≠ 2 → ∃ (w : State) (y : Conv) (z : Version), exec (.regionAttach c) s = .next (w.finishTwinned d.hdr.p0 y ctx (Ans.ok z.count)) ∧
        y = { x with attached := x.attached ++ [h] } ∧ w.conv d.hdr.p0 = some y ∧ w.version h = some z ∧
        d.hdr.p0 ∈ z.conversations ∧ SameBut [.regions, .convs] t w) ∧
    (∀ x l, d.hdr.p0 ≠ 0 → t.AtGate d.hdr.p0 x openOrSealed ctx.src → t.layout x.layout = some l → h ∉ x.attached → x.attached.length < 64 →
      v.content = 2 → x.state = .opened → (∀ n ∈ x.committed, n = 0) → x.passed = [] → x.prefixHandle = none → x.layout = v.layout →
      v.tokens % l.tokens = 0 → ∃ (w : State) (y : Conv) (n : Nat), exec (.regionAttach c) s =
        .next (w.finishTwinned d.hdr.p0 y ctx (Ans.ok n)) ∧ y.committed = x.committed.map (fun _ => v.tokens) ∧
        y.prefixHandle = some h ∧ h ∈ y.attached ∧ w.conv d.hdr.p0 = some y)) ∧
  (∀ (s t : State) (c d : Cmd) (ctx : CmdCtx), s.Accepts 0x0406 c d ctx t → t.ArbiterFree d ctx.src → d.payload = [] →
    let h := d.hdr.targetId
    (∀ v e, t.region h = none → t.version h = some v → v.state ≠ .loading → d.hdr.p0 = 0 → Table.get v.subscribers ctx.subscriber = some e →
      let y := { v with subscribers := Table.erase v.subscribers ctx.subscriber }
      ∃ w : State, exec (.regionDetach c) s = .next (w.finish ctx (Ans.ok y.count)) ∧ w.version h = (if y.idle then none else some y)) ∧
    (∀ v x, t.region h = none → t.version h = some v → v.state ≠ .loading → d.hdr.p0 ≠ 0 → t.AtGate d.hdr.p0 x openOrSealed ctx.src →
      h ∈ x.attached → x.prefixHandle ≠ some h → ∃ (w : State) (y : Conv) (n : Nat), exec (.regionDetach c) s =
        .next (w.finishTwinned d.hdr.p0 y ctx (Ans.ok n)) ∧ w.conv d.hdr.p0 = some y ∧ y.attached = x.attached.filter (· != h) ∧
        y.committed = x.committed) ∧
    (∀ r, t.region h = some r → r.owner ≠ ctx.subscriber → exec (.regionDetach c) s = .next (t.finish ctx (Ans.denied Reason.regionOwner))) ∧
    (∀ r, t.region h = some r → r.owner = ctx.subscriber → r.state ≠ .closing → (∀ k ∈ t.regions.keys, k.2.region ≠ h) →
      (∀ v ∈ t.regions.revokes, v.2.region ≠ h) → ∃ w : State, exec (.regionDetach c) s = .next (w.finish ctx (Ans.ok)) ∧
        w.region h = none ∧ (∀ k, k ≠ h → w.region k = t.region k) ∧ SameBut [.regions, .tiers] t w)) ∧
  (∀ (s : State) (h sub e : Nat) (v : Version), Table.get s.regions.versions h = some v → Table.get v.subscribers sub = some e →
    let y := { v with subscribers := Table.erase v.subscribers sub }
    (s.now < e → exec (.attachLeaseExpiry h sub) s = .next s) ∧
    (s.renewalAhead h = true → exec (.attachLeaseExpiry h sub) s = .next s) ∧
    (e ≤ s.now → s.renewalAhead h = false → ∃ u : State, exec (.attachLeaseExpiry h sub) s = .next u ∧
      Table.get u.regions.versions h = (if y.idle && y.state != .loading then none else some y) ∧
      u.counter Ctr.attachExpired = min (s.counter Ctr.attachExpired + 1) (2 ^ 64 - 1) ∧ u.convs = s.convs)) ∧
  (∀ (s t : State) (c d : Cmd) (ctx : CmdCtx), s.Accepts 0x040B c d ctx t → t.Quiet →
    let b := d.payload
    let chunk := fieldAt b 0 2
    let n := fieldAt b 2 2
    chunk ∈ [16, 32, 64, 128] → 1 ≤ n → n ≤ 4096 → zeroAt b 4 4 = true → b.length = 8 + 4 * n * chunk →
    ∃ (v : State) (p0 p1 : Nat), exec (.prefixLookup c) s = .next (v.finish ctx (Ans.ok p0 p1)) ∧ SameBut [.counters] t v ∧ p1 ≤ n ∧
      (p1 = 0 → p0 = 0) ∧ ((∀ e ∈ t.regions.versions, e.2.cam = none) → p1 = 0) ∧
      (p1 ≠ 0 → ∃ e ∈ t.regions.versions, p0 = e.1 % 2 ^ 64 ∧ e.2.state = .published ∧ e.2.modelId = d.hdr.targetId ∧ e.2.chunk = chunk ∧
        e.2.tokenIds = (b.drop 8).take (4 * chunk * p1)))

/-! ## Near-memory work -/

/-- NEAR_FILL, NEAR_COPY, NEAR_COMPARE and NEAR_REDUCE (R432, R435, R519, R520, R543): in its turn at the arbiter a command that no check refuses is queued under the next
number. NEAR_COMMAND_START (R520, R541): it starts once no lower command overlaps it; one foreseen late ends. NEAR_COMMAND_DONE (R542,
R544): a fill stores its pattern, a copy the bytes of its source, a reduce the combined record, and a compare answers with the first
difference; a record that is refused is counted as at any combine point (R253, R254). NEAR_DEADLINE_CUT (R541): a fill cut at its deadline has stored the granules named and no other. -/
def Obligations.NearMemory : Prop :=
  (∀ (s t : State) (c d : Cmd) (ctx : CmdCtx), t.Quiet → t.ArbiterFree d ctx.src →
    let src := nearSource d
    let queued := fun (i : Instr) (k : NearKind) (n : Nat) => ∃ u : State, exec i s = .next u ∧ SameBut [.regions] t u ∧
      u.regions.near = Table.set t.regions.near (t.regions.nearSeq + 1)
        { ctx := ctx, kind := k, region := d.hdr.targetId, offset := d.hdr.p0, length := n } ∧ u.regions.regions = t.regions.regions
    (s.Accepts 0x0407 c d ctx t → d.payload.length = 8 → t.targetRefusal d.hdr.targetId = none →
      t.rangeOk d.hdr.targetId d.hdr.p0 d.hdr.p1 = true → queued (.nearFill c) (.fill d.payload) d.hdr.p1) ∧
    (s.Accepts 0x0407 c d ctx t → d.payload.length = 8 → t.targetRefusal d.hdr.targetId = none →
      t.rangeOk d.hdr.targetId d.hdr.p0 d.hdr.p1 = false → exec (.nearFill c) s = .next (t.finish ctx (Ans.param Reason.nearRange))) ∧
    (s.Accepts 0x0408 c d ctx t → d.payload.length = 16 → t.targetRefusal d.hdr.targetId = none → t.sourceRefusal src.1 = none →
      t.rangeOk src.1 src.2 d.hdr.p1 = true → t.rangeOk d.hdr.targetId d.hdr.p0 d.hdr.p1 = true →
      queued (.nearCopy c) (.copy src.1 src.2) d.hdr.p1) ∧
    (s.Accepts 0x0409 c d ctx t → d.payload.length = 16 → t.sourceRefusal d.hdr.targetId = none → t.sourceRefusal src.1 = none →
      t.rangeOk d.hdr.targetId d.hdr.p0 d.hdr.p1 = true → t.rangeOk src.1 src.2 d.hdr.p1 = true →
      queued (.nearCompare c) (.compare src.1 src.2) d.hdr.p1) ∧
    (s.Accepts 0x040A c d ctx t → t.reduceRefusal d.hdr.targetId d.hdr.p0 d.payload = none →
      queued (.nearReduce c) (.reduce d.payload) (reduceLen d.payload))) ∧
  (∀ (s : State) (k : Nat) (n : Near), Table.get s.regions.near k = some n → n.own = none → n.running = false →
    ((∃ x ∈ s.regions.near, x.1 < k ∧ n.waitsFor x.2 = true) → exec (.nearCommandStart k) s = .next s) ∧
    ((∀ x ∈ s.regions.near, x.1 < k → n.waitsFor x.2 = false) → (n.reads.flatMap fun r => s.rangeAway r.1 r.2.1 r.2.2) = [] →
      (s.now + s.nearNs n ≤ n.ctx.deadline → ∃ u : State, exec (.nearCommandStart k) s = .next u ∧ SameBut [.regions] s u ∧
        Table.get u.regions.near k = some { n with running := true }) ∧
      (n.ctx.deadline < s.now + s.nearNs n → ∃ v : State, exec (.nearCommandStart k) s = .next (v.finish n.ctx (Ans.miss Reason.nearLate)) ∧
        SameBut [.regions] s v ∧ Table.get v.regions.near k = none))) ∧
  (∀ (s : State) (k : Nat) (n : Near) (r : Region), s.Quiet → Table.get s.regions.near k = some n → n.own = none → n.running = true →
    s.region n.region = some r → r.state = .live → r.frames.Nodup →
    (∀ bs, (∃ p, n.kind = .fill p ∧ bs = fillBytes p n.length) ∨
        (∃ id o, n.kind = .copy id o ∧ s.readRange id o n.length = (.ok bs, s)) ∨
        (∃ rec_ inc old, n.kind = .reduce rec_ ∧ parseFirn rec_ = some inc ∧ s.readRange n.region n.offset (reduceLen rec_) = (.ok old, s) ∧
          reduceTarget s.nodeId old inc = .ok bs) →
      ∃ v : State, exec (.nearCommandDone k) s = .next (v.finish n.ctx (Ans.ok)) ∧ Stored s v r n.offset bs ∧
        SameBut [.regions, .tiers, .mem] s v ∧ Table.get v.regions.near k = none ∧ v.regions.regions = s.regions.regions) ∧
    (∀ rec_ inc old a, n.kind = .reduce rec_ → parseFirn rec_ = some inc →
      s.readRange n.region n.offset (reduceLen rec_) = (.ok old, s) → reduceTarget s.nodeId old inc = .error a →
      ∃ v : State, exec (.nearCommandDone k) s = .next (v.finish n.ctx a) ∧ SameBut [.regions, .counters] s v ∧
        (a.reason = Reason.firnDuplicate → v.counter Ctr.firnDup = min (s.counter Ctr.firnDup + 1) (2 ^ 64 - 1)) ∧
        (a.reason = Reason.firnMismatch → v.counter Ctr.firnMismatch = min (s.counter Ctr.firnMismatch + 1) (2 ^ 64 - 1))) ∧
    (∀ id o x y, n.kind = .compare id o → s.readRange n.region n.offset n.length = (.ok x, s) → s.readRange id o n.length = (.ok y, s) →
      ∃ v : State, exec (.nearCommandDone k) s = .next (v.finish n.ctx (Ans.ok (firstDiff x y 0))) ∧ SameBut [.regions] s v) ∧
    (∀ p ws, n.kind = .fill p → n.ctx.deadline ≤ s.now → ∃ v : State,
      exec (.nearDeadlineCut k ws) s = .next (v.finish n.ctx (Ans.miss Reason.nearLate)) ∧ Table.get v.regions.near k = none ∧
      (∀ i a, i < n.length → r.addr (n.offset + i) = some a → Memory.byte v.tiers.mem a =
        if i / 64 ∈ ws ∧ 64 * (i / 64) + 64 ≤ n.length then p.getD (i % 8) 0 else Memory.byte s.tiers.mem a) ∧
      ∀ a, (∀ i, i < n.length → r.addr (n.offset + i) ≠ some a) → Memory.byte v.tiers.mem a = Memory.byte s.tiers.mem a))

/-! ## Tiers -/

/-- SPILL_TARGET_ADD (R166, R437): a good spill block of a SPILL QP takes the lowest free number, which the reply carries. HOT_EVICT and
WARM_EVICT (R153, R156, R157, R167, R168): the evictor that runs moves the oldest page it may select, to a warm frame or as an image to a
spill slot. PROMOTE_START and PROMOTED_PAGE_HOT_MOVE (R146, R572): the page begins its move to a hot frame. MOVE_SWITCH_POINT (R141): the
page is RESIDENT in the target frame, which holds the bytes of the frame left. SPILL_IMAGE_ACK (R142, R169): the page is SPILLED. -/
def Obligations.TierMoves : Prop :=
  (∀ (s t : State) (c d : Cmd) (ctx : CmdCtx), s.Accepts 0x040C c d ctx t →
    let b := d.payload
    let qp := fieldAt b 32 4 - 2
    let good := spillBlockOk b = true ∧ t.tiers.targets.length < 32 ∧ 2 ≤ fieldAt b 32 4 ∧ fieldAt b 32 4 < Config.qps + 2 ∧ (t.qp qp).kind = .spill
    (¬ good → exec (.spillTargetAdd c) s = .next (t.finish ctx (Ans.param Reason.spillTarget))) ∧
    (good → ∃ (v : State) (n : Nat) (g : SpillTarget), exec (.spillTargetAdd c) s = .next (v.finish ctx (Ans.ok n)) ∧ SameBut [.tiers] t v ∧
      v.tiers.targets = Table.set t.tiers.targets n g ∧ g.qp = qp ∧ g.slots = fieldAt b 12 4 ∧ g.landingSlots = fieldAt b 28 2 ∧
      g.bufferAddr.toNat = fieldAt b 0 8 ∧ g.used = [])) ∧
  (∀ (s : State),
    let run := evictorRuns s.tiers.hotEvicting (s.avail .hot) s.regs.hotEvictStart s.regs.hotEvictStop
    (run = false ∨ s.avail .warm = 0 → ∃ u : State, exec .hotEvict s = .next u ∧ u.tiers.hotEvicting = run ∧ u.tiers.pages = s.tiers.pages ∧
      SameBut [.tiers] s u) ∧
    (∀ pid p, run = true → s.avail .warm ≠ 0 → s.oldestPage .hot (fun _ => true) = some pid → s.page pid = some p →
      ∃ (u : State) (f : Nat), exec .hotEvict s = .next u ∧ SameBut [.tiers, .mem, .drawn] s u ∧
        u.page pid = some { p with state := .moving, moveKind := some .evictHot, targetTier := .warm, targetFrame := f, queued := none
                                   moveStarted := s.now } ∧ (∀ k, k ≠ pid → u.page k = s.page k))) ∧
  (∀ (s : State) (pid target slot : Nat) (p : Page) (g : SpillTarget), s.pickSpill = some (target, slot) →
    evictorRuns s.tiers.warmEvicting (s.avail .warm) s.regs.warmEvictStart s.regs.warmEvictStop = true →
    s.oldestPage .warm (fun p => p.version.isNone && p.users.isEmpty) = some pid → s.page pid = some p →
    Table.get s.tiers.targets target = some g → s.CleanFrame p.tier p.frame → s.rts g.qp = true →
    let x : SpillAt := { target := target, slot := slot, generation := Table.getD g.generations slot 0, count := s.trust.spillCount + 1 }
    ∃ (u : State) (m : Msg), exec .warmEvict s = .next u ∧ SameBut [.tiers, .trust, .net] s u ∧
      u.page pid = some { p with state := .moving, moveKind := some .evictWarm, spill := some x, moveStarted := s.now } ∧
      u.trust.spillCount = s.trust.spillCount + 1 ∧ u.net.egress = s.net.egress ++ [m] ∧ m.qp = g.qp ∧ m.tag = .spill pid ∧
      m.ops = [.write (BitVec.ofNat 64 (g.bufferAddr.toNat + 69632 * slot)) g.bufferKey
        (s.spillImage p x (s.readFrame p.tier p.frame 0 Config.frameBytes)) (some (BitVec.ofNat 32 x.ticket))]) ∧
  (∀ (s : State) (pid : Nat) (p : Page), s.page pid = some p → p.state = .resident →
    (p.tier = .warm → (p.queued = some .promote ∨ p.pinnedBy ≠ []) → s.allocatable .hot ≠ 0 → ∃ (u : State) (f : Nat),
      exec (.promoteStart pid) s = .next u ∧ SameBut [.tiers, .mem, .drawn] s u ∧ u.page pid = some { p with
        state := .moving, moveKind := some .promote, targetTier := .hot, targetFrame := f, queued := none, moveStarted := s.now }) ∧
    (p.awaitsHot = true → s.freeFrames .hot ≠ 0 → ∃ (u : State) (f : Nat), exec (.promotedPageHotMove pid) s = .next u ∧
      SameBut [.tiers, .mem, .drawn] s u ∧ u.page pid = some { p with
        state := .moving, moveKind := some .promote, targetTier := .hot, targetFrame := f, queued := none, moveStarted := s.now })) ∧
  (∀ (s : State) (pid : Nat) (p : Page), s.MoveEnds pid p →
    ((p.moveKind = some .promote ∨ p.moveKind = some .evictHot) → s.CleanFrame p.tier p.frame → ∃ u : State,
      exec (.moveSwitchPoint pid) s = .next u ∧ u.page pid = some (s.moved p) ∧ (∀ k, k ≠ pid → u.page k = s.page k) ∧
      u.readFrame p.targetTier p.targetFrame 0 Config.frameBytes = s.readFrame p.tier p.frame 0 Config.frameBytes ∧
      SameBut [.tiers, .mem, .counters] s u) ∧
    (p.moveKind = some .evictWarm → .spill pid ∈ s.net.acked → ∃ u : State, exec (.spillImageAck pid) s = .next u ∧
      u.page pid = some { p with state := .spilled, moveKind := none, tier := .warm, noFrame := true, touch := s.ageTick } ∧
      u.counter Ctr.evictWarm = min (s.counter Ctr.evictWarm + 1) (2 ^ 64 - 1) ∧ SameBut [.tiers, .net, .counters] s u))

/-- RECALL_START (R170): a spilled page that is wanted gets a warm frame, and a SEND names its spill slot and a free landing slot.
RECALL_LANDING (R171, R172): of the images that have been written to their landing slots, one that opens and whose SEAL holds is the page's content
in that frame; any other image is given up and the page repaired, and a CHECK or a SEAL that fails is noted in CHECK_FAIL (R633). RECALL_TIMEOUT
(R172): after 4 ms the recall is given up and the page repaired. The repair (R175) asks the twin whose QP is up. REPAIR_COPY_LAND (R175, R465): a
good copy is installed, one whose SEAL fails is not, and one that is not the reserved frame's is counted. REPAIR_FETCH (R175): a copy that is held
goes back by RDMA WRITE.
SCRUB_PASS (R618): a frame outside the tier is a fault, and a pass over a clean frame changes nothing. -/
def Obligations.RecallAndRepair : Prop :=
  (∀ (s : State) (pid k : Nat) (p : Page) (x : SpillAt) (g : SpillTarget), s.page pid = some p → p.state = .spilled →
    (p.queued = some .refetch ∨ p.queued = some .promote ∨ p.pinnedBy ≠ []) → p.queued ≠ some .repair → p.spill = some x →
    Table.get s.tiers.targets x.target = some g → (∀ y ∈ s.attn.reqs, pid ∉ y.2.stalls) →
    ((List.range g.landingSlots).find? fun k => !(g.recalls.any fun r => r.1 == k)) = some k → s.avail .warm ≠ 0 → s.rts g.qp = true →
    ∃ (u : State) (y : Page) (m : Msg), exec (.recallStart pid) s = .next u ∧ SameBut [.tiers, .mem, .net, .drawn] s u ∧
      u.page pid = some y ∧ y.state = .moving ∧ y.moveKind = some .refetch ∧ y.targetTier = .warm ∧ y.moveStarted = s.now ∧ y.spill = some x ∧
      u.net.egress = s.net.egress ++ [m] ∧ m.qp = g.qp ∧
      m.ops = [.send (le 4 x.ticket ++ le 4 (Table.getD g.landingGen k 0 * 2 ^ 24 + k) ++ zeros 8)]) ∧
  (∀ (s0 s : State) (qp psn target slot pid : Nat) (tk : W32) (image : List Byte) (p : Page), s0.Quiet → s0.takesCommands = true →
    s0.rts qp = true → (s0.qp qp).kind = .spill → psnClass (s0.qp qp).rqPsn psn = .expected → s0.placeImage qp tk.toNat image = (true, s) →
    s.Quiet → s.recallOf qp tk.toNat = some (target, slot, pid) → s.MoveEnds pid p → p.moveKind = some .refetch →
    match p.spill.bind fun x => s.openImage p x image with
    | none => ∃ v : State, exec (.recallLanding ⟨qp, psn⟩ tk image) s0 = .next (v.recallFailed pid) ∧
        SameBut [.tiers, .net, .counters, .blocks, .events, .pins] s v ∧ (imageCheckOk image = true → SameBut [.tiers, .net] s v) ∧
        (imageCheckOk image = false → s.blocks.length = 24 → (v.blockAt Blk.spill).checkFail = true)
    | some b =>
      if b.length = Config.frameBytes ∧ (s.hasSeal pid p = false ∨ sealOk b = true) then ∃ u : State,
        exec (.recallLanding ⟨qp, psn⟩ tk image) s0 = .next u ∧ u.page pid = some { s.moved p with spill := none } ∧
        u.readFrame p.targetTier p.targetFrame 0 Config.frameBytes = b ∧ SameBut [.tiers, .mem, .net, .counters] s u
      else ∃ v : State, exec (.recallLanding ⟨qp, psn⟩ tk image) s0 = .next (v.recallFailed pid) ∧
        SameBut [.tiers, .net, .counters, .blocks, .events, .pins] s v ∧ (s.blocks.length = 24 → (v.blockAt Blk.hot).checkFail = true)) ∧
  (∀ (s : State) (pid : Nat) (p : Page), s.page pid = some p → p.state = .moving → p.moveKind = some .refetch →
    (s.now < p.moveStarted + 4000000 → exec (.recallTimeout pid) s = .next s) ∧
    (p.moveStarted + 4000000 ≤ s.now → ∃ v : State, exec (.recallTimeout pid) s = .next (v.recallFailed pid) ∧ SameBut [.tiers] s v ∧
      v.page pid = some p)) ∧
  (∀ (s : State) (pid j : Nat) (p : Page), s.page pid = some p → p.moveKind ≠ some .repair → ¬ (p.refs = 0 ∧ p.users = []) → p.twinNode = some j →
    p.state ≠ .poisoned → (∀ y ∈ s.attn.reqs, pid ∉ y.2.stalls) → s.linkUp j = true → s.allocatable (if p.outside then Tier.warm else p.tier) ≠ 0 → ∃ (u : State) (y : Page) (m : Msg), s.repairOrPoison pid = u ∧
      u.page pid = some y ∧ y.state = .moving ∧ y.moveKind = some .repair ∧ u.net.egress = s.net.egress ++ [m] ∧ m.qp = s.nodeQp j ∧
      m.ops = [.send (repairFetchBytes (s.fetchCid pid p) p y.targetFrame)] ∧ SameBut [.tiers, .mem, .net, .drawn] s u) ∧
  (∀ (s : State) (pid : Nat) (p : Page), s.MoveEnds pid p → p.moveKind = some .repair →
    exec (.repairCopyLand pid none) s = .next (s.repairFailed pid) ∧
    ∀ m, s.Receives m → (s.qp m.qp).kind = .node →
      (p.reserved m = true → s.hasSeal pid p = false ∨ sealOk m.data = true → ∃ u : State,
        exec (.repairCopyLand pid (some m)) s = .next u ∧ u.page pid = some { s.moved p with spill := none } ∧
        u.readFrame p.targetTier p.targetFrame 0 Config.frameBytes = m.data ∧ SameBut [.tiers, .mem, .net] s u) ∧
      (p.reserved m = true → s.hasSeal pid p = true → sealOk m.data = false → ∃ v : State,
        exec (.repairCopyLand pid (some m)) s = .next (v.repairFailed pid) ∧
        v.counter Ctr.sealCheckFail = min (s.counter Ctr.sealCheckFail + 1) (2 ^ 64 - 1) ∧
        SameBut [.net, .counters, .blocks, .events, .pins] s v) ∧
      (p.reserved m = false → ∃ v : State, exec (.repairCopyLand pid (some m)) s = .next (v.bump Ctr.immIgnored) ∧ SameBut [.net] s v)) ∧
  (∀ (s : State) (qp psn cid layer head page frame f : Nat) (t : Tier), s.takesCommands = true → s.rts qp = true → (s.qp qp).kind = .node →
    psnClass (s.qp qp).rqPsn psn = .expected →
    s.heldCopy (s.peerOf qp) cid layer head page frame = some (t, f) → s.CleanFrame t f → ∃ (u : State) (m : Msg),
      exec (.repairFetch ⟨qp, psn⟩ cid layer head page frame) s = .next u ∧ SameBut [.net] s u ∧ u.net.egress = s.net.egress ++ [m] ∧ m.qp = qp ∧
      m.ops = [.write (BitVec.ofNat 64 (frame * 65536)) 0 (s.readFrame t f 0 Config.frameBytes) (some (BitVec.ofNat 32 (frame % 2 ^ 24)))]) ∧
  (∀ (s : State) (t : Tier) (f : Nat),
    (tierFrames t ≤ f → exec (.scrubPass t f) s = .fault .noSuchFrame) ∧
    (f < tierFrames t → s.scrubs t = false → exec (.scrubPass t f) s = .next s) ∧
    (f < tierFrames t → s.scrubs t = true → s.CleanFrame t f → ∃ u : State, exec (.scrubPass t f) s = .next u ∧ SameBut [.tiers] s u ∧
      u.tiers.pages = s.tiers.pages ∧ ∀ w, w ∈ u.tiers.flips ↔ w ∈ s.tiers.flips))

/-! ## The transport -/

/-- What comes in order, with an acknowledgement handed to the scheduler (R462). RDMA_WRITE_RECV (R465, R477, R483, R484): a whole write that passes its key check stores its bytes where its address says and nowhere
else, the expected PSN moves past it and it is acknowledged; the first packets of a longer one are admitted; one that fails the check takes
the QP out of RTS, and so does one into a poisoned region (R517); a duplicate stores nothing, and of the packets beyond a gap only the first gets
a sequence NAK (log entry 88). RDMA_READ_RECV (R467): the bytes of the range are posted in answer. TWIN_WRITE_RECV (R554,
R555, R557): the bytes stand in the granted warm frame, and a row write adds its row to the copy; a FENCED node takes none (R564). -/
def Obligations.RdmaReceive : Prop :=
  (∀ (s : State) (m : RdmaMsg), s.Receives m → (s.qp m.qp).admitted = none →
    (∀ id off r, s.writeTarget m = some (.region id, off) → s.region id = some r → r.state = .live → (r.window = true → r.qp = m.qp) →
      r.frames.Nodup → ∃ (u : State), exec (.rdmaWriteRecv m) s = .next u ∧
        let psn := ((s.qp m.qp).rqPsn + packets m.data.length (s.qp m.qp).mtu) % 2 ^ 24
        (m.more = 0 → m.imm = none → Stored s u r off m.data ∧ (u.qp m.qp).rqPsn = psn ∧ (u.qp m.qp).admitted = none ∧
          SameBut [.net, .tiers, .mem, .regions] s u ∧ ∃ w, u.net.control = s.net.control ++ [w] ∧ w.qp = m.qp ∧ w.ops = [.ack (((u.qp m.qp).rqPsn + 2 ^ 24 - 1) % 2 ^ 24)]) ∧
        (m.more ≠ 0 → Stored s u r off m.data ∧ (u.qp m.qp).rqPsn = psn ∧ u.net.control = s.net.control ∧ ∃ a, (u.qp m.qp).admitted = some a ∧ a.next = off + m.data.length ∧
          a.off = off ∧ a.imm = m.imm)) ∧
    (s.writeTarget m = none → ∃ u : State, exec (.rdmaWriteRecv m) s = .next u ∧ u.rts m.qp = false) ∧
    (∀ id off r, s.writeTarget m = some (.region id, off) → s.region id = some r → r.state = .poisoned → (r.window = true → r.qp = m.qp) →
      ∃ u : State, exec (.rdmaWriteRecv m) s = .next u ∧ u.rts m.qp = false ∧ ((s.qp m.qp).kind = .host → Part.mem.Same s u))) ∧
  (∀ (s : State) (m : RdmaMsg) (k : Nat), s.Receives { m with psn := k } → psnClass (s.qp m.qp).rqPsn m.psn = .ahead →
    ((s.qp m.qp).nakSent = true → exec (.rdmaWriteRecv m) s = .next s) ∧
    ((s.qp m.qp).nakSent = false → ∃ (u : State) (w : Sent), exec (.rdmaWriteRecv m) s = .next u ∧ SameBut [.net] s u ∧
      u.qp m.qp = { s.qp m.qp with nakSent := true } ∧ u.net.control = s.net.control ++ [w] ∧ w.qp = m.qp ∧
      w.ops = [.nak (s.qp m.qp).rqPsn .sequence])) ∧
  (∀ (s : State) (m : RdmaMsg) (k : Nat), s.Receives { m with psn := k } → psnClass (s.qp m.qp).rqPsn m.psn = .duplicate → ∃ u : State,
    exec (.rdmaWriteRecv m) s = .next u ∧ SameBut [.net, .counters] s u ∧ (u.qp m.qp) = s.qp m.qp ∧
    u.counter Ctr.dupReq = min (s.counter Ctr.dupReq + 1) (2 ^ 64 - 1)) ∧
  (∀ (s : State) (m : RdmaMsg) (k : Key) (r : Region), s.Receives m → (s.qp m.qp).reads < 16 → m.len ≤ 16 * 2 ^ 20 →
    s.keyHolds m.key (·.read) = some k → k.region ≠ 0 → s.region k.region = some r → r.state ≠ .poisoned →
    (∀ f ∈ r.frames, s.CleanFrame r.tier f) → (∀ y ∈ s.net.egress, y.uid ≠ s.net.nextMsg) →
    (r.base.toNat ≤ m.addr.toNat → m.addr.toNat + m.len ≤ r.base.toNat + r.length → ∃ (u : State) (x : Msg),
      exec (.rdmaReadRecv m) s = .next u ∧ SameBut [.net, .regions] s u ∧ u.net.egress = s.net.egress ++ [x] ∧ x.qp = m.qp ∧
      x.ops = [.readResponse (s.readRegion r (m.addr.toNat - r.base.toNat) m.len)] ∧ x.respPsn = m.psn ∧ (u.qp m.qp).reads = (s.qp m.qp).reads + 1 ∧ m.key.toNat ∈ (u.qp m.qp).readKeys) ∧
    (m.addr.toNat < r.base.toNat ∨ r.base.toNat + r.length < m.addr.toNat + m.len → ∃ u : State, exec (.rdmaReadRecv m) s = .next u ∧
      u.rts m.qp = false)) ∧
  (∀ (s : State) (qp psn off f : Nat) (imm : W32) (data : List Byte),
    s.Receives { qp := qp, psn := psn, addr := BitVec.ofNat 64 off, data := data, len := data.length, imm := some imm } →
    (s.qp qp).kind = .node → (imm.toNat / 2 ^ 28 = 1 ∨ imm.toNat / 2 ^ 28 = 2) → s.givenFrame (s.peerOf qp) (off / 65536) = some f →
    off / 65536 = imm.toNat % 2 ^ 24 → off % 65536 + data.length ≤ 65536 → data.length < 65536 →
    (s.node.state = .fenced → exec (.twinWriteRecv qp psn imm off data) s = .next s) ∧
    (s.node.state ≠ .fenced → ∃ u : State, exec (.twinWriteRecv qp psn imm off data) s = .next u ∧
      u.readFrame .warm f (off % 65536) data.length = data ∧ SameBut [.net, .tiers, .mem, .recover] s u ∧
      (u.qp qp).rqPsn = ((s.qp qp).rqPsn + packets data.length (s.qp qp).mtu) % 2 ^ 24 ∧
      (∀ a, a < frameAddr .warm f ∨ frameAddr .warm f + 65536 ≤ a → Memory.byte u.tiers.mem a = Memory.byte s.tiers.mem a) ∧
      (∀ c r, imm.toNat / 2 ^ 28 = 1 → data.length ≠ 64 → s.copyAt (s.peerOf qp) (off / 65536) = some c →
        s.twinRecordOf (s.peerOf qp) c.cid = some r →
        ∃ y, u.copyAt (s.peerOf qp) (off / 65536) = some y ∧ y.rows = addOnce c.rows (r.layoutRecord.rowAt (off % 65536)))))

/-- The requester. RDMA_ACK_RECV (R473): the oldest unacknowledged PSN moves past an acknowledged one, the messages that it covers end, and the
retry counts restart; one that moves nothing changes nothing. RDMA_NAK_RECV (R474, R478): a sequence NAK acknowledges what lies below its PSN and
counts a retry; any other takes the QP out of RTS. A retry (R474) sends again from the oldest unacknowledged PSN, and the eighth takes the QP out
of RTS. ACK_TIMEOUT (R473): the timer that has run out counts one.
RNR_NAK_RECV and RNR_TIMER_EXPIRY (R475): the QP waits for the timer, then sends again; the eighth takes it out of RTS. -/
def Obligations.RdmaRequester : Prop :=
  (∀ (s : State) (qp psn : Nat), s.rts qp = true → s.Quiet →
    ((s.qp qp).advances psn = false → exec (.rdmaAckRecv qp psn) s = .next s) ∧
    ((s.qp qp).advances psn = true → (∀ m ∈ (s.qp qp).unacked, ∃ k, m.tag = .spill k) →
      (s.qp qp).kind ≠ .node → ∃ u : State, exec (.rdmaAckRecv qp psn) s = .next u ∧ SameBut [.net] s u ∧
        (u.qp qp).unacked = (s.qp qp).unacked.filter (fun m => !psnCovers psn (m.lastPsn (s.qp qp).mtu)) ∧ (u.qp qp).sqUna = (psn + 1) % 2 ^ 24 ∧
        (u.qp qp).retries = 0 ∧ (u.qp qp).rnrRetries = 0 ∧ (u.qp qp).timeouts = 0 ∧
        u.net.acked = s.net.acked ++ ((s.qp qp).unacked.filter fun m => psnCovers psn (m.lastPsn (s.qp qp).mtu)).map (·.tag)) ∧
    (∀ w, exec (.rdmaAckRecv qp ((psn + 2 ^ 24 - 1) % 2 ^ 24)) s = .next w → exec (.rdmaNakRecv qp psn .sequence) s = .next (w.retry qp)) ∧
    (∀ k, k ≠ .sequence → ∃ u : State, exec (.rdmaNakRecv qp psn k) s = .next u ∧ u.rts qp = false)) ∧
  (∀ (s : State) (qp : Nat), s.rts qp = true →
    (7 ≤ (s.qp qp).retries → ∃ u : State, s.retry qp = u ∧ u.rts qp = false) ∧
    ((s.qp qp).retries < 7 → ∃ u : State, s.retry qp = u ∧ SameBut [.net] s u ∧ u.qp qp = { s.qp qp with
        retries := (s.qp qp).retries + 1, unacked := [], timeoutAt := none } ∧
      ∃ tail, u.net.egress = ((s.qp qp).unacked.map fun m => { m with sent := m.acked (s.qp qp).mtu (s.qp qp).sqUna }) ++ tail ∧
        tail.map (·.uid) = s.net.egress.map (·.uid)) ∧
    (∀ t, (s.qp qp).timeoutAt = some t →
      (s.now < t → exec (.ackTimeout qp) s = .next s) ∧
      (t ≤ s.now → ∃ v : State, exec (.ackTimeout qp) s = .next (v.retry qp) ∧ SameBut [.net, .counters] s v ∧
        v.qp qp = { s.qp qp with timeouts := (s.qp qp).timeouts + 1 } ∧
        v.counter Ctr.retryTimeout = min (s.counter Ctr.retryTimeout + 1) (2 ^ 64 - 1))) ∧
    (∀ ns, (s.qp qp).rnrRetries < 7 → ∃ u : State, exec (.rnrNakRecv qp ns) s = .next u ∧ SameBut [.net] s u ∧ u.qp qp = { s.qp qp with
      rnrRetries := (s.qp qp).rnrRetries + 1, rnrUntil := some (s.now + ns), timeoutAt := none }) ∧
    (∀ ns, 7 ≤ (s.qp qp).rnrRetries → ∃ u : State, exec (.rnrNakRecv qp ns) s = .next u ∧ u.rts qp = false) ∧
    (∀ t, (s.qp qp).rnrUntil = some t →
      (s.now < t → exec (.rnrTimerExpiry qp) s = .next s) ∧
      (t ≤ s.now → ∃ u : State, exec (.rnrTimerExpiry qp) s = .next u ∧ SameBut [.net] s u ∧
        u.qp qp = { s.qp qp with rnrUntil := none, unacked := [], timeoutAt := none } ∧
        ∃ tail, u.net.egress = ((s.qp qp).unacked.map fun m => { m with sent := m.acked (s.qp qp).mtu (s.qp qp).sqUna }) ++ tail)))

/-- CE_PACKET_RECV (R489): a CNP at most every 50 µs. CNP_RECV and RATE_RECOVERY_PERIOD (R490): the rate falls and recovers by the formulas, a CNP
of the same cycle first.
PAUSE_FRAME_RECV and PFC_STORM_TIMER (R491, R492): a priority that is paused and resumed; after 100 ms it is disregarded as long again.
PORT_LINK_LOSS and PORT_LINK_UP (R495). GATE_ENTRY_INSTANT (R508): entries whose instant has come are consumed, and the last decides.
EGRESS_FRAME_SELECT (R494, R498, R499): a port that is down or busy sends nothing; a free one sends one frame of the ready class with the
highest number, and is busy until its end. Its headers (R9, R446, R450, R497): no VLAN tag, ECT(0) and the DSCP of the class or the QP in the
IP header, and UDP from port 0xC000 + QP index to port 4791. -/
def Obligations.RatesAndPorts : Prop :=
  (∀ (s : State) (qp cls psn total n : Nat) (k : PacketKind) (first last ask : Bool), qp < Config.qps →
    let h := packetHeaders (s.route qp cls) k first last ask psn total n
    let big := fun (off w : Nat) => fieldAt (slice h off w).reverse 0 w
    let dscp := if (s.qp qp).kind = .node then bits (s.regs.svc.getD cls 0).toNat 29 24 else (s.qp qp).dscp % 64
    if isMapped (s.qp qp).remoteAddr = true then big 12 2 = 0x0800 ∧ big 15 1 = 4 * dscp + 2 ∧ big 34 2 = 0xC000 + qp ∧ big 36 2 = 4791
    else big 12 2 = 0x86DD ∧ big 14 2 / 16 % 256 = 4 * dscp + 2 ∧ big 54 2 = 0xC000 + qp ∧ big 56 2 = 4791) ∧
  (∀ (s : State) (qp : Nat), s.rts qp = true →
    (∀ t, (s.qp qp).lastCnpSent = some t → s.now < t + 50000 → exec (.cePacketRecv qp) s = .next s) ∧
    ((∀ t, (s.qp qp).lastCnpSent = some t → t + 50000 ≤ s.now) → ∃ (u : State) (w : Sent), exec (.cePacketRecv qp) s = .next u ∧
      u.net.control = s.net.control ++ [w] ∧ w.qp = qp ∧ w.ops = [.cnp] ∧
      w.headers = packetHeaders (s.route qp w.cls) .cnp true true false 0 16 16 ∧ u.qp qp = { s.qp qp with lastCnpSent := some s.now } ∧
      SameBut [.net, .counters] s u) ∧
    (∃ u : State, exec (.cnpRecv qp) s = .next u ∧ SameBut [.net, .counters] s u ∧
      let q := s.qp qp
      u.qp qp = { q with rt := q.rc, rc := max (q.rc - q.rc * q.alpha / 2048) 100, alpha := q.alpha + (1024 - q.alpha) / 16, stage := 0
                         periodStart := s.now }) ∧
    (s.now < (s.qp qp).periodStart + 55000 → exec (.rateRecoveryPeriod qp) s = .next s) ∧
    (.cnpRecv qp ∈ s.pending → exec (.rateRecoveryPeriod qp) s = .next s) ∧
    ((s.qp qp).periodStart + 55000 ≤ s.now → .cnpRecv qp ∉ s.pending → ∃ u : State, exec (.rateRecoveryPeriod qp) s = .next u ∧ SameBut [.net] s u ∧
      let q := s.qp qp
      let rt := if 5 ≤ q.stage then min (q.rt + 4000) s.lineRate else q.rt
      u.qp qp = { q with alpha := q.alpha - q.alpha / 16, stage := q.stage + 1, rt := rt, rc := max ((q.rc + rt) / 2) 100
                         periodStart := q.periodStart + 55000 })) ∧
  (∀ (s : State) (port : Nat), port < s.net.ports.length → s.blocks.length = 24 →
    (∀ pr p i q, s.node.profile = some p → p.pfc = true → Table.get s.net.qps i = some q → q.state = .rts → (q.kind = .node ∨ q.service = pr) →
      (∀ t, Table.get (s.port port).ignoring pr = some t → t ≤ s.now) →
      (∃ u : State, exec (.pauseFrameRecv port pr false) s = .next u ∧ SameBut [.net] s u ∧
        (u.port port).paused = (s.port port).paused.filter fun x => x.1 != pr) ∧
      (∃ u : State, exec (.pauseFrameRecv port pr true) s = .next u ∧ SameBut [.net] s u ∧ (∃ x ∈ (u.port port).paused, x.1 = pr) ∧
        ((∀ x ∈ (s.port port).paused, x.1 ≠ pr) → (pr, s.now) ∈ (u.port port).paused))) ∧
    (∀ pr, (s.node.profile.map (·.pfc)).getD false = false → ∀ b, exec (.pauseFrameRecv port pr b) s = .next s) ∧
    (∀ pr x, ((s.port port).paused.find? fun x => x.1 == pr) = some x →
      (s.now < x.2 + 100000000 → exec (.pfcStormTimer port pr) s = .next s) ∧
      (x.2 + 100000000 ≤ s.now → ∃ u : State, exec (.pfcStormTimer port pr) s = .next u ∧ (∀ y ∈ (u.port port).paused, y.1 ≠ pr) ∧
        Table.get (u.port port).ignoring pr = some (s.now + 100000000) ∧ (u.blockAt Blk.rdma).watchdog = true ∧
        u.counter Ctr.pfcStorm = min (s.counter Ctr.pfcStorm + 1) (2 ^ 64 - 1))) ∧
    (∃ u : State, exec (.portLinkLoss port) s = .next u ∧ SameBut [.net] s u ∧ (u.port port).link = false ∧
      (u.port port).paused = [] ∧ ((s.port port).link = true → (u.port port).lost = true)) ∧
    (port < s.portCount → s.Quiet → ∃ u : State, exec (.portLinkUp port) s = .next u ∧ SameBut [.net] s u ∧
      (u.port port).link = true ∧ (u.port port).lost = false ∧ ((s.port port).lost = true → s.now ∈ (u.port port).retrains)) ∧
    (∃ u : State, exec (.gateEntryInstant port) s = .next u ∧ SameBut [.net] s u ∧
      (u.port port).drift = ((s.port port).drift.filter fun e => decide (s.clk.ptp < e.1)) ∧
      (∀ e, ((s.port port).drift.filter fun e => decide (e.1 ≤ s.clk.ptp)).getLast? = some e → (u.port port).driftOpen = e.2.1))) ∧
  (∀ (s : State) (port : Nat), port < s.net.ports.length → port < s.portCount →
    ((s.port port).link = false ∨ s.now < (s.port port).busyUntil → exec (.egressFrameSelect port) s = .next s) ∧
    ((s.port port).link = true → (s.port port).busyUntil ≤ s.now → s.regs.chk = [] →
      (∀ m ∈ s.net.egress, frameOf (s.qp m.qp).mtu m.ops m.sent ≠ none) →
      let t := (s.countFitHolds port).settlePort port s.now
      ((∀ c < 8, t.serviceReady port c = false) → exec (.egressFrameSelect port) s = .next t) ∧
      (∀ c < 8, t.serviceReady port c = true → (∀ d < 8, c < d → t.serviceReady port d = false) → ∃ (u : State) (w : Sent),
        exec (.egressFrameSelect port) s = .next u ∧ u.net.wire = s.net.wire ++ [w] ∧ w.port = port ∧ w.cls = c ∧
        s.now < (u.port port).busyUntil ∧ SameBut [.net, .drifts, .counters] s u)))

/-! ## Twins, stamps, health -/

/-- TWIN_BIND (R439): a bind that no check refuses makes the node a partner where it answers, and waits 10 ms where it does not; which of
the two is a free value (log entry 4). TWIN_RESYNC (R569, R570): one that comes too early is refused; else the node is lost, its QP out of
RTS, and the reply is OK. CONV_PROMOTION (R571, R573): the conversation at the front is home here, under the record's epoch plus one and
the twinned lengths, without a lease. RESYNC_COPY_ACK (R581): the page is no longer left to copy. -/
def Obligations.TwinAndResync : Prop :=
  (∀ (s t : State) (c d : Cmd) (ctx : CmdCtx), s.Accepts 0x0501 c d ctx t → d.payload = [] →
    (∀ a, t.bindRefusal d.hdr.p0 = some a → exec (.twinBind c) s = .next (t.finish ctx a)) ∧
    (t.bindRefusal d.hdr.p0 = none →
      if (t.drawBelow 2).1 = 0 then ∃ (v : State) (p : Partner), exec (.twinBind c) s = .next (v.finish ctx (Ans.ok)) ∧
        v.node.twinBound = some d.hdr.p0 ∧ v.partner d.hdr.p0 = some p ∧ p.bound = true ∧ p.lost = false ∧ p.silent = false ∧
        p.lastContact = t.now ∧ SameBut [.node, .recover, .drawn] t v
      else ∃ (u : State) (x : Waiting), exec (.twinBind c) s = .next u ∧ Table.get u.net.waiting t.net.nextWait = some x ∧
        x.ctx = { ctx with deadline := ctx.arrival + 10000000 } ∧ SameBut [.net, .drawn] t u)) ∧
  (∀ (s t : State) (c d : Cmd) (ctx : CmdCtx), s.Accepts 0x0502 c d ctx t → d.payload = [] →
    (d.hdr.p0 ∈ t.recover.lostNodes → exec (.twinResync c) s = .next (t.finish ctx (Ans.ok))) ∧
    (∀ a, d.hdr.p0 ∉ t.recover.lostNodes → t.resyncRefusal d.hdr.p0 = some a → exec (.twinResync c) s = .next (t.finish ctx a)) ∧
    (d.hdr.p0 ∉ t.recover.lostNodes → t.resyncRefusal d.hdr.p0 = none → ∃ (u : State) (p : Partner), exec (.twinResync c) s = .next u ∧
      d.hdr.p0 ∈ u.recover.lostNodes ∧ u.partner d.hdr.p0 = some p ∧ p.lost = true ∧ u.rts (t.nodeQp d.hdr.p0) = false)) ∧
  (∀ (s : State) (cid x : Nat) (c : Conv) (r : TwinRecord), s.recover.toPromote.head? = some cid →
    s.recover.lostNodes.find? (fun x => (s.twinRecordOf x cid).isSome) = some x → s.twinRecordOf x cid = some r → s.conv cid = some c →
    ∃ (u : State) (y : Conv), exec (.convPromotion cid) s = .next u ∧ u.conv cid = some y ∧ y.promoting = false ∧ y.epoch = r.epoch + 1 ∧
      y.committed = ((List.range r.layoutRecord.layers).map fun ly => s.twinnedLength x cid r ly) ∧ y.lease = none ∧ y.home = c.home ∧
      cid ∉ u.recover.toPromote ∧ u.counter Ctr.promoteConv = min (s.counter Ctr.promoteConv + 1) (2 ^ 64 - 1)) ∧
  (∀ (s : State) (pid : Nat),
    (.resync pid ∉ s.net.acked → exec (.resyncCopyAck pid) s = .next s) ∧
    (.resync pid ∈ s.net.acked → ∃ u : State, exec (.resyncCopyAck pid) s = .next u ∧ pid ∉ u.recover.resyncLeft ∧
      .resync pid ∉ u.net.acked ∧ u.counter Ctr.resyncFrames = min (s.counter Ctr.resyncFrames + 1) (2 ^ 64 - 1) ∧
      SameBut [.net, .recover, .counters] s u))

/-- The commands of recovery complete. TWIN_BIND (R439): the refusal, or the bind, which the partner's answer ends at once or its bound of
10 ms does (log entry 4). TWIN_RESYNC (R439, R569, R570): of a node already lost OK again; the refusal; or OK, and the node is declared lost.
CONV_PROMOTION (R571, R574): the conversation at the front of the order takes its pages and ends its promotion under the record's lengths;
any other waits; one whose record is gone leaves the order. RESYNC_COPY_ACK (R581): the copy acknowledged is no longer left. -/
def Obligations.RecoveryCommandsComplete : Prop :=
  (∀ (s t : State) (c d : Cmd) (ctx : CmdCtx), s.Accepts 0x0501 c d ctx t → d.payload = [] → exec (.twinBind c) s = .next (
    match t.bindRefusal d.hdr.p0 with
    | some a => t.finish ctx a
    | none =>
      let second := (t.selfEntry.map (·.twin2)).getD 0xFFFF
      let x := t.drawBelow 2
      if x.1 = 0 then (x.2.bindTwin d.hdr.p0 second).finish ctx (Ans.ok) else x.2.awaitTwin ctx)) ∧
  (∀ (s t : State) (c d : Cmd) (ctx : CmdCtx), s.Accepts 0x0502 c d ctx t → d.payload = [] → exec (.twinResync c) s = .next (
    if d.hdr.p0 ∈ t.recover.lostNodes then t.finish ctx (Ans.ok)
    else match t.resyncRefusal d.hdr.p0 with
      | some a => t.finish ctx a
      | none => (t.finish ctx (Ans.ok)).declareLost d.hdr.p0)) ∧
  (∀ (s : State) (cid : Nat),
    (s.recover.toPromote.head? ≠ some cid → exec (.convPromotion cid) s = .next s) ∧
    (s.recover.toPromote.head? = some cid → (∀ x ∈ s.recover.lostNodes, s.twinRecordOf x cid = none) → ∃ u : State,
      exec (.convPromotion cid) s = .next u ∧ SameBut [.recover] s u ∧ cid ∉ u.recover.toPromote) ∧
    (∀ (x : Nat) (r : TwinRecord), s.recover.toPromote.head? = some cid →
      s.recover.lostNodes.find? (fun x => (s.twinRecordOf x cid).isSome) = some x → s.twinRecordOf x cid = some r →
      let lengths := (List.range r.layoutRecord.layers).map fun ly => s.twinnedLength x cid r ly
      let y := s.promotePages x cid r lengths
      exec (.convPromotion cid) s = .next (y.2.endPromotion x cid r lengths y.1))) ∧
  (∀ (s : State) (pid : Nat),
    (.resync pid ∉ s.net.acked → exec (.resyncCopyAck pid) s = .next s) ∧
    (.resync pid ∈ s.net.acked → ∃ u : State, exec (.resyncCopyAck pid) s = .next u ∧ pid ∉ u.recover.resyncLeft ∧
      .resync pid ∉ u.net.acked))

/-- STAMP_SEND (R561): every 100 µs a partner gets a stamp under the next sequence number. STAMP_RECV (R561, R563): a stamp that holds is
accepted, one of a FENCED node makes the partner silent, and any other is counted and changes nothing; one out of the order of the QP's PSNs is
not taken (R477). PARTNER_SILENCE (R563, R565): after
SILENT_US without contact the partner is silent and the conversations twinned at it are self-fenced. GUARD_WINDOW_START (R589): a vote may be
cast for every partner again. STANDIN_OFFER_TIMEOUT (R579, R582): the offer goes to the next candidate, or ends. -/
def Obligations.StampsAndSilence : Prop :=
  (∀ (s : State) (j : Nat) (p : Partner), s.partner j = some p →
    (s.now < p.lastStamp + 100000 → exec (.stampSend j) s = .next s) ∧
    (s.stamps = true → p.watched = true → p.lastStamp + 100000 ≤ s.now → s.linkUp j = true → ∃ (u : State) (y : Partner) (m : Msg),
      exec (.stampSend j) s = .next u ∧ u.partner j = some y ∧ y.lastStamp = s.now ∧ y.seqSent = p.seqSent + 1 ∧ y.lastContact = p.lastContact ∧
      u.net.egress = s.net.egress ++ [m] ∧ m.qp = s.nodeQp j ∧ m.cls = 4 ∧ m.tag = .twin j ∧ SameBut [.tiers, .mem, .net, .recover, .drawn] s u)) ∧
  (∀ (s : State) (qp psn : Nat) (b : List Byte), s.Quiet → s.takesCommands = true → s.rts qp = true → (s.qp qp).kind = .node →
    let j := s.peerOf qp
    let seen := ((s.partner j).map (·.seqSeen)).getD 0
    let good := b.length = 64 ∧ fieldAt b 60 4 = crc32c (b.take 60) ∧ seen < fieldAt b 8 8
    (psnClass (s.qp qp).rqPsn psn ≠ .expected → ∃ u : State, exec (.stampRecv ⟨qp, psn⟩ b) s = .next u ∧ SameBut [.net, .counters] s u ∧
      (psnClass (s.qp qp).rqPsn psn = .duplicate → u.counter Ctr.dupReq = min (s.counter Ctr.dupReq + 1) (2 ^ 64 - 1))) ∧
    (psnClass (s.qp qp).rqPsn psn = .expected → ¬ good → ∃ u : State, exec (.stampRecv ⟨qp, psn⟩ b) s = .next u ∧ u.counter Ctr.stampBad = min (s.counter Ctr.stampBad + 1) (2 ^ 64 - 1) ∧
      u.recover.partners = s.recover.partners ∧ SameBut [.net, .recover, .counters, .blocks, .events, .pins] s u ∧
      (b.length = 64 → fieldAt b 60 4 = crc32c (b.take 60) → SameBut [.net, .recover, .counters] s u)) ∧
    (psnClass (s.qp qp).rqPsn psn = .expected → good → fieldAt b 3 1 % 16 < 4 → ∃ (u : State) (p : Partner), exec (.stampRecv ⟨qp, psn⟩ b) s = .next u ∧ u.partner j = some p ∧
      p.seqSeen = fieldAt b 8 8 ∧ Table.get u.recover.stamps j = some b ∧
      (fieldAt b 2 1 = NodeState.fenced.code → p.fencedStamp = true ∧ (p.watched = true → p.silent = true)))) ∧
  (∀ (s : State) (j : Nat) (p : Partner), s.partner j = some p → s.stamps = true →
    (s.now < p.lastContact + 1000 * s.regs.silentUs → exec (.partnerSilence j) s = .next s) ∧
    (p.lastContact + 1000 * s.regs.silentUs ≤ s.now → p.watched = true → p.silent = false → ∃ (u : State) (y : Partner),
      exec (.partnerSilence j) s = .next u ∧ u.partner j = some y ∧ y.silent = true ∧
      (∀ cid x, s.conv cid = some x → x.twin = some j → x.state ≠ .lost → ∃ z, u.conv cid = some z ∧ z.selfFenced = true) ∧
      u.counter Ctr.selfFence = min (s.counter Ctr.selfFence + 1) (2 ^ 64 - 1))) ∧
  (∀ (s : State), s.stamps = true →
    (s.now < s.recover.guardStart + 1000000 * s.regs.guardWindowMs → exec .guardWindowStart s = .next s) ∧
    (s.recover.guardStart + 1000000 * s.regs.guardWindowMs ≤ s.now → ∃ u : State, exec .guardWindowStart s = .next u ∧ SameBut [.recover] s u ∧
      u.recover.guardStart = s.recover.guardStart + 1000000 * s.regs.guardWindowMs ∧ ∀ e ∈ u.recover.partners, e.2.voted = false)) ∧
  (∀ (s : State) (j lost since : Nat), s.recover.offer = some (j, lost, since) →
    (s.now < since + 200000 → exec .standinOfferTimeout s = .next s) ∧
    (since + 200000 ≤ s.now → s.recover.unassigned ≠ [] → s.recover.standins.length < 4 →
      (∀ k rest, s.recover.candidates = k :: rest → ∃ u : State, exec .standinOfferTimeout s = .next u ∧
        u.recover.offer = some (k, lost, s.now) ∧ u.recover.candidates = rest ∧ SameBut [.recover, .net] s u) ∧
      (s.recover.candidates = [] → ∃ u : State, exec .standinOfferTimeout s = .next u ∧ u.recover.offer = none ∧
        SameBut [.recover, .blocks, .events, .counters, .pins] s u)))

/-- HEALTH_READ (R440): score, votes left and the windows. HEALTH_TICK (R588): each millisecond the score is computed by its formula;
where the corrected errors and retrains are counted is the model's choice (log entry 98).
HEALTH_LOW_TIMER (R590): after 100 ms below the threshold a serving node is FENCED where the table has a free SPARE, else DEGRADED.
DEGRADED_RECOVER (R590): after 10 s it serves again. FENCE (R441, R564): the node is FENCED, a drain of the node and
a NODE_SERVE that waits have ended, and so has every armed pass that is not past its release. POOL_FAIL
(R386, R586): the pool's requests and records are gone. -/
def Obligations.HealthAndFence : Prop :=
  (∀ (s t : State) (c d : Cmd) (ctx : CmdCtx), s.Accepts 0x0503 c d ctx t → d.payload = [] → ∃ p0 p1,
    exec (.healthRead c) s = .next (t.finish ctx (Ans.ok p0 p1)) ∧ p0 % 2 ^ 16 = t.recover.score % 2 ^ 16 ∧
    (t.recover.score < 2 ^ 16 → p0 / 2 ^ 16 = min 255 (t.recover.partners.filter fun p => p.2.watched && !p.2.voted).length) ∧
    p1 % 2 ^ 16 = min 65535 t.cePerS ∧ p1 / 2 ^ 16 % 2 ^ 16 = min 65535 t.retrains ∧
    p1 / 2 ^ 32 % 2 ^ 16 = min 65535 (t.lastMinute t.recover.throttle).length ∧ p1 / 2 ^ 48 = min 65535 (t.lastMinute t.recover.events).length) ∧
  (∀ (s : State) (fec links : Nat),
    (s.now < s.recover.healthAt + 1000000 → exec (.healthTick fec links) s = .next s) ∧
    (s.recover.healthAt + 1000000 ≤ s.now → ∃ u : State, exec (.healthTick fec links) s = .next u ∧ SameBut [.recover, .counters] s u ∧
      u.recover.healthAt = s.now ∧ u.recover.ceSeen = s.counter Ctr.wcCorrected ∧ u.recover.fecPerS = fec ∧ u.recover.linkRetrains = links ∧
      (let wc := s.counter Ctr.wcCorrected
       let ce := ((s.recover.ceTimes.filter fun x => decide (s.now < x.1 + 1000000000)).map (·.2)).sum +
         (if s.recover.ceSeen ≤ wc then wc - s.recover.ceSeen else wc) + fec
       let rt := (s.net.ports.map fun p => (s.lastMinute p.retrains).length).sum + links
       let hot := (s.lastMinute s.recover.throttle).length + (if s.pwr.level > 0 then 1 else 0)
       let events := (s.lastMinute s.recover.events).length
       let spares := (s.attn.tiles.filter fun x => x.role == .spare).length
       u.recover.score = 1000 - min 300 (ce / 64) - min 200 (25 * rt) - min 200 (hot / 100) - min 200 (50 * events) -
         min 300 (100 * (s.sparesMin - spares))) ∧
      (u.recover.score < s.regs.fenceThreshold → u.recover.lowSince = some (s.recover.lowSince.getD s.now)) ∧
      (s.regs.fenceThreshold ≤ u.recover.score → u.recover.lowSince = none))) ∧
  (∀ (s : State) (n : Nat), s.recover.lowSince = some n →
    (s.now < n + 100000000 → exec .healthLowTimer s = .next s) ∧
    (n + 100000000 ≤ s.now → s.node.state = .serving →
      ((s.node.fabric.map (·.freeSpares)).getD 0 = 0 → ∃ u : State, exec .healthLowTimer s = .next u ∧ u.node = { s.node with state := .degraded } ∧
        SameBut [.node, .blocks, .events, .counters, .pins] s u) ∧
      (0 < (s.node.fabric.map (·.freeSpares)).getD 0 → ∃ u : State, exec .healthLowTimer s = .next u ∧ u.node.state = .fenced))) ∧
  (∀ (s : State) (n : Nat), s.recover.highSince = some n → s.node.state = .degraded →
    (s.now < n + 10000000000 → exec .degradedRecover s = .next s) ∧
    (n + 10000000000 ≤ s.now → ∃ u : State, exec .degradedRecover s = .next u ∧ u.node = { s.node with state := .serving } ∧
      SameBut [.node] s u)) ∧
  (∀ (s t : State) (c d : Cmd) (ctx : CmdCtx), s.Accepts 0x0504 c d ctx t → d.payload = [] →
    (t.node.state = .fenced → exec (.fence c) s = .next (t.finish ctx (Ans.ok))) ∧
    (t.node.state ≠ .fenced → t.drifts.length = 16 → ∃ v : State, exec (.fence c) s = .next (v.finish ctx (Ans.ok)) ∧
      v.node = { t.node with state := .fenced, drains := t.node.drains.filter fun x => x.scope != 0, serving := [] } ∧ v.convs = t.convs ∧
      v.PassesStopped)) ∧
  (∀ (s : State) (p : Nat),
    (4 ≤ p ∨ p ∈ s.recover.poolsFailed → exec (.poolFail p) s = .next s) ∧
    (p < 4 → p ∉ s.recover.poolsFailed → ∃ u : State, exec (.poolFail p) s = .next u ∧ p ∈ u.recover.poolsFailed ∧
      (∀ r ∈ u.attn.reqs, r.2.pool ≠ p) ∧ (∀ r ∈ u.net.records, r.pool ≠ p) ∧ u.convs = s.convs))

/-! ## Trust, tenants and diagnostics -/

/-- ATTEST (R661, R663): a report whose result item holds it carries the node's state, the epoch, its number and the nonce, and its digest
joins the last 16. TENANT_BEGIN (R442, R665, R666): the first check that fails is answered with its number; evidence that passes brings the
tenant in under the next epoch, 0 skipped, clears the counters, with what the cycle still counts (R714), disarms every injection slot and counts
revocations anew (R486). TENANT_END (R667): once accepted, the
passes abort, every command of the epoch that comes after it is denied, and within 5 ms of its acceptance its reply finds the tenant's state
gone, the epoch 0, every HOST QP in RESET, every frame and every message still to leave zero, and new keys in the memory controllers (R36; the
instant is free: log entry 26). ZEROING_DONE (R442): the zeroing ends at
its instant. -/
def Obligations.ReportsAndTenants : Prop :=
  (∀ (s t : State) (c d : Cmd) (ctx : CmdCtx), s.Accepts 0x0601 c d ctx t → t.Quiet → d.payload.length = 48 →
    let it := resultItemAt d.payload 32
    let r := t.report (d.payload.take 32)
    (itemFits ctx.src it r.length = false → exec (.attest c) s = .next (t.finish ctx (Ans.param Reason.resultSpace))) ∧
    (itemFits ctx.src it r.length = true → ∃ v : State,
      exec (.attest c) s = .next (v.finish ctx { Ans.ok r.length with result := r, item := it }) ∧ SameBut [.trust] t v ∧
      v.trust = { t.trust with reportSeq := t.trust.reportSeq + 1, reports := (t.trust.reports ++ [sha r]).drop (t.trust.reports.length - 15) } ∧
      fieldAt r 1 1 = t.node.state.code ∧ fieldAt r 8 4 = t.epoch % 2 ^ 32 ∧ fieldAt r 16 8 = (t.trust.reportSeq + 1) % 2 ^ 64 ∧
      slice r 64 32 = d.payload.take 32)) ∧
  (∀ (s t : State) (c d : Cmd) (ctx : CmdCtx), s.Accepts 0x0602 c d ctx t → t.Quiet →
    (t.trust.tenant ≠ none → exec (.tenantBegin c) s = .next (t.finish ctx (Ans.state Reason.tenantPresent))) ∧
    (∀ z, t.trust.tenant = none → t.trust.zeroing = some z → t.now < z →
      exec (.tenantBegin c) s = .next (t.finish ctx (Ans.throttled Reason.tenantZeroing (ceilDiv (z - t.now) 1000)))) ∧
    (t.trust.tenant = none → t.trust.zeroing = none →
      match t.evidenceFault d.payload with
      | some n => exec (.tenantBegin c) s = .next (t.finish ctx { status := Status.denied, reason := Reason.tenantEvidence, p0 := n })
      | none => ∃ (v : State) (e : Nat), exec (.tenantBegin c) s = .next (v.finish ctx (Ans.ok e)) ∧
          e = (if (t.trust.lastEpoch + 1) % 2 ^ 32 = 0 then 1 else (t.trust.lastEpoch + 1) % 2 ^ 32) ∧ v.epoch = e ∧ v.trust.lastEpoch = e ∧
          v.trust.spillCount = 0 ∧ v.counters = [] ∧ v.Quiet ∧
          v.regions = { t.regions with revokeSeq := 0 } ∧ SameBut [.trust, .blocks, .counters, .regs, .recover, .regions] t v)) ∧
  (∀ (s t : State) (c d : Cmd) (ctx : CmdCtx), s.Accepts 0x0603 c d ctx t → t.Quiet → d.payload = [] →
    (t.trust.tenant = none → exec (.tenantEnd c) s = .next (t.finish ctx (Ans.state Reason.tenantAbsent))) ∧
    (t.trust.tenant ≠ none → t.drifts.length = 16 → ∃ (v : State) (b : Nat), exec (.tenantEnd c) s = .next v ∧ b < 5000000 ∧
      v.trust = { t.trust with ending := some (ctx, t.now + b) } ∧ v.epoch = t.epoch ∧ ∀ x ∈ v.drifts, x.state = .idle)) ∧
  (∀ (s : State) (code : Nat) (c : Cmd) (o : OpSpec), c.hdr.formOk = true → c.hdr.noKeep = false → opSpec c.hdr.opcode.toNat = some o →
    o.hdrOk c.hdr = true → o.code = code → c.hdr.forward = false → (code = 0x0209 → c.hdr.param1 = 0) → s.trust.tenant ≠ none → s.trust.ending ≠ none →
    s.checkHeader code c = some (Ans.denied (if c.hdr.tenantEpoch.toNat = s.epoch then Reason.tenantEnded else Reason.tenantEpoch))) ∧
  (∀ (s : State) (ctx : CmdCtx) (z : Nat), s.pending = [] → s.pwr.state ≠ .off → s.trust.ending = some (ctx, z) → z ≤ s.now + 20 → ∃ u : State, step s = .next u ∧
    u.trust.ending = none ∧ u.epoch = 0 ∧ u.trust.rotation = s.trust.rotation + 1 ∧ u.trust.zeroing = some (s.now + 20 + 1010000000) ∧
    u.convs = [] ∧ u.attn.reqs = [] ∧ u.attn.layouts = [] ∧ u.regions.regions = [] ∧ u.regions.versions = [] ∧ u.net.records = [] ∧
    u.node.profile = s.node.profile ∧ u.node.fabric = s.node.fabric ∧ (∀ a, Memory.byte u.tiers.mem a = 0) ∧
    u.trust.memoryKeys = u.trust.rotation ∧ (∀ m ∈ u.net.egress, m.carriesData = true → m.ops = m.ops.map WireOp.zeroed) ∧
    ∀ k q, Table.get u.net.qps k = some q → q.kind ≠ .node → q.state = .reset) ∧
  (∀ (s : State) (z : Nat), s.trust.zeroing = some z →
    (s.now < z → exec .zeroingDone s = .next s) ∧
    (z ≤ s.now → ∃ u : State, exec .zeroingDone s = .next u ∧ SameBut [.trust] s u ∧ u.trust = { s.trust with zeroing := none }))

/-- FIRMWARE_STAGE (R443, R646, R648): a chunk at the next offset is held; a gap is refused; with the last byte the image is verified, and
one that fails is dropped. FIRMWARE_ACTIVATE: the verified image goes to flash, the passes abort and the drain of pool 0 begins.
FIRMWARE_PARTITION_DONE: the next pool follows; after the last the image in flash is the running one, and what has been staged since the
activation began stays. SET_KEY_UNWRAP (R669, R670): the checks
in order, and a valid key replaces the one held. DIAG_INJECT (R637): the lowest free slot is armed without delay; kinds and points that R635
does not give are refused. DIAG_COUNTERS (R444, R672): the counters of a block as 64-bit values in the order of their offsets. DIAG_TRACE
(R438): START and STOP; the bytes of a trace are free (log entry 4). In confidential mode DIAG_INJECT and DIAG_TRACE are denied (R444). -/
def Obligations.FirmwareKeysAndDiagnostics : Prop :=
  (∀ (s t : State) (c d : Cmd) (ctx : CmdCtx), s.Accepts 0x0604 c d ctx t → t.Quiet → d.hdr.p0 % 4096 = 0 → 4096 ≤ d.payload.length →
    d.payload.length ≤ 65536 →
    let off := d.hdr.p0
    let t' := if off = 0 then t.dropStaged else t
    let bs := t'.trust.staged ++ d.payload
    let anew := t.trust.restaged || decide (off = 0)
    (off ≠ 0 → off ≠ t.trust.staged.length ∨ d.hdr.p1 ≠ t.trust.stagedLen →
      exec (.firmwareStage c) s = .next (t.finish ctx (Ans.state Reason.imageStage))) ∧
    (off = 0 ∨ (off = t.trust.staged.length ∧ d.hdr.p1 = t.trust.stagedLen ∧ t.trust.verified = false) → off + d.payload.length ≤ d.hdr.p1 →
      ceilDiv (off + d.payload.length) 65536 - ceilDiv off 65536 ≤ t'.allocatable .hot → ∃ (v : State) (a : Ans),
      exec (.firmwareStage c) s = .next (v.finish ctx a) ∧ SameBut [.trust, .tiers, .mem, .drawn] t v ∧ bs.length = off + d.payload.length ∧
      (bs.length < d.hdr.p1 → a = Ans.ok ∧ v.trust = { t.trust with staged := bs, stagedLen := d.hdr.p1, verified := false, restaged := anew }) ∧
      (bs.length = d.hdr.p1 → if imageOk bs = true then a = Ans.ok ∧ v.trust = { t.trust with staged := bs, stagedLen := d.hdr.p1, verified := true, restaged := anew }
        else a = Ans.denied Reason.imageSignature ∧ v.trust = { t.trust with staged := [], stagedLen := 0, verified := false, restaged := anew }))) ∧
  (∀ (s t : State) (c d : Cmd) (ctx : CmdCtx), s.Accepts 0x0605 c d ctx t → t.Quiet → d.payload = [] →
    (t.trust.verified = false ∨ t.trust.activating ≠ [] → exec (.firmwareActivate c) s = .next (t.finish ctx (Ans.state Reason.imageStage))) ∧
    (t.trust.verified = true → t.trust.activating = [] → (∀ x ∈ t.node.drains, x.scope ≠ 1) → t.drifts.length = 16 → ∃ v : State,
      exec (.firmwareActivate c) s = .next (v.finish ctx (Ans.ok)) ∧
      v.trust = { t.trust with flashImage := some t.trust.staged, activating := [0, 1, 2, 3], restaged := false } ∧ 0 ∈ v.recover.poolsDrained ∧
      v.PassesStopped)) ∧
  (∀ (s : State) (p : Nat) (rest : List Nat), s.trust.activating = p :: rest →
    (∀ q, q ≠ p → exec (.firmwarePartitionDone q) s = .next s) ∧
    (s.poolConvs p ≠ [] → exec (.firmwarePartitionDone p) s = .next s) ∧
    (s.poolConvs p = [] → ∃ u : State, exec (.firmwarePartitionDone p) s = .next u ∧ SameBut [.trust, .recover, .tiers, .regs] s u ∧
      u.trust.activating = rest ∧ (∀ q, rest.head? = some q → q ∈ u.recover.poolsDrained ∧ u.trust = { s.trust with activating := rest }) ∧
      (p ∉ rest → p ∉ u.recover.poolsDrained) ∧
      (rest = [] → u.regs = { s.regs with poolMap := setAt s.regs.poolMap p p } ∧
        let ran := { s.trust with
          activating := [], runningImage := s.trust.flashImage, fwVersion := (s.trust.flashImage.map imageVersion).getD s.trust.fwVersion }
        u.trust = if s.trust.restaged = true then ran else { ran with staged := [], stagedLen := 0, verified := false }))) ∧
  (∀ (s t : State) (c d : Cmd) (ctx : CmdCtx) (x : Tenant), s.Accepts 0x0606 c d ctx t → t.Quiet → t.trust.tenant = some x → d.payload.length = 1152 →
    zeroAt d.payload 1 7 = true →
    let id := d.hdr.targetId
    (id ≠ x.setId ∨ fieldAt d.payload 8 8 ≠ id.toNat → exec (.setKeyUnwrap c) s = .next (t.finish ctx (Ans.param Reason.setMismatch))) ∧
    (id = x.setId → fieldAt d.payload 8 8 = id.toNat →
      if identityDigest ∉ x.entries then exec (.setKeyUnwrap c) s = .next (t.finish ctx (Ans.denied Reason.setNotListed))
      else match t.unwrapKey d.payload with
        | none => exec (.setKeyUnwrap c) s = .next (t.finish ctx (Ans.denied Reason.unwrapFail))
        | some key => ∃ v : State, exec (.setKeyUnwrap c) s = .next (v.finish ctx (Ans.ok)) ∧ SameBut [.trust] t v ∧
            v.trust = { t.trust with tenant := some { x with setKey := some key } })) ∧
  (∀ (s t : State) (c d : Cmd) (ctx : CmdCtx), s.Accepts 0x0701 c d ctx t → d.payload = [] →
    let block := d.hdr.targetId.toNat / 256
    let point := d.hdr.targetId.toNat % 256
    let kind := d.hdr.p0 % 256
    let count := bits d.hdr.p0 31 16
    (t.node.confidential = true → exec (.diagInject c) s = .next (t.finish ctx (Ans.denied Reason.confidential))) ∧
    (∀ a, t.node.confidential = false → injRefusal block point kind count = some a → exec (.diagInject c) s = .next (t.finish ctx a)) ∧
    (t.node.confidential = false → injRefusal block point kind count = none → (∀ x ∈ t.regs.inj, x.busy = true) →
      exec (.diagInject c) s = .next (t.finish ctx (Ans.throttled Reason.injectSlotsFull 1000))) ∧
    (∀ (n : Nat) (x : InjSlot), t.node.confidential = false → injRefusal block point kind count = none → t.regs.inj[n]? = some x → x.busy = false →
      (∀ (m : Nat) (y : InjSlot), m < n → t.regs.inj[m]? = some y → y.busy = true) → ∃ v : State, exec (.diagInject c) s = .next (v.finish ctx (Ans.ok)) ∧
      SameBut [.regs] t v ∧ (∀ m, m ≠ n → v.regs.inj[m]? = t.regs.inj[m]?) ∧
      ∃ y : InjSlot, v.regs.inj[n]? = some y ∧ y.block = block ∧ y.point = point ∧ y.kind = kind ∧ y.count = count ∧ y.busy = true ∧ y.done = 0 ∧ y.due = t.now)) ∧
  (∀ (s t : State) (c d : Cmd) (ctx : CmdCtx) (b : Nat), s.Accepts 0x0702 c d ctx t → d.payload.length = 16 → 1 ≤ b → b ≤ 24 →
    d.hdr.targetId.toNat = b → ∃ bs : List Byte, bs.length = 8 * counterCount b ∧
      (∀ n < counterCount b, fieldAt bs (8 * n) 8 = t.counterRead b n % 2 ^ 64) ∧
      exec (.diagCounters c) s = .next (if itemFits ctx.src (resultItemAt d.payload 0) bs.length then
          t.finish ctx { Ans.ok (counterCount b) with result := bs, item := resultItemAt d.payload 0 }
        else t.finish ctx (Ans.param Reason.resultSpace))) ∧
  (∀ (s t : State) (c d : Cmd) (ctx : CmdCtx), s.Accepts 0x0703 c d ctx t →
    (t.node.confidential = true → exec (.diagTrace c) s = .next (t.finish ctx (Ans.denied Reason.confidential))) ∧
    (t.node.confidential = false → bit d.hdr.p0 0 = true → bit d.hdr.p0 1 = false → d.payload = [] → ∃ v : State,
      exec (.diagTrace c) s = .next (v.finish ctx (Ans.ok)) ∧ SameBut [.trust] t v ∧ v.trust = { t.trust with trace := true }) ∧
    (t.node.confidential = false → bit d.hdr.p0 0 = false → bit d.hdr.p0 1 = true → d.payload.length = 16 → ∃ (v : State) (bs : List Byte),
      exec (.diagTrace c) s = .next (if itemFits ctx.src (resultItemAt d.payload 0) bs.length then
          v.finish ctx { Ans.ok bs.length with result := bs, item := resultItemAt d.payload 0 }
        else v.finish ctx (Ans.param Reason.resultSpace)) ∧
      SameBut [.trust, .drawn] t v ∧ v.trust = { t.trust with trace := false } ∧ (t.trust.trace = false → bs = [])))

/-! ## Power, start-up, monitors and time -/

/-- PWR_EN_FALL (R677): the module is OFF, and every register is at its reset value but for the flash, the count of rotations and the pins.
PWR_EN_RISE (R676, R683): with the input within 44 to 59 V the module leaves OFF for RIME_STANDBY, and Rime time starts at 0. RESET_ASSERT
(R678, R732): a pulse below 1 µs is ignored; a longer one leaves RIME_STANDBY in ROOTING, with Rime time running on. RESET_RELEASE (R653, R686,
R687, R695, R733): the module is ACTIVE under a new rotation, the event of a trip first in the queue; a release that comes too early is held. -/
def Obligations.PowerAndReset : Prop :=
  let kept := [Part.pins, .clk, .pwr, .up, .node, .trust, .net, .drawn]
  let flash := fun (s u : State) (keys : Nat) => u.trust = { rotation := u.trust.rotation, memoryKeys := keys, flashImage := s.trust.flashImage, flashProfile := s.trust.flashProfile } ∧
    u.net = { wire := s.net.wire }
  (∀ s : State, ∃ u : State, exec .pwrEnFall s = .next u ∧ u.pwr = { state := .off } ∧ u.node = { state := .off } ∧ u.clk = {} ∧ u.up = {} ∧
    u.pins = { s.pins with pwrEn := false, alertLow := false } ∧ u.trust.rotation = s.trust.rotation ∧ flash s u 0 ∧ SameBut kept State.reset u) ∧
  (∀ (s : State) (v : Int),
    (s.pwr.state ≠ .off → exec (.pwrEnRise v) s = .next s) ∧
    (s.pwr.state = .off → v < 4400 ∨ 5900 < v → ∃ u : State, exec (.pwrEnRise v) s = .next u ∧ u.pins = { s.pins with pwrEn := true } ∧
      SameBut [.pins] s u) ∧
    (s.pwr.state = .off → 4400 ≤ v → v ≤ 5900 → ∃ u : State, exec (.pwrEnRise v) s = .next u ∧ u.pwr.state = .standby ∧
      u.pwr.mons = setAt s.pwr.mons 0 v ∧ u.node = { state := .rooting } ∧ u.clk = {} ∧ u.pins.pwrEn = true ∧
      u.up = { releaseHeld := s.pins.resetN } ∧ u.trust.rotation = s.trust.rotation ∧ flash s u 0 ∧ SameBut kept State.reset u)) ∧
  (∀ (s : State) (low : Nat),
    (low < 1000 → exec (.resetAssert low) s = .next s) ∧
    (1000 ≤ low → s.pwr.state = .off → ∃ u : State, exec (.resetAssert low) s = .next u ∧ u.pins = { s.pins with resetN := false } ∧
      SameBut [.pins] s u) ∧
    (1000 ≤ low → s.pwr.state ≠ .off → ∃ u : State, exec (.resetAssert low) s = .next u ∧ u.pwr.state = .standby ∧ u.pwr.tripped = false ∧
      u.pwr.tripEvent = s.pwr.tripEvent ∧ u.node = { state := .rooting } ∧ u.clk = { rime := s.clk.rime } ∧
      u.pins = { s.pins with resetN := false, alertLow := false } ∧ u.trust.rotation = s.trust.rotation ∧ flash s u 0 ∧ SameBut kept State.reset u)) ∧
  (∀ s : State, s.pins.resetN = false →
    (s.pwr.state ≠ .standby → ∃ u : State, exec .resetRelease s = .next u ∧ u.pins = { s.pins with resetN := true } ∧ SameBut [.pins] s u) ∧
    (s.pwr.state = .standby → s.now < s.up.poweredAt + 5000000 → ∃ u : State, exec .resetRelease s = .next u ∧
      u.pins = { s.pins with resetN := true } ∧ u.up = { s.up with releaseHeld := true } ∧ SameBut [.pins, .up] s u) ∧
    (s.pwr.state = .standby → s.up.poweredAt + 5000000 ≤ s.now → ∃ u : State, exec .resetRelease s = .next u ∧ u.pwr.state = .active ∧
      u.pwr.tripped = false ∧ u.node = { state := .rooting } ∧ u.clk = { rime := s.clk.rime } ∧ u.pins.resetN = true ∧ u.up.since = s.now ∧
      u.trust.rotation = s.trust.rotation + 1 ∧ flash s u u.trust.rotation ∧ u.events = s.pwr.tripEvent.toList ∧ SameBut (.events :: kept) State.reset u))

/-- BELLWETHER_ROOTING_DONE (R642 to R644, R689): a failed self-test drives MOD_ALERT_N, a failed identity or image leads to RECOVERY_LISTEN, and
otherwise TRAINING begins with the image running; a profile in flash that is not valid is ignored with an event. TRAINING_DONE (R190, R688,
R690, R691): CONFIGURABLE, the first 64 tiles that passed ACTIVE, the others SPARE, the failed ones FAILED. FRAME_INIT_DONE (R690),
STARTUP_BOUND_TIMEOUT (R688). RECOVERY_HELLO and RECOVERY_CHUNK (R649): the announcement of each second; chunks in order are collected and
acknowledged; the whole image is verified, and restarts the node or is dropped. -/
def Obligations.StartUp : Prop :=
  (∀ (s : State) (a b i : Bool),
    (s.startingUp .rooting = false → exec (.bellwetherRootingDone a b i) s = .next s) ∧
    (s.startingUp .rooting = true →
      (∃ u : State, exec (.bellwetherRootingDone false b i) s = .next u ∧ u.pins.alertLow = true ∧ u.up = { s.up with selfTestFailed := true } ∧
        SameBut [.pins, .up] s u) ∧
      (∃ u : State, exec (.bellwetherRootingDone true false i) s = .next u ∧ u.node = { s.node with state := .recovery } ∧
        u.up = { s.up with recovery := some { reason := Reason.identityFail } } ∧ SameBut [.node, .up, .events, .pins, .counters] s u) ∧
      (∃ u : State, exec (.bellwetherRootingDone true true false) s = .next u ∧ u.node = { s.node with state := .recovery } ∧
        u.up = { s.up with recovery := some { reason := Reason.imageSignature } } ∧ SameBut [.node, .up] s u) ∧
      (∃ u : State, exec (.bellwetherRootingDone true true true) s = .next u ∧ u.node.state = .training ∧ u.up = { s.up with since := s.now } ∧
        u.clk.pll = [true, true, true, true, true, false, false, false] ∧
        (∃ im, u.trust = { s.trust with runningImage := some im, fwVersion := imageVersion im } ∧
          (∀ f, s.trust.flashImage = some f → im = f)) ∧
        (s.trust.flashProfile = none → u.node = { s.node with state := .training } ∧ SameBut [.node, .up, .clk, .trust] s u) ∧
        (∀ env, s.trust.flashProfile = some env → envelopeForm env = false ∨ envelopeOk env = false → u.node = { s.node with state := .training } ∧
          (s.events.length < 512 → ∃ e ∈ u.events, e.reason = Reason.profileSignature))))) ∧
  (∀ (s : State) (tiles hbm packages ports links blocks : List Nat),
    (s.startingUp .training = false → exec (.trainingDone tiles hbm packages ports links blocks) s = .next s) ∧
    (s.startingUp .training = true → ∃ u : State, exec (.trainingDone tiles hbm packages ports links blocks) s = .next u ∧
      u.node = { s.node with state := .configurable } ∧ u.trust = { s.trust with zeroing := some (s.now + 1010000000) } ∧
      u.clk.pll = List.replicate 8 true ∧ (∀ p ∈ ports, p < s.portCount → p < s.net.ports.length → (u.port p).link = true) ∧
      (∀ p < 72, ∃ x, u.attn.tiles[p]? = some x ∧
        x.role = (if p ∉ tiles then .failed else if ((List.range p).filter tiles.contains).length < 64 then .active else .spare)) ∧
      (∀ n < 64, (u.logical n).valid = decide (n < ((List.range 72).filter tiles.contains).length)) ∧ u.convs = s.convs)) ∧
  (∀ (s : State) (z : Nat), s.trust.zeroing = some z →
    (s.now < z → exec .frameInitDone s = .next s) ∧
    (z ≤ s.now → ∃ u : State, exec .frameInitDone s = .next u ∧ u.trust = { s.trust with zeroing := none } ∧
      u.up = { s.up with frameInitDone := true } ∧ SameBut [.trust, .up] s u)) ∧
  (∀ s : State, s.pwr.state = .active →
    let bound := if s.node.state = .rooting then 250000000 else 500000000
    (s.node.state ≠ .rooting → s.node.state ≠ .training → exec .startupBoundTimeout s = .next s) ∧
    (s.now < s.up.since + bound → exec .startupBoundTimeout s = .next s) ∧
    (s.node.state = .rooting ∨ s.node.state = .training → s.up.since + bound ≤ s.now → ∃ u : State, exec .startupBoundTimeout s = .next u ∧
      u.pins.alertLow = true ∧ u.up = { s.up with missedBound := true } ∧ SameBut [.pins, .up] s u)) ∧
  (∀ (s : State) (r : Recovery), s.node.state = .recovery → s.up.recovery = some r →
    let sent := fun (u : State) (bs : List (List Byte)) => ∃ ws : List Sent, u.net.wire = s.net.wire ++ ws ∧ ws.map (·.ops) = bs.map fun b => [.datagram b]
    (∀ t, r.lastHello = some t → s.now < t + 1000000000 → exec .recoveryHello s = .next s) ∧
    ((∀ t, r.lastHello = some t → t + 1000000000 ≤ s.now) → ∃ u : State, exec .recoveryHello s = .next u ∧
      sent u [recoveryMessage 1 (identityDigest ++ le 2 r.reason ++ le 2 Config.romVersion.toNat)] ∧
      u.up.recovery = some { r with lastHello := some s.now } ∧ SameBut [.net, .up] s u) ∧
    (∀ b, parseChunk b = none → exec (.recoveryChunk b) s = .next s) ∧
    (∀ b off total bs, parseChunk b = some (off, total, bs) →
      let image := r.image ++ bs
      (off ≠ r.next ∨ total < off + bs.length → ∃ u : State, exec (.recoveryChunk b) s = .next u ∧ sent u [recoveryMessage 3 (le 4 r.next)] ∧
        SameBut [.net] s u) ∧
      (off = r.next → off + bs.length < total → ∃ u : State, exec (.recoveryChunk b) s = .next u ∧
        sent u [recoveryMessage 3 (le 4 (off + bs.length))] ∧
        u.up.recovery = some { r with next := off + bs.length, total := total, image := image } ∧ SameBut [.net, .up] s u) ∧
      (off = r.next → off + bs.length = total → ∃ u : State, exec (.recoveryChunk b) s = .next u ∧
        (if imageOk image = true then
          sent u [recoveryMessage 3 (le 4 total), recoveryMessage 4 (le 1 Status.ok ++ le 2 0)] ∧ u.trust.flashImage = some image ∧
          u.node = { state := .rooting } ∧ u.trust.rotation = s.trust.rotation + 1 ∧ u.up.recovery = none
        else sent u [recoveryMessage 3 (le 4 total), recoveryMessage 4 (le 1 Status.denied ++ le 2 Reason.imageSignature)] ∧
          u.up.recovery = some { r with next := 0, total := 0, image := [] } ∧ SameBut [.net, .up] s u))))

/-- PLL_LOCK_LOST and PLL_RELOCK (R679 to R682): the loss is counted and noted in the watchdog bit of CLK, the ports of PLLs 5 and 6 lose their
link, and a second loss within 1 s fences the node. THROTTLE_STEP (R693): up a level every 10 ms beyond a limit, down every 100 ms inside all of
them, but not where a fence of the same millisecond is in the queue (R696). ENV_FENCE (R694): FENCED, with the tiles gated, unless a trip of the
same millisecond is in the queue. ENV_TRIP (R695): RIME_STANDBY, FENCED, no commands, the event kept. PTP_SYNC_RECV and
PPS_EDGE (R343, R685, R732): locked after 16 good intervals, unlocked by one that is not, which aborts the passes that wait on the clock; the
rule that corrects the count is the model's (log entry 29). -/
def Obligations.ClocksAndMonitors : Prop :=
  (∀ (s : State) (n : Nat), s.Quiet → s.blocks.length = 24 →
    (s.pwr.state ≠ .active ∨ s.clk.pll.getD n false = false → exec (.pllLockLost n) s = .next s) ∧
    (s.pwr.state ≠ .active → exec (.pllRelock n) s = .next s) ∧
    (s.pwr.state = .active → (∃ u : State, exec (.pllRelock n) s = .next u ∧ u.clk = { s.clk with pll := setAt s.clk.pll n true } ∧
      SameBut [.clk] s u)) ∧
    (s.pwr.state = .active → s.clk.pll.getD n false = true → ∃ u : State, exec (.pllLockLost n) s = .next u ∧
      u.clk = { s.clk with pll := setAt s.clk.pll n false, pllLost := setAt s.clk.pllLost n (some s.now) } ∧
      (u.blockAt Blk.clk).watchdog = true ∧ u.counter Ctr.pllRestart = min (s.counter Ctr.pllRestart + 1) (2 ^ 64 - 1) ∧
      (s.events.length < 512 → ∃ e ∈ u.events, e.block = Blk.clk ∧ e.reason = Reason.pllLockLost) ∧
      (∀ p < s.net.ports.length, ((n = 5 ∧ p < s.portCount / 2) ∨ (n = 6 ∧ s.portCount / 2 ≤ p ∧ p < 2 * (s.portCount / 2)) →
        (u.port p).link = false)) ∧
      ((∀ t, s.clk.pllLost.getD n none = some t → t + 1000000000 ≤ s.now) → u.node = s.node) ∧
      (∀ t, s.clk.pllLost.getD n none = some t → s.now < t + 1000000000 → u.node = if s.node.state = .fenced then s.node else
        { s.node with state := .fenced, drains := s.node.drains.filter fun x => x.scope != 0, serving := [] }))) ∧
  (∀ (s : State) (rs : List Int) (w : Nat), s.Quiet → rs.length = 16 → s.pwr.state = .active →
    let beyond := (∃ n < 16, overThrottle n (rs.getD n 0) = true) ∨ s.regs.pwrCap < w
    let clear := (∀ n < 16, clearOfThrottle n (rs.getD n 0) = true) ∧ 100 * w ≤ 95 * s.regs.pwrCap
    ∃ u : State, exec (.throttleStep rs w) s = .next u ∧ SameBut [.pwr] s u ∧ u.pwr.mons = rs ∧ u.pwr.inputW = w ∧
      (s.fenceAhead = true → u.pwr.level = s.pwr.level ∧ u.pwr.lastStep = s.pwr.lastStep) ∧
      (beyond → s.fenceAhead = false → s.pwr.lastStep + 10000000 ≤ s.now → s.pwr.level < 3 → u.pwr.level = s.pwr.level + 1 ∧ u.pwr.lastStep = s.now) ∧
      (beyond → s.now < s.pwr.lastStep + 10000000 ∨ 3 ≤ s.pwr.level → u.pwr.level = s.pwr.level) ∧
      (¬beyond → s.fenceAhead = false → clear → s.pwr.lastStep + 100000000 ≤ s.now → 0 < s.pwr.level → u.pwr.level + 1 = s.pwr.level ∧ u.pwr.lastStep = s.now) ∧
      (¬beyond → ¬clear ∨ s.now < s.pwr.lastStep + 100000000 → u.pwr.level = s.pwr.level)) ∧
  (∀ (s : State) (r : Reading), s.Quiet → s.pwr.state = .active →
    (s.node.state = .rooting ∨ s.node.state = .recovery ∨ s.node.state = .fenced → exec (.envFence r) s = .next s) ∧
    (s.node.state = .training ∨ s.node.state = .configurable ∨ s.node.state = .serving ∨ s.node.state = .degraded →
      (overFence r.monitor r.value r.heldMs = false ∨ s.tripAhead = true → ∃ u : State, exec (.envFence r) s = .next u ∧
        u.pwr = { s.pwr with mons := setAt s.pwr.mons r.monitor r.value } ∧ SameBut [.pwr] s u) ∧
      (overFence r.monitor r.value r.heldMs = true → s.tripAhead = false → s.drifts.length = 16 → ∃ u : State, exec (.envFence r) s = .next u ∧
        u.node = { s.node with state := .fenced, drains := s.node.drains.filter fun x => x.scope != 0, serving := [] } ∧ (s.events.length < 512 → ∃ e ∈ u.events, e.block = Blk.pwr ∧ e.reason = Reason.envFence) ∧
        (∀ x ∈ u.attn.tiles, x.power = .off ∨ x.power = .gated) ∧ u.PassesStopped ∧ u.convs = s.convs)) ∧
    (overTrip r.monitor r.value = false → ∃ u : State, exec (.envTrip r) s = .next u ∧
      u.pwr = { s.pwr with mons := setAt s.pwr.mons r.monitor r.value } ∧ SameBut [.pwr] s u) ∧
    (overTrip r.monitor r.value = true → ∃ (u : State) (e : Event), exec (.envTrip r) s = .next u ∧ u.pwr.state = .standby ∧ u.pwr.tripped = true ∧
      u.node = { state := .fenced } ∧ u.takesCommands = false ∧ u.pins.alertLow = true ∧ u.clk = { rime := s.clk.rime } ∧ u.net = { wire := s.net.wire } ∧
      u.pwr.tripEvent = some e ∧ e.block = Blk.pwr ∧ e.reason = (if r.monitor < 9 then Reason.voltageTrip else Reason.thermalTrip) ∧
      SameBut [.pins, .clk, .pwr, .up, .node, .trust, .net, .drawn] State.reset u)) ∧
  (∀ (s : State) (p : Nat) (off : Int), s.Quiet → s.pwr.state = .active →
    (s.portCount ≤ p ∨ (s.port p).link = false → exec (.ptpSyncRecv p off) s = .next s) ∧
    (p < s.portCount → (s.port p).link = true → ∃ u : State, exec (.ptpSyncRecv p off) s = .next u ∧ u.clk.offset = off ∧ u.clk.master = p ∧
      u.clk.rime = s.clk.rime ∧ ((s.node.profile.map (·.ppsTime)).getD false = false → u.clk.ptp = ((s.clk.ptp : Int) - off).toNat) ∧
      (off.natAbs ≤ 100 → u.clk.goodSyncs = s.clk.goodSyncs + 1 ∧ u.clk.locked = (s.clk.locked || decide (16 ≤ s.clk.goodSyncs + 1)) ∧
        SameBut [.clk, .events, .counters, .pins] s u) ∧
      (100 < off.natAbs → u.clk.goodSyncs = 0 ∧ u.clk.locked = false ∧ ∀ n < 16, (u.drift n).clocked u.clk.ptp = false) ∧
      (u.clk.locked ≠ s.clk.locked → s.events.length < 512 → ∃ e ∈ u.events, e.reason = Reason.ptpLockChange))) ∧
  (∀ s : State,
    (∀ t, s.clk.lastPps = some t → s.now < t + 500000000 → exec .ppsEdge s = .next s) ∧
    ((∀ t, s.clk.lastPps = some t → t + 500000000 ≤ s.now) → ∃ u : State, exec .ppsEdge s = .next u ∧ SameBut [.clk] s u ∧
      u.clk = { s.clk with
        lastPps := some s.now
        ptp := if (s.node.profile.map (·.ppsTime)).getD false = true then (s.clk.ptp + 500000000) / 1000000000 * 1000000000 else s.clk.ptp }))

/-- The management lane (R717 to R721). MGMT_CMD_PART: a message that is not well formed is counted and nothing else; a fifth exchange is
ignored; parts in order are collected and acknowledged, others only acknowledged; the last part runs the command; a part of an exchange whose
reply is held starts that reply again with REPEAT set. MGMT_ACK_RECV: the next part leaves, or the reply is held 100 ms more.
MGMT_PART_RETRANSMIT: after 1 ms, up to seven times. MGMT_REPLY_HOLD_EXPIRY: the exchange is gone. -/
def Obligations.ManagementLane : Prop :=
  let sent := fun (s u : State) (bs : List (List Byte)) => ∃ ws : List Sent, u.net.wire = s.net.wire ++ ws ∧ ws.map (·.ops) = bs.map fun b => [.datagram b]
  let ack := fun (e : Exchange) (n : Nat) => mgmtMessage 2 e.xid.toNat 0 e.total (ceilDiv n 16) []
  let part := fun (e : Exchange) => mgmtMessage 3 e.xid.toNat e.acked e.reply.length 0 (slice e.reply e.acked 8192)
  (∀ (s : State) (b : List Byte), s.takesCommands = true →
    (parseMgmt b = none ∨ (∃ m, parseMgmt b = some m ∧ m.ty ≠ 1) → ∃ u : State, exec (.mgmtCmdPart b) s = .next u ∧
      u.counter Ctr.mgmtBad = min (s.counter Ctr.mgmtBad + 1) (2 ^ 64 - 1) ∧ SameBut [.counters] s u) ∧
    (parseMgmt b = none ∨ (∃ m, parseMgmt b = some m ∧ m.ty ≠ 2) → ∃ u : State, exec (.mgmtAckRecv b) s = .next u ∧
      u.counter Ctr.mgmtBad = min (s.counter Ctr.mgmtBad + 1) (2 ^ 64 - 1) ∧ SameBut [.counters] s u) ∧
    (∀ m, parseMgmt b = some m → m.ty = 1 → s.exchange m.xid = none → 4 ≤ (s.net.lane.filter fun e => e.heldUntil.isNone).length →
      exec (.mgmtCmdPart b) s = .next s) ∧
    (∀ (m : MgmtMsg) (e : Exchange), parseMgmt b = some m → m.ty = 1 →
      s.exchange m.xid = some e ∨ (s.exchange m.xid = none ∧ (s.net.lane.filter fun e => e.heldUntil.isNone).length < 4 ∧
        e = { xid := m.xid, total := m.total }) → e.reply = [] → e.running = false →
      (m.off ≠ e.next ∨ m.total ≠ e.total → ∃ u : State, exec (.mgmtCmdPart b) s = .next u ∧ sent s u [ack e e.next] ∧ u.net.lane = s.net.lane ∧
        SameBut [.net] s u) ∧
      (m.off = e.next → m.total = e.total → e.next + m.data.length < e.total → ∃ u : State, exec (.mgmtCmdPart b) s = .next u ∧
        sent s u [ack e (e.next + m.data.length)] ∧ SameBut [.net] s u ∧
        u.exchange m.xid = some { e with next := e.next + m.data.length, data := e.data ++ m.data } ∧
        ∀ x, x ≠ m.xid → u.exchange x = s.exchange x) ∧
      (m.off = e.next → m.total = e.total → e.total ≤ e.next + m.data.length → ∃ u : State,
        exec (.mgmtCmdPart b) s = runOpcode (parseCmd (.lane m.xid) (e.data ++ m.data)) u ∧ sent s u [ack e (e.next + m.data.length)] ∧
        SameBut [.net] s u ∧ u.exchange m.xid = some { e with next := e.next + m.data.length, running := true, data := [] })) ∧
    (∀ (m : MgmtMsg) (e : Exchange), parseMgmt b = some m → m.ty = 1 → s.exchange m.xid = some e → e.reply ≠ [] → ∃ (u : State) (e' : Exchange),
      exec (.mgmtCmdPart b) s = .next u ∧ SameBut [.net] s u ∧ u.exchange m.xid = some e' ∧
      e' = { e with reply := e'.reply, acked := 0, sentAt := s.now, tries := 0, heldUntil := none } ∧ e'.reply.drop 64 = e.reply.drop 64 ∧
      (Hdr.decode (e'.reply.take 64)).flags.toNat.testBit 0 = true ∧ sent s u [mgmtMessage 2 e.xid.toNat 0 m.total (ceilDiv e.next 16) [], part e']) ∧
    (∀ (m : MgmtMsg) (e : Exchange), parseMgmt b = some m → m.ty = 2 → s.exchange m.xid = some e → e.reply ≠ [] → e.heldUntil = none →
      (e.reply.length ≤ 16 * m.next → ∃ u : State, exec (.mgmtAckRecv b) s = .next u ∧ SameBut [.net] s u ∧ u.net.wire = s.net.wire ∧
        u.exchange m.xid = some { e with acked := e.reply.length, heldUntil := some (s.now + 100000000) }) ∧
      (16 * m.next < e.reply.length → e.acked < 16 * m.next → 16 * m.next ≤ e.acked + 8192 → ∃ u : State,
        exec (.mgmtAckRecv b) s = .next u ∧ SameBut [.net] s u ∧
        u.exchange m.xid = some { e with acked := 16 * m.next, sentAt := s.now, tries := 0 } ∧ sent s u [part { e with acked := 16 * m.next }]))) ∧
  (∀ (s : State) (xid : W32) (e : Exchange), s.exchange xid = some e →
    (s.now < e.sentAt + 1000000 → exec (.mgmtPartRetransmit xid) s = .next s) ∧
    (e.reply ≠ [] → e.heldUntil = none → e.sentAt + 1000000 ≤ s.now →
      (e.tries < 7 → ∃ u : State, exec (.mgmtPartRetransmit xid) s = .next u ∧ SameBut [.net] s u ∧ sent s u [part e] ∧
        u.exchange xid = some { e with tries := e.tries + 1, sentAt := s.now }) ∧
      (7 ≤ e.tries → ∃ u : State, exec (.mgmtPartRetransmit xid) s = .next u ∧ SameBut [.net, .counters] s u ∧
        u.exchange xid = some { e with heldUntil := some (s.now + 100000000) } ∧
        u.counter Ctr.mgmtReplyDrop = min (s.counter Ctr.mgmtReplyDrop + 1) (2 ^ 64 - 1))) ∧
    (∀ t, e.heldUntil = some t →
      (s.now < t → exec (.mgmtReplyHoldExpiry xid) s = .next s) ∧
      (t ≤ s.now → ∃ u : State, exec (.mgmtReplyHoldExpiry xid) s = .next u ∧ SameBut [.net] s u ∧ u.exchange xid = none ∧
        ∀ x, x ≠ xid → u.exchange x = s.exchange x)))
end

