-- ==== Sys2Proof/Laws/Exec.lean ====
section
/-! SUPPORT. The meaning that exec gives each command, one equation for each constructor. -/
set_option Elab.async false

namespace Sys2Proof.Machine

@[simp] theorem exec_nodeQuery c (s : State) : exec (.nodeQuery c) s = execNodeQuery c s := rfl
@[simp] theorem exec_nodeProfileLoad c (s : State) : exec (.nodeProfileLoad c) s = execNodeProfileLoad c s := rfl
@[simp] theorem exec_fabricTableLoad c (s : State) : exec (.fabricTableLoad c) s = execFabricTableLoad c s := rfl
@[simp] theorem exec_nodeServe c (s : State) : exec (.nodeServe c) s = execNodeServe c s := rfl
@[simp] theorem exec_nodeDrain c (s : State) : exec (.nodeDrain c) s = execNodeDrain c s := rfl
@[simp] theorem exec_roleSet c (s : State) : exec (.roleSet c) s = execRoleSet c s := rfl
@[simp] theorem exec_regRead c (s : State) : exec (.regRead c) s = execRegRead c s := rfl
@[simp] theorem exec_regWrite c (s : State) : exec (.regWrite c) s = execRegWrite c s := rfl
@[simp] theorem exec_blockEnable c (s : State) : exec (.blockEnable c) s = execBlockEnable c s := rfl
@[simp] theorem exec_blockDisable c (s : State) : exec (.blockDisable c) s = execBlockDisable c s := rfl
@[simp] theorem exec_blockCheckDone block (s : State) : exec (.blockCheckDone block) s = execBlockCheckDone block s := rfl
@[simp] theorem exec_convOpen c (s : State) : exec (.convOpen c) s = execConvOpen c s := rfl
@[simp] theorem exec_convAppend c (s : State) : exec (.convAppend c) s = execConvAppend c s := rfl
@[simp] theorem exec_windowAppend p window slot ticket payload trailer (s : State) : exec (.windowAppend p window slot ticket payload trailer) s = execWindowAppend p window slot ticket payload trailer s := rfl
@[simp] theorem exec_gateRowPass cid (s : State) : exec (.gateRowPass cid) s = execGateRowPass cid s := rfl
@[simp] theorem exec_heldAppendPass cid (s : State) : exec (.heldAppendPass cid) s = execHeldAppendPass cid s := rfl
@[simp] theorem exec_appendCommit cid (s : State) : exec (.appendCommit cid) s = execAppendCommit cid s := rfl
@[simp] theorem exec_leaseExpiry cid (s : State) : exec (.leaseExpiry cid) s = execLeaseExpiry cid s := rfl
@[simp] theorem exec_gapTimeout cid append (s : State) : exec (.gapTimeout cid append) s = execGapTimeout cid append s := rfl
@[simp] theorem exec_twinTimeout cid append (s : State) : exec (.twinTimeout cid append) s = execTwinTimeout cid append s := rfl
@[simp] theorem exec_convSeal c (s : State) : exec (.convSeal c) s = execConvSeal c s := rfl
@[simp] theorem exec_convTruncate c (s : State) : exec (.convTruncate c) s = execConvTruncate c s := rfl
@[simp] theorem exec_convFork c (s : State) : exec (.convFork c) s = execConvFork c s := rfl
@[simp] theorem exec_convClose c (s : State) : exec (.convClose c) s = execConvClose c s := rfl
@[simp] theorem exec_convPin c (s : State) : exec (.convPin c) s = execConvPin c s := rfl
@[simp] theorem exec_convStat c (s : State) : exec (.convStat c) s = execConvStat c s := rfl
@[simp] theorem exec_convMoveOffer c (s : State) : exec (.convMoveOffer c) s = execConvMoveOffer c s := rfl
@[simp] theorem exec_convMoveAccept c (s : State) : exec (.convMoveAccept c) s = execConvMoveAccept c s := rfl
@[simp] theorem exec_convMoveCommit c (s : State) : exec (.convMoveCommit c) s = execConvMoveCommit c s := rfl
@[simp] theorem exec_moveProbeTimer cid (s : State) : exec (.moveProbeTimer cid) s = execMoveProbeTimer cid s := rfl
@[simp] theorem exec_ownerProbeReply cid owner committed epoch (s : State) : exec (.ownerProbeReply cid owner committed epoch) s = execOwnerProbeReply cid owner committed epoch s := rfl
@[simp] theorem exec_moveDeadline cid (s : State) : exec (.moveDeadline cid) s = execMoveDeadline cid s := rfl
@[simp] theorem exec_convLease c (s : State) : exec (.convLease c) s = execConvLease c s := rfl
@[simp] theorem exec_extentMoveStart cid first last dest (s : State) : exec (.extentMoveStart cid first last dest) s = execExtentMoveStart cid first last dest s := rfl
@[simp] theorem exec_extentMovePass cid (s : State) : exec (.extentMovePass cid) s = execExtentMovePass cid s := rfl
@[simp] theorem exec_extentSourceRelease cid first (s : State) : exec (.extentSourceRelease cid first) s = execExtentSourceRelease cid first s := rfl
@[simp] theorem exec_attnGraze c (s : State) : exec (.attnGraze c) s = execAttnGraze c s := rfl
@[simp] theorem exec_attnGrazeExact c (s : State) : exec (.attnGrazeExact c) s = execAttnGrazeExact c s := rfl
@[simp] theorem exec_attnCairn c (s : State) : exec (.attnCairn c) s = execAttnCairn c s := rfl
@[simp] theorem exec_grazeForward c (s : State) : exec (.grazeForward c) s = execGrazeForward c s := rfl
@[simp] theorem exec_continueForward c (s : State) : exec (.continueForward c) s = execContinueForward c s := rfl
@[simp] theorem exec_landingRecordPlace p slot data (s : State) : exec (.landingRecordPlace p slot data) s = execLandingRecordPlace p slot data s := rfl
@[simp] theorem exec_homePartialComplete ctx (s : State) : exec (.homePartialComplete ctx) s = execHomePartialComplete ctx s := rfl
@[simp] theorem exec_resultRecordDone ctx (s : State) : exec (.resultRecordDone ctx) s = execResultRecordDone ctx s := rfl
@[simp] theorem exec_participantReply ctx participant status reason param0 (s : State) : exec (.participantReply ctx participant status reason param0) s = execParticipantReply ctx participant status reason param0 s := rfl
@[simp] theorem exec_grazeDeadline ctx (s : State) : exec (.grazeDeadline ctx) s = execGrazeDeadline ctx s := rfl
@[simp] theorem exec_participantDeadline ctx (s : State) : exec (.participantDeadline ctx) s = execParticipantDeadline ctx s := rfl
@[simp] theorem exec_rowGroupAccept tile (s : State) : exec (.rowGroupAccept tile) s = execRowGroupAccept tile s := rfl
@[simp] theorem exec_tileDescriptor tile (s : State) : exec (.tileDescriptor tile) s = execTileDescriptor tile s := rfl
@[simp] theorem exec_tileClockStop tile (s : State) : exec (.tileClockStop tile) s = execTileClockStop tile s := rfl
@[simp] theorem exec_tileGate tile (s : State) : exec (.tileGate tile) s = execTileGate tile s := rfl
@[simp] theorem exec_tileFail tile cause (s : State) : exec (.tileFail tile cause) s = execTileFail tile cause s := rfl
@[simp] theorem exec_spareBind logical testPassed (s : State) : exec (.spareBind logical testPassed) s = execSpareBind logical testPassed s := rfl
@[simp] theorem exec_spareTest tile testPassed (s : State) : exec (.spareTest tile testPassed) s = execSpareTest tile testPassed s := rfl
@[simp] theorem exec_attnDriftArm c (s : State) : exec (.attnDriftArm c) s = execAttnDriftArm c s := rfl
@[simp] theorem exec_driftBlockFrozen slot (s : State) : exec (.driftBlockFrozen slot) s = execDriftBlockFrozen slot s := rfl
@[simp] theorem exec_driftPrepDone slot (s : State) : exec (.driftPrepDone slot) s = execDriftPrepDone slot s := rfl
@[simp] theorem exec_driftReadyRecv p message (s : State) : exec (.driftReadyRecv p message) s = execDriftReadyRecv p message s := rfl
@[simp] theorem exec_driftReadyDeadline slot (s : State) : exec (.driftReadyDeadline slot) s = execDriftReadyDeadline slot s := rfl
@[simp] theorem exec_driftBeatSend slot (s : State) : exec (.driftBeatSend slot) s = execDriftBeatSend slot s := rfl
@[simp] theorem exec_driftBeatRecv p message (s : State) : exec (.driftBeatRecv p message) s = execDriftBeatRecv p message s := rfl
@[simp] theorem exec_driftBeatSilence slot side (s : State) : exec (.driftBeatSilence slot side) s = execDriftBeatSilence slot side s := rfl
@[simp] theorem exec_driftStepStart slot (s : State) : exec (.driftStepStart slot) s = execDriftStepStart slot s := rfl
@[simp] theorem exec_driftBlockLand qp imm (s : State) : exec (.driftBlockLand qp imm) s = execDriftBlockLand qp imm s := rfl
@[simp] theorem exec_driftAccumDone slot (s : State) : exec (.driftAccumDone slot) s = execDriftAccumDone slot s := rfl
@[simp] theorem exec_driftWindowClose slot (s : State) : exec (.driftWindowClose slot) s = execDriftWindowClose slot s := rfl
@[simp] theorem exec_driftAbortRecv p message (s : State) : exec (.driftAbortRecv p message) s = execDriftAbortRecv p message s := rfl
@[simp] theorem exec_driftRelease slot (s : State) : exec (.driftRelease slot) s = execDriftRelease slot s := rfl
@[simp] theorem exec_driftResultAcked slot (s : State) : exec (.driftResultAcked slot) s = execDriftResultAcked slot s := rfl
@[simp] theorem exec_driftResultDeadline slot (s : State) : exec (.driftResultDeadline slot) s = execDriftResultDeadline slot s := rfl
@[simp] theorem exec_driftAbortForget ring takeover (s : State) : exec (.driftAbortForget ring takeover) s = execDriftAbortForget ring takeover s := rfl
@[simp] theorem exec_resultFetch c (s : State) : exec (.resultFetch c) s = execResultFetch c s := rfl
@[simp] theorem exec_resultRelease c (s : State) : exec (.resultRelease c) s = execResultRelease c s := rfl
@[simp] theorem exec_recordKeepExpiry subscriber requestId (s : State) : exec (.recordKeepExpiry subscriber requestId) s = execRecordKeepExpiry subscriber requestId s := rfl
@[simp] theorem exec_layoutDefine c (s : State) : exec (.layoutDefine c) s = execLayoutDefine c s := rfl
@[simp] theorem exec_modifierLoad c (s : State) : exec (.modifierLoad c) s = execModifierLoad c s := rfl
@[simp] theorem exec_regionCreate c (s : State) : exec (.regionCreate c) s = execRegionCreate c s := rfl
@[simp] theorem exec_regionRegister c (s : State) : exec (.regionRegister c) s = execRegionRegister c s := rfl
@[simp] theorem exec_regionRevoke c (s : State) : exec (.regionRevoke c) s = execRegionRevoke c s := rfl
@[simp] theorem exec_revokeComplete sequence (s : State) : exec (.revokeComplete sequence) s = execRevokeComplete sequence s := rfl
@[simp] theorem exec_revokeDeadline sequence (s : State) : exec (.revokeDeadline sequence) s = execRevokeDeadline sequence s := rfl
@[simp] theorem exec_regionPublish c (s : State) : exec (.regionPublish c) s = execRegionPublish c s := rfl
@[simp] theorem exec_publishCopyDone publication (s : State) : exec (.publishCopyDone publication) s = execPublishCopyDone publication s := rfl
@[simp] theorem exec_publishTwinned publication (s : State) : exec (.publishTwinned publication) s = execPublishTwinned publication s := rfl
@[simp] theorem exec_publishTimeout publication (s : State) : exec (.publishTimeout publication) s = execPublishTimeout publication s := rfl
@[simp] theorem exec_regionAttach c (s : State) : exec (.regionAttach c) s = execRegionAttach c s := rfl
@[simp] theorem exec_regionDetach c (s : State) : exec (.regionDetach c) s = execRegionDetach c s := rfl
@[simp] theorem exec_attachLeaseExpiry handle subscriber (s : State) : exec (.attachLeaseExpiry handle subscriber) s = execAttachLeaseExpiry handle subscriber s := rfl
@[simp] theorem exec_nearFill c (s : State) : exec (.nearFill c) s = execNearFill c s := rfl
@[simp] theorem exec_nearCopy c (s : State) : exec (.nearCopy c) s = execNearCopy c s := rfl
@[simp] theorem exec_nearCompare c (s : State) : exec (.nearCompare c) s = execNearCompare c s := rfl
@[simp] theorem exec_nearReduce c (s : State) : exec (.nearReduce c) s = execNearReduce c s := rfl
@[simp] theorem exec_nearCommandStart sequence (s : State) : exec (.nearCommandStart sequence) s = execNearCommandStart sequence s := rfl
@[simp] theorem exec_nearCommandDone sequence (s : State) : exec (.nearCommandDone sequence) s = execNearCommandDone sequence s := rfl
@[simp] theorem exec_nearDeadlineCut sequence written (s : State) : exec (.nearDeadlineCut sequence written) s = execNearDeadlineCut sequence written s := rfl
@[simp] theorem exec_prefixLookup c (s : State) : exec (.prefixLookup c) s = execPrefixLookup c s := rfl
@[simp] theorem exec_spillTargetAdd c (s : State) : exec (.spillTargetAdd c) s = execSpillTargetAdd c s := rfl
@[simp] theorem exec_hotEvict (s : State) : exec .hotEvict s = execHotEvict s := rfl
@[simp] theorem exec_warmEvict (s : State) : exec .warmEvict s = execWarmEvict s := rfl
@[simp] theorem exec_promoteStart page (s : State) : exec (.promoteStart page) s = execPromoteStart page s := rfl
@[simp] theorem exec_moveSwitchPoint page (s : State) : exec (.moveSwitchPoint page) s = execMoveSwitchPoint page s := rfl
@[simp] theorem exec_spillImageAck page (s : State) : exec (.spillImageAck page) s = execSpillImageAck page s := rfl
@[simp] theorem exec_recallStart page (s : State) : exec (.recallStart page) s = execRecallStart page s := rfl
@[simp] theorem exec_recallLanding p ticket image (s : State) : exec (.recallLanding p ticket image) s = execRecallLanding p ticket image s := rfl
@[simp] theorem exec_recallTimeout page (s : State) : exec (.recallTimeout page) s = execRecallTimeout page s := rfl
@[simp] theorem exec_repairCopyLand page copy (s : State) : exec (.repairCopyLand page copy) s = execRepairCopyLand page copy s := rfl
@[simp] theorem exec_scrubPass tier frame (s : State) : exec (.scrubPass tier frame) s = execScrubPass tier frame s := rfl
@[simp] theorem exec_rdmaWriteRecv m (s : State) : exec (.rdmaWriteRecv m) s = execRdmaWriteRecv m s := rfl
@[simp] theorem exec_rdmaReadRecv m (s : State) : exec (.rdmaReadRecv m) s = execRdmaReadRecv m s := rfl
@[simp] theorem exec_twinWriteRecv qp psn imm offset data (s : State) : exec (.twinWriteRecv qp psn imm offset data) s = execTwinWriteRecv qp psn imm offset data s := rfl
@[simp] theorem exec_rdmaAckRecv qp psn (s : State) : exec (.rdmaAckRecv qp psn) s = execRdmaAckRecv qp psn s := rfl
@[simp] theorem exec_rdmaNakRecv qp psn kind (s : State) : exec (.rdmaNakRecv qp psn kind) s = execRdmaNakRecv qp psn kind s := rfl
@[simp] theorem exec_ackTimeout qp (s : State) : exec (.ackTimeout qp) s = execAckTimeout qp s := rfl
@[simp] theorem exec_rnrNakRecv qp timerNs (s : State) : exec (.rnrNakRecv qp timerNs) s = execRnrNakRecv qp timerNs s := rfl
@[simp] theorem exec_rnrTimerExpiry qp (s : State) : exec (.rnrTimerExpiry qp) s = execRnrTimerExpiry qp s := rfl
@[simp] theorem exec_qpsEstablish c (s : State) : exec (.qpsEstablish c) s = execQpsEstablish c s := rfl
@[simp] theorem exec_qpsReset c (s : State) : exec (.qpsReset c) s = execQpsReset c s := rfl
@[simp] theorem exec_cePacketRecv qp (s : State) : exec (.cePacketRecv qp) s = execCePacketRecv qp s := rfl
@[simp] theorem exec_cnpRecv qp (s : State) : exec (.cnpRecv qp) s = execCnpRecv qp s := rfl
@[simp] theorem exec_rateRecoveryPeriod qp (s : State) : exec (.rateRecoveryPeriod qp) s = execRateRecoveryPeriod qp s := rfl
@[simp] theorem exec_pauseFrameRecv port priority pause (s : State) : exec (.pauseFrameRecv port priority pause) s = execPauseFrameRecv port priority pause s := rfl
@[simp] theorem exec_pfcStormTimer port priority (s : State) : exec (.pfcStormTimer port priority) s = execPfcStormTimer port priority s := rfl
@[simp] theorem exec_egressFrameSelect port (s : State) : exec (.egressFrameSelect port) s = execEgressFrameSelect port s := rfl
@[simp] theorem exec_gateEntryInstant port (s : State) : exec (.gateEntryInstant port) s = execGateEntryInstant port s := rfl
@[simp] theorem exec_gclChange c (s : State) : exec (.gclChange c) s = execGclChange c s := rfl
@[simp] theorem exec_gclChangeEffect port (s : State) : exec (.gclChangeEffect port) s = execGclChangeEffect port s := rfl
@[simp] theorem exec_twinBind c (s : State) : exec (.twinBind c) s = execTwinBind c s := rfl
@[simp] theorem exec_twinResync c (s : State) : exec (.twinResync c) s = execTwinResync c s := rfl
@[simp] theorem exec_convPromotion cid (s : State) : exec (.convPromotion cid) s = execConvPromotion cid s := rfl
@[simp] theorem exec_promotedPageHotMove page (s : State) : exec (.promotedPageHotMove page) s = execPromotedPageHotMove page s := rfl
@[simp] theorem exec_healthRead c (s : State) : exec (.healthRead c) s = execHealthRead c s := rfl
@[simp] theorem exec_fence c (s : State) : exec (.fence c) s = execFence c s := rfl
@[simp] theorem exec_ownerProbe c (s : State) : exec (.ownerProbe c) s = execOwnerProbe c s := rfl
@[simp] theorem exec_stampSend partner (s : State) : exec (.stampSend partner) s = execStampSend partner s := rfl
@[simp] theorem exec_stampRecv p message (s : State) : exec (.stampRecv p message) s = execStampRecv p message s := rfl
@[simp] theorem exec_partnerSilence partner (s : State) : exec (.partnerSilence partner) s = execPartnerSilence partner s := rfl
@[simp] theorem exec_standinOfferTimeout (s : State) : exec .standinOfferTimeout s = execStandinOfferTimeout s := rfl
@[simp] theorem exec_resyncCopyAck page (s : State) : exec (.resyncCopyAck page) s = execResyncCopyAck page s := rfl
@[simp] theorem exec_poolFail pool (s : State) : exec (.poolFail pool) s = execPoolFail pool s := rfl
@[simp] theorem exec_healthTick fecPerS linkRetrains (s : State) : exec (.healthTick fecPerS linkRetrains) s = execHealthTick fecPerS linkRetrains s := rfl
@[simp] theorem exec_healthLowTimer (s : State) : exec .healthLowTimer s = execHealthLowTimer s := rfl
@[simp] theorem exec_degradedRecover (s : State) : exec .degradedRecover s = execDegradedRecover s := rfl
@[simp] theorem exec_guardWindowStart (s : State) : exec .guardWindowStart s = execGuardWindowStart s := rfl
@[simp] theorem exec_attest c (s : State) : exec (.attest c) s = execAttest c s := rfl
@[simp] theorem exec_tenantBegin c (s : State) : exec (.tenantBegin c) s = execTenantBegin c s := rfl
@[simp] theorem exec_tenantEnd c (s : State) : exec (.tenantEnd c) s = execTenantEnd c s := rfl
@[simp] theorem exec_zeroingDone (s : State) : exec .zeroingDone s = execZeroingDone s := rfl
@[simp] theorem exec_firmwareStage c (s : State) : exec (.firmwareStage c) s = execFirmwareStage c s := rfl
@[simp] theorem exec_firmwareActivate c (s : State) : exec (.firmwareActivate c) s = execFirmwareActivate c s := rfl
@[simp] theorem exec_firmwarePartitionDone pool (s : State) : exec (.firmwarePartitionDone pool) s = execFirmwarePartitionDone pool s := rfl
@[simp] theorem exec_drainDone (s : State) : exec .drainDone s = execDrainDone s := rfl
@[simp] theorem exec_setKeyUnwrap c (s : State) : exec (.setKeyUnwrap c) s = execSetKeyUnwrap c s := rfl
@[simp] theorem exec_diagInject c (s : State) : exec (.diagInject c) s = execDiagInject c s := rfl
@[simp] theorem exec_diagCounters c (s : State) : exec (.diagCounters c) s = execDiagCounters c s := rfl
@[simp] theorem exec_diagTrace c (s : State) : exec (.diagTrace c) s = execDiagTrace c s := rfl
@[simp] theorem exec_injArm c (s : State) : exec (.injArm c) s = execInjArm c s := rfl
@[simp] theorem exec_injDisarm c (s : State) : exec (.injDisarm c) s = execInjDisarm c s := rfl
@[simp] theorem exec_injBlockDisarm c (s : State) : exec (.injBlockDisarm c) s = execInjBlockDisarm c s := rfl
@[simp] theorem exec_injDelayExpiry slot (s : State) : exec (.injDelayExpiry slot) s = execInjDelayExpiry slot s := rfl
@[simp] theorem exec_chkUnitEnable c (s : State) : exec (.chkUnitEnable c) s = execChkUnitEnable c s := rfl
@[simp] theorem exec_evtPop c (s : State) : exec (.evtPop c) s = execEvtPop c s := rfl
@[simp] theorem exec_pwrEnRise input (s : State) : exec (.pwrEnRise input) s = execPwrEnRise input s := rfl
@[simp] theorem exec_pwrEnFall (s : State) : exec .pwrEnFall s = execPwrEnFall s := rfl
@[simp] theorem exec_resetAssert lowNs (s : State) : exec (.resetAssert lowNs) s = execResetAssert lowNs s := rfl
@[simp] theorem exec_resetRelease (s : State) : exec .resetRelease s = execResetRelease s := rfl
@[simp] theorem exec_bellwetherRootingDone selfTest identity image (s : State) : exec (.bellwetherRootingDone selfTest identity image) s = execBellwetherRootingDone selfTest identity image s := rfl
@[simp] theorem exec_trainingDone tiles hbm packages ports badLinks badBlocks (s : State) : exec (.trainingDone tiles hbm packages ports badLinks badBlocks) s = execTrainingDone tiles hbm packages ports badLinks badBlocks s := rfl
@[simp] theorem exec_startupBoundTimeout (s : State) : exec .startupBoundTimeout s = execStartupBoundTimeout s := rfl
@[simp] theorem exec_frameInitDone (s : State) : exec .frameInitDone s = execFrameInitDone s := rfl
@[simp] theorem exec_recoveryHello (s : State) : exec .recoveryHello s = execRecoveryHello s := rfl
@[simp] theorem exec_recoveryChunk message (s : State) : exec (.recoveryChunk message) s = execRecoveryChunk message s := rfl
@[simp] theorem exec_pllLockLost pll (s : State) : exec (.pllLockLost pll) s = execPllLockLost pll s := rfl
@[simp] theorem exec_pllRelock pll (s : State) : exec (.pllRelock pll) s = execPllRelock pll s := rfl
@[simp] theorem exec_throttleStep readings inputW (s : State) : exec (.throttleStep readings inputW) s = execThrottleStep readings inputW s := rfl
@[simp] theorem exec_envFence reading (s : State) : exec (.envFence reading) s = execEnvFence reading s := rfl
@[simp] theorem exec_envTrip reading (s : State) : exec (.envTrip reading) s = execEnvTrip reading s := rfl
@[simp] theorem exec_ptpSyncRecv port offset (s : State) : exec (.ptpSyncRecv port offset) s = execPtpSyncRecv port offset s := rfl
@[simp] theorem exec_ppsEdge (s : State) : exec .ppsEdge s = execPpsEdge s := rfl
@[simp] theorem exec_mgmtCmdPart message (s : State) : exec (.mgmtCmdPart message) s = execMgmtCmdPart message s := rfl
@[simp] theorem exec_mgmtAckRecv message (s : State) : exec (.mgmtAckRecv message) s = execMgmtAckRecv message s := rfl
@[simp] theorem exec_mgmtPartRetransmit xid (s : State) : exec (.mgmtPartRetransmit xid) s = execMgmtPartRetransmit xid s := rfl
@[simp] theorem exec_mgmtReplyHoldExpiry xid (s : State) : exec (.mgmtReplyHoldExpiry xid) s = execMgmtReplyHoldExpiry xid s := rfl
@[simp] theorem exec_tileWake tile (s : State) : exec (.tileWake tile) s = execTileWake tile s := rfl
@[simp] theorem exec_portLinkLoss port (s : State) : exec (.portLinkLoss port) s = execPortLinkLoss port s := rfl
@[simp] theorem exec_portLinkUp port (s : State) : exec (.portLinkUp port) s = execPortLinkUp port s := rfl
@[simp] theorem exec_moveLegReply cid status reason (s : State) : exec (.moveLegReply cid status reason) s = execMoveLegReply cid status reason s := rfl
@[simp] theorem exec_nearReduceReply ctx status reason (s : State) : exec (.nearReduceReply ctx status reason) s = execNearReduceReply ctx status reason s := rfl
@[simp] theorem exec_repairFetch p cid layer head page frame (s : State) : exec (.repairFetch p cid layer head page frame) s = execRepairFetch p cid layer head page frame s := rfl

end Sys2Proof.Machine
end

