-- ==== Sys2Proof/Laws/State.lean ====
section
/-! SUPPORT. The fields of the state after each elementary update: the part that it changes, and every part that it leaves. -/
set_option Elab.async false

namespace Sys2Proof.Machine

variable (s : State)

@[simp] theorem State.modNet_net (g : Net → Net) : (s.modNet g).net = g s.net := rfl
@[simp] theorem State.modNet_pending (g : Net → Net) : (s.modNet g).pending = s.pending := rfl
@[simp] theorem State.modNet_pins (g : Net → Net) : (s.modNet g).pins = s.pins := rfl
@[simp] theorem State.modNet_clk (g : Net → Net) : (s.modNet g).clk = s.clk := rfl
@[simp] theorem State.modNet_pwr (g : Net → Net) : (s.modNet g).pwr = s.pwr := rfl
@[simp] theorem State.modNet_up (g : Net → Net) : (s.modNet g).up = s.up := rfl
@[simp] theorem State.modNet_node (g : Net → Net) : (s.modNet g).node = s.node := rfl
@[simp] theorem State.modNet_trust (g : Net → Net) : (s.modNet g).trust = s.trust := rfl
@[simp] theorem State.modNet_blocks (g : Net → Net) : (s.modNet g).blocks = s.blocks := rfl
@[simp] theorem State.modNet_counters (g : Net → Net) : (s.modNet g).counters = s.counters := rfl
@[simp] theorem State.modNet_events (g : Net → Net) : (s.modNet g).events = s.events := rfl
@[simp] theorem State.modNet_regs (g : Net → Net) : (s.modNet g).regs = s.regs := rfl
@[simp] theorem State.modNet_tiers (g : Net → Net) : (s.modNet g).tiers = s.tiers := rfl
@[simp] theorem State.modNet_convs (g : Net → Net) : (s.modNet g).convs = s.convs := rfl
@[simp] theorem State.modNet_attn (g : Net → Net) : (s.modNet g).attn = s.attn := rfl
@[simp] theorem State.modNet_drifts (g : Net → Net) : (s.modNet g).drifts = s.drifts := rfl
@[simp] theorem State.modNet_aborts (g : Net → Net) : (s.modNet g).aborts = s.aborts := rfl
@[simp] theorem State.modNet_readies (g : Net → Net) : (s.modNet g).readies = s.readies := rfl
@[simp] theorem State.modNet_released (g : Net → Net) : (s.modNet g).released = s.released := rfl
@[simp] theorem State.modNet_regions (g : Net → Net) : (s.modNet g).regions = s.regions := rfl
@[simp] theorem State.modNet_recover (g : Net → Net) : (s.modNet g).recover = s.recover := rfl
@[simp] theorem State.modNet_drawn (g : Net → Net) : (s.modNet g).drawn = s.drawn := rfl

@[simp] theorem State.modTiers_tiers (g : Tiers → Tiers) : (s.modTiers g).tiers = g s.tiers := rfl
@[simp] theorem State.modTiers_pending (g : Tiers → Tiers) : (s.modTiers g).pending = s.pending := rfl
@[simp] theorem State.modTiers_pins (g : Tiers → Tiers) : (s.modTiers g).pins = s.pins := rfl
@[simp] theorem State.modTiers_clk (g : Tiers → Tiers) : (s.modTiers g).clk = s.clk := rfl
@[simp] theorem State.modTiers_pwr (g : Tiers → Tiers) : (s.modTiers g).pwr = s.pwr := rfl
@[simp] theorem State.modTiers_up (g : Tiers → Tiers) : (s.modTiers g).up = s.up := rfl
@[simp] theorem State.modTiers_node (g : Tiers → Tiers) : (s.modTiers g).node = s.node := rfl
@[simp] theorem State.modTiers_trust (g : Tiers → Tiers) : (s.modTiers g).trust = s.trust := rfl
@[simp] theorem State.modTiers_blocks (g : Tiers → Tiers) : (s.modTiers g).blocks = s.blocks := rfl
@[simp] theorem State.modTiers_counters (g : Tiers → Tiers) : (s.modTiers g).counters = s.counters := rfl
@[simp] theorem State.modTiers_events (g : Tiers → Tiers) : (s.modTiers g).events = s.events := rfl
@[simp] theorem State.modTiers_regs (g : Tiers → Tiers) : (s.modTiers g).regs = s.regs := rfl
@[simp] theorem State.modTiers_convs (g : Tiers → Tiers) : (s.modTiers g).convs = s.convs := rfl
@[simp] theorem State.modTiers_attn (g : Tiers → Tiers) : (s.modTiers g).attn = s.attn := rfl
@[simp] theorem State.modTiers_drifts (g : Tiers → Tiers) : (s.modTiers g).drifts = s.drifts := rfl
@[simp] theorem State.modTiers_aborts (g : Tiers → Tiers) : (s.modTiers g).aborts = s.aborts := rfl
@[simp] theorem State.modTiers_readies (g : Tiers → Tiers) : (s.modTiers g).readies = s.readies := rfl
@[simp] theorem State.modTiers_released (g : Tiers → Tiers) : (s.modTiers g).released = s.released := rfl
@[simp] theorem State.modTiers_regions (g : Tiers → Tiers) : (s.modTiers g).regions = s.regions := rfl
@[simp] theorem State.modTiers_net (g : Tiers → Tiers) : (s.modTiers g).net = s.net := rfl
@[simp] theorem State.modTiers_recover (g : Tiers → Tiers) : (s.modTiers g).recover = s.recover := rfl
@[simp] theorem State.modTiers_drawn (g : Tiers → Tiers) : (s.modTiers g).drawn = s.drawn := rfl

@[simp] theorem State.modAttn_attn (g : Attn → Attn) : (s.modAttn g).attn = g s.attn := rfl
@[simp] theorem State.modAttn_pending (g : Attn → Attn) : (s.modAttn g).pending = s.pending := rfl
@[simp] theorem State.modAttn_pins (g : Attn → Attn) : (s.modAttn g).pins = s.pins := rfl
@[simp] theorem State.modAttn_clk (g : Attn → Attn) : (s.modAttn g).clk = s.clk := rfl
@[simp] theorem State.modAttn_pwr (g : Attn → Attn) : (s.modAttn g).pwr = s.pwr := rfl
@[simp] theorem State.modAttn_up (g : Attn → Attn) : (s.modAttn g).up = s.up := rfl
@[simp] theorem State.modAttn_node (g : Attn → Attn) : (s.modAttn g).node = s.node := rfl
@[simp] theorem State.modAttn_trust (g : Attn → Attn) : (s.modAttn g).trust = s.trust := rfl
@[simp] theorem State.modAttn_blocks (g : Attn → Attn) : (s.modAttn g).blocks = s.blocks := rfl
@[simp] theorem State.modAttn_counters (g : Attn → Attn) : (s.modAttn g).counters = s.counters := rfl
@[simp] theorem State.modAttn_events (g : Attn → Attn) : (s.modAttn g).events = s.events := rfl
@[simp] theorem State.modAttn_regs (g : Attn → Attn) : (s.modAttn g).regs = s.regs := rfl
@[simp] theorem State.modAttn_tiers (g : Attn → Attn) : (s.modAttn g).tiers = s.tiers := rfl
@[simp] theorem State.modAttn_convs (g : Attn → Attn) : (s.modAttn g).convs = s.convs := rfl
@[simp] theorem State.modAttn_drifts (g : Attn → Attn) : (s.modAttn g).drifts = s.drifts := rfl
@[simp] theorem State.modAttn_aborts (g : Attn → Attn) : (s.modAttn g).aborts = s.aborts := rfl
@[simp] theorem State.modAttn_readies (g : Attn → Attn) : (s.modAttn g).readies = s.readies := rfl
@[simp] theorem State.modAttn_released (g : Attn → Attn) : (s.modAttn g).released = s.released := rfl
@[simp] theorem State.modAttn_regions (g : Attn → Attn) : (s.modAttn g).regions = s.regions := rfl
@[simp] theorem State.modAttn_net (g : Attn → Attn) : (s.modAttn g).net = s.net := rfl
@[simp] theorem State.modAttn_recover (g : Attn → Attn) : (s.modAttn g).recover = s.recover := rfl
@[simp] theorem State.modAttn_drawn (g : Attn → Attn) : (s.modAttn g).drawn = s.drawn := rfl

@[simp] theorem State.modRegions_regions (g : Regions → Regions) : (s.modRegions g).regions = g s.regions := rfl
@[simp] theorem State.modRegions_pending (g : Regions → Regions) : (s.modRegions g).pending = s.pending := rfl
@[simp] theorem State.modRegions_pins (g : Regions → Regions) : (s.modRegions g).pins = s.pins := rfl
@[simp] theorem State.modRegions_clk (g : Regions → Regions) : (s.modRegions g).clk = s.clk := rfl
@[simp] theorem State.modRegions_pwr (g : Regions → Regions) : (s.modRegions g).pwr = s.pwr := rfl
@[simp] theorem State.modRegions_up (g : Regions → Regions) : (s.modRegions g).up = s.up := rfl
@[simp] theorem State.modRegions_node (g : Regions → Regions) : (s.modRegions g).node = s.node := rfl
@[simp] theorem State.modRegions_trust (g : Regions → Regions) : (s.modRegions g).trust = s.trust := rfl
@[simp] theorem State.modRegions_blocks (g : Regions → Regions) : (s.modRegions g).blocks = s.blocks := rfl
@[simp] theorem State.modRegions_counters (g : Regions → Regions) : (s.modRegions g).counters = s.counters := rfl
@[simp] theorem State.modRegions_events (g : Regions → Regions) : (s.modRegions g).events = s.events := rfl
@[simp] theorem State.modRegions_regs (g : Regions → Regions) : (s.modRegions g).regs = s.regs := rfl
@[simp] theorem State.modRegions_tiers (g : Regions → Regions) : (s.modRegions g).tiers = s.tiers := rfl
@[simp] theorem State.modRegions_convs (g : Regions → Regions) : (s.modRegions g).convs = s.convs := rfl
@[simp] theorem State.modRegions_attn (g : Regions → Regions) : (s.modRegions g).attn = s.attn := rfl
@[simp] theorem State.modRegions_drifts (g : Regions → Regions) : (s.modRegions g).drifts = s.drifts := rfl
@[simp] theorem State.modRegions_aborts (g : Regions → Regions) : (s.modRegions g).aborts = s.aborts := rfl
@[simp] theorem State.modRegions_readies (g : Regions → Regions) : (s.modRegions g).readies = s.readies := rfl
@[simp] theorem State.modRegions_released (g : Regions → Regions) : (s.modRegions g).released = s.released := rfl
@[simp] theorem State.modRegions_net (g : Regions → Regions) : (s.modRegions g).net = s.net := rfl
@[simp] theorem State.modRegions_recover (g : Regions → Regions) : (s.modRegions g).recover = s.recover := rfl
@[simp] theorem State.modRegions_drawn (g : Regions → Regions) : (s.modRegions g).drawn = s.drawn := rfl

@[simp] theorem State.modRecover_recover (g : Recover → Recover) : (s.modRecover g).recover = g s.recover := rfl
@[simp] theorem State.modRecover_pending (g : Recover → Recover) : (s.modRecover g).pending = s.pending := rfl
@[simp] theorem State.modRecover_pins (g : Recover → Recover) : (s.modRecover g).pins = s.pins := rfl
@[simp] theorem State.modRecover_clk (g : Recover → Recover) : (s.modRecover g).clk = s.clk := rfl
@[simp] theorem State.modRecover_pwr (g : Recover → Recover) : (s.modRecover g).pwr = s.pwr := rfl
@[simp] theorem State.modRecover_up (g : Recover → Recover) : (s.modRecover g).up = s.up := rfl
@[simp] theorem State.modRecover_node (g : Recover → Recover) : (s.modRecover g).node = s.node := rfl
@[simp] theorem State.modRecover_trust (g : Recover → Recover) : (s.modRecover g).trust = s.trust := rfl
@[simp] theorem State.modRecover_blocks (g : Recover → Recover) : (s.modRecover g).blocks = s.blocks := rfl
@[simp] theorem State.modRecover_counters (g : Recover → Recover) : (s.modRecover g).counters = s.counters := rfl
@[simp] theorem State.modRecover_events (g : Recover → Recover) : (s.modRecover g).events = s.events := rfl
@[simp] theorem State.modRecover_regs (g : Recover → Recover) : (s.modRecover g).regs = s.regs := rfl
@[simp] theorem State.modRecover_tiers (g : Recover → Recover) : (s.modRecover g).tiers = s.tiers := rfl
@[simp] theorem State.modRecover_convs (g : Recover → Recover) : (s.modRecover g).convs = s.convs := rfl
@[simp] theorem State.modRecover_attn (g : Recover → Recover) : (s.modRecover g).attn = s.attn := rfl
@[simp] theorem State.modRecover_drifts (g : Recover → Recover) : (s.modRecover g).drifts = s.drifts := rfl
@[simp] theorem State.modRecover_aborts (g : Recover → Recover) : (s.modRecover g).aborts = s.aborts := rfl
@[simp] theorem State.modRecover_readies (g : Recover → Recover) : (s.modRecover g).readies = s.readies := rfl
@[simp] theorem State.modRecover_released (g : Recover → Recover) : (s.modRecover g).released = s.released := rfl
@[simp] theorem State.modRecover_regions (g : Recover → Recover) : (s.modRecover g).regions = s.regions := rfl
@[simp] theorem State.modRecover_net (g : Recover → Recover) : (s.modRecover g).net = s.net := rfl
@[simp] theorem State.modRecover_drawn (g : Recover → Recover) : (s.modRecover g).drawn = s.drawn := rfl

@[simp] theorem State.modNode_node (g : Node → Node) : (s.modNode g).node = g s.node := rfl
@[simp] theorem State.modNode_pending (g : Node → Node) : (s.modNode g).pending = s.pending := rfl
@[simp] theorem State.modNode_pins (g : Node → Node) : (s.modNode g).pins = s.pins := rfl
@[simp] theorem State.modNode_clk (g : Node → Node) : (s.modNode g).clk = s.clk := rfl
@[simp] theorem State.modNode_pwr (g : Node → Node) : (s.modNode g).pwr = s.pwr := rfl
@[simp] theorem State.modNode_up (g : Node → Node) : (s.modNode g).up = s.up := rfl
@[simp] theorem State.modNode_trust (g : Node → Node) : (s.modNode g).trust = s.trust := rfl
@[simp] theorem State.modNode_blocks (g : Node → Node) : (s.modNode g).blocks = s.blocks := rfl
@[simp] theorem State.modNode_counters (g : Node → Node) : (s.modNode g).counters = s.counters := rfl
@[simp] theorem State.modNode_events (g : Node → Node) : (s.modNode g).events = s.events := rfl
@[simp] theorem State.modNode_regs (g : Node → Node) : (s.modNode g).regs = s.regs := rfl
@[simp] theorem State.modNode_tiers (g : Node → Node) : (s.modNode g).tiers = s.tiers := rfl
@[simp] theorem State.modNode_convs (g : Node → Node) : (s.modNode g).convs = s.convs := rfl
@[simp] theorem State.modNode_attn (g : Node → Node) : (s.modNode g).attn = s.attn := rfl
@[simp] theorem State.modNode_drifts (g : Node → Node) : (s.modNode g).drifts = s.drifts := rfl
@[simp] theorem State.modNode_aborts (g : Node → Node) : (s.modNode g).aborts = s.aborts := rfl
@[simp] theorem State.modNode_readies (g : Node → Node) : (s.modNode g).readies = s.readies := rfl
@[simp] theorem State.modNode_released (g : Node → Node) : (s.modNode g).released = s.released := rfl
@[simp] theorem State.modNode_regions (g : Node → Node) : (s.modNode g).regions = s.regions := rfl
@[simp] theorem State.modNode_net (g : Node → Node) : (s.modNode g).net = s.net := rfl
@[simp] theorem State.modNode_recover (g : Node → Node) : (s.modNode g).recover = s.recover := rfl
@[simp] theorem State.modNode_drawn (g : Node → Node) : (s.modNode g).drawn = s.drawn := rfl

@[simp] theorem State.modTrust_trust (g : Trust → Trust) : (s.modTrust g).trust = g s.trust := rfl
@[simp] theorem State.modTrust_pending (g : Trust → Trust) : (s.modTrust g).pending = s.pending := rfl
@[simp] theorem State.modTrust_pins (g : Trust → Trust) : (s.modTrust g).pins = s.pins := rfl
@[simp] theorem State.modTrust_clk (g : Trust → Trust) : (s.modTrust g).clk = s.clk := rfl
@[simp] theorem State.modTrust_pwr (g : Trust → Trust) : (s.modTrust g).pwr = s.pwr := rfl
@[simp] theorem State.modTrust_up (g : Trust → Trust) : (s.modTrust g).up = s.up := rfl
@[simp] theorem State.modTrust_node (g : Trust → Trust) : (s.modTrust g).node = s.node := rfl
@[simp] theorem State.modTrust_blocks (g : Trust → Trust) : (s.modTrust g).blocks = s.blocks := rfl
@[simp] theorem State.modTrust_counters (g : Trust → Trust) : (s.modTrust g).counters = s.counters := rfl
@[simp] theorem State.modTrust_events (g : Trust → Trust) : (s.modTrust g).events = s.events := rfl
@[simp] theorem State.modTrust_regs (g : Trust → Trust) : (s.modTrust g).regs = s.regs := rfl
@[simp] theorem State.modTrust_tiers (g : Trust → Trust) : (s.modTrust g).tiers = s.tiers := rfl
@[simp] theorem State.modTrust_convs (g : Trust → Trust) : (s.modTrust g).convs = s.convs := rfl
@[simp] theorem State.modTrust_attn (g : Trust → Trust) : (s.modTrust g).attn = s.attn := rfl
@[simp] theorem State.modTrust_drifts (g : Trust → Trust) : (s.modTrust g).drifts = s.drifts := rfl
@[simp] theorem State.modTrust_aborts (g : Trust → Trust) : (s.modTrust g).aborts = s.aborts := rfl
@[simp] theorem State.modTrust_readies (g : Trust → Trust) : (s.modTrust g).readies = s.readies := rfl
@[simp] theorem State.modTrust_released (g : Trust → Trust) : (s.modTrust g).released = s.released := rfl
@[simp] theorem State.modTrust_regions (g : Trust → Trust) : (s.modTrust g).regions = s.regions := rfl
@[simp] theorem State.modTrust_net (g : Trust → Trust) : (s.modTrust g).net = s.net := rfl
@[simp] theorem State.modTrust_recover (g : Trust → Trust) : (s.modTrust g).recover = s.recover := rfl
@[simp] theorem State.modTrust_drawn (g : Trust → Trust) : (s.modTrust g).drawn = s.drawn := rfl

@[simp] theorem State.modRegs_regs (g : Regs → Regs) : (s.modRegs g).regs = g s.regs := rfl
@[simp] theorem State.modRegs_pending (g : Regs → Regs) : (s.modRegs g).pending = s.pending := rfl
@[simp] theorem State.modRegs_pins (g : Regs → Regs) : (s.modRegs g).pins = s.pins := rfl
@[simp] theorem State.modRegs_clk (g : Regs → Regs) : (s.modRegs g).clk = s.clk := rfl
@[simp] theorem State.modRegs_pwr (g : Regs → Regs) : (s.modRegs g).pwr = s.pwr := rfl
@[simp] theorem State.modRegs_up (g : Regs → Regs) : (s.modRegs g).up = s.up := rfl
@[simp] theorem State.modRegs_node (g : Regs → Regs) : (s.modRegs g).node = s.node := rfl
@[simp] theorem State.modRegs_trust (g : Regs → Regs) : (s.modRegs g).trust = s.trust := rfl
@[simp] theorem State.modRegs_blocks (g : Regs → Regs) : (s.modRegs g).blocks = s.blocks := rfl
@[simp] theorem State.modRegs_counters (g : Regs → Regs) : (s.modRegs g).counters = s.counters := rfl
@[simp] theorem State.modRegs_events (g : Regs → Regs) : (s.modRegs g).events = s.events := rfl
@[simp] theorem State.modRegs_tiers (g : Regs → Regs) : (s.modRegs g).tiers = s.tiers := rfl
@[simp] theorem State.modRegs_convs (g : Regs → Regs) : (s.modRegs g).convs = s.convs := rfl
@[simp] theorem State.modRegs_attn (g : Regs → Regs) : (s.modRegs g).attn = s.attn := rfl
@[simp] theorem State.modRegs_drifts (g : Regs → Regs) : (s.modRegs g).drifts = s.drifts := rfl
@[simp] theorem State.modRegs_aborts (g : Regs → Regs) : (s.modRegs g).aborts = s.aborts := rfl
@[simp] theorem State.modRegs_readies (g : Regs → Regs) : (s.modRegs g).readies = s.readies := rfl
@[simp] theorem State.modRegs_released (g : Regs → Regs) : (s.modRegs g).released = s.released := rfl
@[simp] theorem State.modRegs_regions (g : Regs → Regs) : (s.modRegs g).regions = s.regions := rfl
@[simp] theorem State.modRegs_net (g : Regs → Regs) : (s.modRegs g).net = s.net := rfl
@[simp] theorem State.modRegs_recover (g : Regs → Regs) : (s.modRegs g).recover = s.recover := rfl
@[simp] theorem State.modRegs_drawn (g : Regs → Regs) : (s.modRegs g).drawn = s.drawn := rfl

@[simp] theorem State.modUp_up (g : Startup → Startup) : (s.modUp g).up = g s.up := rfl
@[simp] theorem State.modUp_pending (g : Startup → Startup) : (s.modUp g).pending = s.pending := rfl
@[simp] theorem State.modUp_pins (g : Startup → Startup) : (s.modUp g).pins = s.pins := rfl
@[simp] theorem State.modUp_clk (g : Startup → Startup) : (s.modUp g).clk = s.clk := rfl
@[simp] theorem State.modUp_pwr (g : Startup → Startup) : (s.modUp g).pwr = s.pwr := rfl
@[simp] theorem State.modUp_node (g : Startup → Startup) : (s.modUp g).node = s.node := rfl
@[simp] theorem State.modUp_trust (g : Startup → Startup) : (s.modUp g).trust = s.trust := rfl
@[simp] theorem State.modUp_blocks (g : Startup → Startup) : (s.modUp g).blocks = s.blocks := rfl
@[simp] theorem State.modUp_counters (g : Startup → Startup) : (s.modUp g).counters = s.counters := rfl
@[simp] theorem State.modUp_events (g : Startup → Startup) : (s.modUp g).events = s.events := rfl
@[simp] theorem State.modUp_regs (g : Startup → Startup) : (s.modUp g).regs = s.regs := rfl
@[simp] theorem State.modUp_tiers (g : Startup → Startup) : (s.modUp g).tiers = s.tiers := rfl
@[simp] theorem State.modUp_convs (g : Startup → Startup) : (s.modUp g).convs = s.convs := rfl
@[simp] theorem State.modUp_attn (g : Startup → Startup) : (s.modUp g).attn = s.attn := rfl
@[simp] theorem State.modUp_drifts (g : Startup → Startup) : (s.modUp g).drifts = s.drifts := rfl
@[simp] theorem State.modUp_aborts (g : Startup → Startup) : (s.modUp g).aborts = s.aborts := rfl
@[simp] theorem State.modUp_readies (g : Startup → Startup) : (s.modUp g).readies = s.readies := rfl
@[simp] theorem State.modUp_released (g : Startup → Startup) : (s.modUp g).released = s.released := rfl
@[simp] theorem State.modUp_regions (g : Startup → Startup) : (s.modUp g).regions = s.regions := rfl
@[simp] theorem State.modUp_net (g : Startup → Startup) : (s.modUp g).net = s.net := rfl
@[simp] theorem State.modUp_recover (g : Startup → Startup) : (s.modUp g).recover = s.recover := rfl
@[simp] theorem State.modUp_drawn (g : Startup → Startup) : (s.modUp g).drawn = s.drawn := rfl

@[simp] theorem State.modPwr_pwr (g : Power → Power) : (s.modPwr g).pwr = g s.pwr := rfl
@[simp] theorem State.modPwr_pending (g : Power → Power) : (s.modPwr g).pending = s.pending := rfl
@[simp] theorem State.modPwr_pins (g : Power → Power) : (s.modPwr g).pins = s.pins := rfl
@[simp] theorem State.modPwr_clk (g : Power → Power) : (s.modPwr g).clk = s.clk := rfl
@[simp] theorem State.modPwr_up (g : Power → Power) : (s.modPwr g).up = s.up := rfl
@[simp] theorem State.modPwr_node (g : Power → Power) : (s.modPwr g).node = s.node := rfl
@[simp] theorem State.modPwr_trust (g : Power → Power) : (s.modPwr g).trust = s.trust := rfl
@[simp] theorem State.modPwr_blocks (g : Power → Power) : (s.modPwr g).blocks = s.blocks := rfl
@[simp] theorem State.modPwr_counters (g : Power → Power) : (s.modPwr g).counters = s.counters := rfl
@[simp] theorem State.modPwr_events (g : Power → Power) : (s.modPwr g).events = s.events := rfl
@[simp] theorem State.modPwr_regs (g : Power → Power) : (s.modPwr g).regs = s.regs := rfl
@[simp] theorem State.modPwr_tiers (g : Power → Power) : (s.modPwr g).tiers = s.tiers := rfl
@[simp] theorem State.modPwr_convs (g : Power → Power) : (s.modPwr g).convs = s.convs := rfl
@[simp] theorem State.modPwr_attn (g : Power → Power) : (s.modPwr g).attn = s.attn := rfl
@[simp] theorem State.modPwr_drifts (g : Power → Power) : (s.modPwr g).drifts = s.drifts := rfl
@[simp] theorem State.modPwr_aborts (g : Power → Power) : (s.modPwr g).aborts = s.aborts := rfl
@[simp] theorem State.modPwr_readies (g : Power → Power) : (s.modPwr g).readies = s.readies := rfl
@[simp] theorem State.modPwr_released (g : Power → Power) : (s.modPwr g).released = s.released := rfl
@[simp] theorem State.modPwr_regions (g : Power → Power) : (s.modPwr g).regions = s.regions := rfl
@[simp] theorem State.modPwr_net (g : Power → Power) : (s.modPwr g).net = s.net := rfl
@[simp] theorem State.modPwr_recover (g : Power → Power) : (s.modPwr g).recover = s.recover := rfl
@[simp] theorem State.modPwr_drawn (g : Power → Power) : (s.modPwr g).drawn = s.drawn := rfl

@[simp] theorem State.modClk_clk (g : Clocks → Clocks) : (s.modClk g).clk = g s.clk := rfl
@[simp] theorem State.modClk_pending (g : Clocks → Clocks) : (s.modClk g).pending = s.pending := rfl
@[simp] theorem State.modClk_pins (g : Clocks → Clocks) : (s.modClk g).pins = s.pins := rfl
@[simp] theorem State.modClk_pwr (g : Clocks → Clocks) : (s.modClk g).pwr = s.pwr := rfl
@[simp] theorem State.modClk_up (g : Clocks → Clocks) : (s.modClk g).up = s.up := rfl
@[simp] theorem State.modClk_node (g : Clocks → Clocks) : (s.modClk g).node = s.node := rfl
@[simp] theorem State.modClk_trust (g : Clocks → Clocks) : (s.modClk g).trust = s.trust := rfl
@[simp] theorem State.modClk_blocks (g : Clocks → Clocks) : (s.modClk g).blocks = s.blocks := rfl
@[simp] theorem State.modClk_counters (g : Clocks → Clocks) : (s.modClk g).counters = s.counters := rfl
@[simp] theorem State.modClk_events (g : Clocks → Clocks) : (s.modClk g).events = s.events := rfl
@[simp] theorem State.modClk_regs (g : Clocks → Clocks) : (s.modClk g).regs = s.regs := rfl
@[simp] theorem State.modClk_tiers (g : Clocks → Clocks) : (s.modClk g).tiers = s.tiers := rfl
@[simp] theorem State.modClk_convs (g : Clocks → Clocks) : (s.modClk g).convs = s.convs := rfl
@[simp] theorem State.modClk_attn (g : Clocks → Clocks) : (s.modClk g).attn = s.attn := rfl
@[simp] theorem State.modClk_drifts (g : Clocks → Clocks) : (s.modClk g).drifts = s.drifts := rfl
@[simp] theorem State.modClk_aborts (g : Clocks → Clocks) : (s.modClk g).aborts = s.aborts := rfl
@[simp] theorem State.modClk_readies (g : Clocks → Clocks) : (s.modClk g).readies = s.readies := rfl
@[simp] theorem State.modClk_released (g : Clocks → Clocks) : (s.modClk g).released = s.released := rfl
@[simp] theorem State.modClk_regions (g : Clocks → Clocks) : (s.modClk g).regions = s.regions := rfl
@[simp] theorem State.modClk_net (g : Clocks → Clocks) : (s.modClk g).net = s.net := rfl
@[simp] theorem State.modClk_recover (g : Clocks → Clocks) : (s.modClk g).recover = s.recover := rfl
@[simp] theorem State.modClk_drawn (g : Clocks → Clocks) : (s.modClk g).drawn = s.drawn := rfl

@[simp] theorem State.modConv_pending (i : Nat) (g : Conv → Conv) : (s.modConv i g).pending = s.pending := rfl
@[simp] theorem State.modConv_pins (i : Nat) (g : Conv → Conv) : (s.modConv i g).pins = s.pins := rfl
@[simp] theorem State.modConv_clk (i : Nat) (g : Conv → Conv) : (s.modConv i g).clk = s.clk := rfl
@[simp] theorem State.modConv_pwr (i : Nat) (g : Conv → Conv) : (s.modConv i g).pwr = s.pwr := rfl
@[simp] theorem State.modConv_up (i : Nat) (g : Conv → Conv) : (s.modConv i g).up = s.up := rfl
@[simp] theorem State.modConv_node (i : Nat) (g : Conv → Conv) : (s.modConv i g).node = s.node := rfl
@[simp] theorem State.modConv_trust (i : Nat) (g : Conv → Conv) : (s.modConv i g).trust = s.trust := rfl
@[simp] theorem State.modConv_blocks (i : Nat) (g : Conv → Conv) : (s.modConv i g).blocks = s.blocks := rfl
@[simp] theorem State.modConv_counters (i : Nat) (g : Conv → Conv) : (s.modConv i g).counters = s.counters := rfl
@[simp] theorem State.modConv_events (i : Nat) (g : Conv → Conv) : (s.modConv i g).events = s.events := rfl
@[simp] theorem State.modConv_regs (i : Nat) (g : Conv → Conv) : (s.modConv i g).regs = s.regs := rfl
@[simp] theorem State.modConv_tiers (i : Nat) (g : Conv → Conv) : (s.modConv i g).tiers = s.tiers := rfl
@[simp] theorem State.modConv_attn (i : Nat) (g : Conv → Conv) : (s.modConv i g).attn = s.attn := rfl
@[simp] theorem State.modConv_drifts (i : Nat) (g : Conv → Conv) : (s.modConv i g).drifts = s.drifts := rfl
@[simp] theorem State.modConv_aborts (i : Nat) (g : Conv → Conv) : (s.modConv i g).aborts = s.aborts := rfl
@[simp] theorem State.modConv_readies (i : Nat) (g : Conv → Conv) : (s.modConv i g).readies = s.readies := rfl
@[simp] theorem State.modConv_released (i : Nat) (g : Conv → Conv) : (s.modConv i g).released = s.released := rfl
@[simp] theorem State.modConv_regions (i : Nat) (g : Conv → Conv) : (s.modConv i g).regions = s.regions := rfl
@[simp] theorem State.modConv_net (i : Nat) (g : Conv → Conv) : (s.modConv i g).net = s.net := rfl
@[simp] theorem State.modConv_recover (i : Nat) (g : Conv → Conv) : (s.modConv i g).recover = s.recover := rfl
@[simp] theorem State.modConv_drawn (i : Nat) (g : Conv → Conv) : (s.modConv i g).drawn = s.drawn := rfl

@[simp] theorem State.modConv_convs (i : Nat) (g : Conv → Conv) : (s.modConv i g).convs = Table.modify s.convs i g := rfl

@[simp] theorem State.modPage_pending (i : Nat) (g : Page → Page) : (s.modPage i g).pending = s.pending := rfl
@[simp] theorem State.modPage_pins (i : Nat) (g : Page → Page) : (s.modPage i g).pins = s.pins := rfl
@[simp] theorem State.modPage_clk (i : Nat) (g : Page → Page) : (s.modPage i g).clk = s.clk := rfl
@[simp] theorem State.modPage_pwr (i : Nat) (g : Page → Page) : (s.modPage i g).pwr = s.pwr := rfl
@[simp] theorem State.modPage_up (i : Nat) (g : Page → Page) : (s.modPage i g).up = s.up := rfl
@[simp] theorem State.modPage_node (i : Nat) (g : Page → Page) : (s.modPage i g).node = s.node := rfl
@[simp] theorem State.modPage_trust (i : Nat) (g : Page → Page) : (s.modPage i g).trust = s.trust := rfl
@[simp] theorem State.modPage_blocks (i : Nat) (g : Page → Page) : (s.modPage i g).blocks = s.blocks := rfl
@[simp] theorem State.modPage_counters (i : Nat) (g : Page → Page) : (s.modPage i g).counters = s.counters := rfl
@[simp] theorem State.modPage_events (i : Nat) (g : Page → Page) : (s.modPage i g).events = s.events := rfl
@[simp] theorem State.modPage_regs (i : Nat) (g : Page → Page) : (s.modPage i g).regs = s.regs := rfl
@[simp] theorem State.modPage_convs (i : Nat) (g : Page → Page) : (s.modPage i g).convs = s.convs := rfl
@[simp] theorem State.modPage_attn (i : Nat) (g : Page → Page) : (s.modPage i g).attn = s.attn := rfl
@[simp] theorem State.modPage_drifts (i : Nat) (g : Page → Page) : (s.modPage i g).drifts = s.drifts := rfl
@[simp] theorem State.modPage_aborts (i : Nat) (g : Page → Page) : (s.modPage i g).aborts = s.aborts := rfl
@[simp] theorem State.modPage_readies (i : Nat) (g : Page → Page) : (s.modPage i g).readies = s.readies := rfl
@[simp] theorem State.modPage_released (i : Nat) (g : Page → Page) : (s.modPage i g).released = s.released := rfl
@[simp] theorem State.modPage_regions (i : Nat) (g : Page → Page) : (s.modPage i g).regions = s.regions := rfl
@[simp] theorem State.modPage_net (i : Nat) (g : Page → Page) : (s.modPage i g).net = s.net := rfl
@[simp] theorem State.modPage_recover (i : Nat) (g : Page → Page) : (s.modPage i g).recover = s.recover := rfl
@[simp] theorem State.modPage_drawn (i : Nat) (g : Page → Page) : (s.modPage i g).drawn = s.drawn := rfl

@[simp] theorem State.modQp_pending (i : Nat) (g : Qp → Qp) : (s.modQp i g).pending = s.pending := rfl
@[simp] theorem State.modQp_pins (i : Nat) (g : Qp → Qp) : (s.modQp i g).pins = s.pins := rfl
@[simp] theorem State.modQp_clk (i : Nat) (g : Qp → Qp) : (s.modQp i g).clk = s.clk := rfl
@[simp] theorem State.modQp_pwr (i : Nat) (g : Qp → Qp) : (s.modQp i g).pwr = s.pwr := rfl
@[simp] theorem State.modQp_up (i : Nat) (g : Qp → Qp) : (s.modQp i g).up = s.up := rfl
@[simp] theorem State.modQp_node (i : Nat) (g : Qp → Qp) : (s.modQp i g).node = s.node := rfl
@[simp] theorem State.modQp_trust (i : Nat) (g : Qp → Qp) : (s.modQp i g).trust = s.trust := rfl
@[simp] theorem State.modQp_blocks (i : Nat) (g : Qp → Qp) : (s.modQp i g).blocks = s.blocks := rfl
@[simp] theorem State.modQp_counters (i : Nat) (g : Qp → Qp) : (s.modQp i g).counters = s.counters := rfl
@[simp] theorem State.modQp_events (i : Nat) (g : Qp → Qp) : (s.modQp i g).events = s.events := rfl
@[simp] theorem State.modQp_regs (i : Nat) (g : Qp → Qp) : (s.modQp i g).regs = s.regs := rfl
@[simp] theorem State.modQp_tiers (i : Nat) (g : Qp → Qp) : (s.modQp i g).tiers = s.tiers := rfl
@[simp] theorem State.modQp_convs (i : Nat) (g : Qp → Qp) : (s.modQp i g).convs = s.convs := rfl
@[simp] theorem State.modQp_attn (i : Nat) (g : Qp → Qp) : (s.modQp i g).attn = s.attn := rfl
@[simp] theorem State.modQp_drifts (i : Nat) (g : Qp → Qp) : (s.modQp i g).drifts = s.drifts := rfl
@[simp] theorem State.modQp_aborts (i : Nat) (g : Qp → Qp) : (s.modQp i g).aborts = s.aborts := rfl
@[simp] theorem State.modQp_readies (i : Nat) (g : Qp → Qp) : (s.modQp i g).readies = s.readies := rfl
@[simp] theorem State.modQp_released (i : Nat) (g : Qp → Qp) : (s.modQp i g).released = s.released := rfl
@[simp] theorem State.modQp_regions (i : Nat) (g : Qp → Qp) : (s.modQp i g).regions = s.regions := rfl
@[simp] theorem State.modQp_recover (i : Nat) (g : Qp → Qp) : (s.modQp i g).recover = s.recover := rfl
@[simp] theorem State.modQp_drawn (i : Nat) (g : Qp → Qp) : (s.modQp i g).drawn = s.drawn := rfl

@[simp] theorem State.modPartner_pending (i : Nat) (g : Partner → Partner) : (s.modPartner i g).pending = s.pending := rfl
@[simp] theorem State.modPartner_pins (i : Nat) (g : Partner → Partner) : (s.modPartner i g).pins = s.pins := rfl
@[simp] theorem State.modPartner_clk (i : Nat) (g : Partner → Partner) : (s.modPartner i g).clk = s.clk := rfl
@[simp] theorem State.modPartner_pwr (i : Nat) (g : Partner → Partner) : (s.modPartner i g).pwr = s.pwr := rfl
@[simp] theorem State.modPartner_up (i : Nat) (g : Partner → Partner) : (s.modPartner i g).up = s.up := rfl
@[simp] theorem State.modPartner_node (i : Nat) (g : Partner → Partner) : (s.modPartner i g).node = s.node := rfl
@[simp] theorem State.modPartner_trust (i : Nat) (g : Partner → Partner) : (s.modPartner i g).trust = s.trust := rfl
@[simp] theorem State.modPartner_blocks (i : Nat) (g : Partner → Partner) : (s.modPartner i g).blocks = s.blocks := rfl
@[simp] theorem State.modPartner_counters (i : Nat) (g : Partner → Partner) : (s.modPartner i g).counters = s.counters := rfl
@[simp] theorem State.modPartner_events (i : Nat) (g : Partner → Partner) : (s.modPartner i g).events = s.events := rfl
@[simp] theorem State.modPartner_regs (i : Nat) (g : Partner → Partner) : (s.modPartner i g).regs = s.regs := rfl
@[simp] theorem State.modPartner_tiers (i : Nat) (g : Partner → Partner) : (s.modPartner i g).tiers = s.tiers := rfl
@[simp] theorem State.modPartner_convs (i : Nat) (g : Partner → Partner) : (s.modPartner i g).convs = s.convs := rfl
@[simp] theorem State.modPartner_attn (i : Nat) (g : Partner → Partner) : (s.modPartner i g).attn = s.attn := rfl
@[simp] theorem State.modPartner_drifts (i : Nat) (g : Partner → Partner) : (s.modPartner i g).drifts = s.drifts := rfl
@[simp] theorem State.modPartner_aborts (i : Nat) (g : Partner → Partner) : (s.modPartner i g).aborts = s.aborts := rfl
@[simp] theorem State.modPartner_readies (i : Nat) (g : Partner → Partner) : (s.modPartner i g).readies = s.readies := rfl
@[simp] theorem State.modPartner_released (i : Nat) (g : Partner → Partner) : (s.modPartner i g).released = s.released := rfl
@[simp] theorem State.modPartner_regions (i : Nat) (g : Partner → Partner) : (s.modPartner i g).regions = s.regions := rfl
@[simp] theorem State.modPartner_net (i : Nat) (g : Partner → Partner) : (s.modPartner i g).net = s.net := rfl
@[simp] theorem State.modPartner_drawn (i : Nat) (g : Partner → Partner) : (s.modPartner i g).drawn = s.drawn := rfl

@[simp] theorem State.modBlock_pending (b : Nat) (g : Block → Block) : (s.modBlock b g).pending = s.pending := rfl
@[simp] theorem State.modBlock_pins (b : Nat) (g : Block → Block) : (s.modBlock b g).pins = s.pins := rfl
@[simp] theorem State.modBlock_clk (b : Nat) (g : Block → Block) : (s.modBlock b g).clk = s.clk := rfl
@[simp] theorem State.modBlock_pwr (b : Nat) (g : Block → Block) : (s.modBlock b g).pwr = s.pwr := rfl
@[simp] theorem State.modBlock_up (b : Nat) (g : Block → Block) : (s.modBlock b g).up = s.up := rfl
@[simp] theorem State.modBlock_node (b : Nat) (g : Block → Block) : (s.modBlock b g).node = s.node := rfl
@[simp] theorem State.modBlock_trust (b : Nat) (g : Block → Block) : (s.modBlock b g).trust = s.trust := rfl
@[simp] theorem State.modBlock_counters (b : Nat) (g : Block → Block) : (s.modBlock b g).counters = s.counters := rfl
@[simp] theorem State.modBlock_events (b : Nat) (g : Block → Block) : (s.modBlock b g).events = s.events := rfl
@[simp] theorem State.modBlock_regs (b : Nat) (g : Block → Block) : (s.modBlock b g).regs = s.regs := rfl
@[simp] theorem State.modBlock_tiers (b : Nat) (g : Block → Block) : (s.modBlock b g).tiers = s.tiers := rfl
@[simp] theorem State.modBlock_convs (b : Nat) (g : Block → Block) : (s.modBlock b g).convs = s.convs := rfl
@[simp] theorem State.modBlock_attn (b : Nat) (g : Block → Block) : (s.modBlock b g).attn = s.attn := rfl
@[simp] theorem State.modBlock_drifts (b : Nat) (g : Block → Block) : (s.modBlock b g).drifts = s.drifts := rfl
@[simp] theorem State.modBlock_aborts (b : Nat) (g : Block → Block) : (s.modBlock b g).aborts = s.aborts := rfl
@[simp] theorem State.modBlock_readies (b : Nat) (g : Block → Block) : (s.modBlock b g).readies = s.readies := rfl
@[simp] theorem State.modBlock_released (b : Nat) (g : Block → Block) : (s.modBlock b g).released = s.released := rfl
@[simp] theorem State.modBlock_regions (b : Nat) (g : Block → Block) : (s.modBlock b g).regions = s.regions := rfl
@[simp] theorem State.modBlock_net (b : Nat) (g : Block → Block) : (s.modBlock b g).net = s.net := rfl
@[simp] theorem State.modBlock_recover (b : Nat) (g : Block → Block) : (s.modBlock b g).recover = s.recover := rfl
@[simp] theorem State.modBlock_drawn (b : Nat) (g : Block → Block) : (s.modBlock b g).drawn = s.drawn := rfl

@[simp] theorem State.modPort_pending (p : Nat) (g : Port → Port) : (s.modPort p g).pending = s.pending := rfl
@[simp] theorem State.modPort_pins (p : Nat) (g : Port → Port) : (s.modPort p g).pins = s.pins := rfl
@[simp] theorem State.modPort_clk (p : Nat) (g : Port → Port) : (s.modPort p g).clk = s.clk := rfl
@[simp] theorem State.modPort_pwr (p : Nat) (g : Port → Port) : (s.modPort p g).pwr = s.pwr := rfl
@[simp] theorem State.modPort_up (p : Nat) (g : Port → Port) : (s.modPort p g).up = s.up := rfl
@[simp] theorem State.modPort_node (p : Nat) (g : Port → Port) : (s.modPort p g).node = s.node := rfl
@[simp] theorem State.modPort_trust (p : Nat) (g : Port → Port) : (s.modPort p g).trust = s.trust := rfl
@[simp] theorem State.modPort_blocks (p : Nat) (g : Port → Port) : (s.modPort p g).blocks = s.blocks := rfl
@[simp] theorem State.modPort_counters (p : Nat) (g : Port → Port) : (s.modPort p g).counters = s.counters := rfl
@[simp] theorem State.modPort_events (p : Nat) (g : Port → Port) : (s.modPort p g).events = s.events := rfl
@[simp] theorem State.modPort_regs (p : Nat) (g : Port → Port) : (s.modPort p g).regs = s.regs := rfl
@[simp] theorem State.modPort_tiers (p : Nat) (g : Port → Port) : (s.modPort p g).tiers = s.tiers := rfl
@[simp] theorem State.modPort_convs (p : Nat) (g : Port → Port) : (s.modPort p g).convs = s.convs := rfl
@[simp] theorem State.modPort_attn (p : Nat) (g : Port → Port) : (s.modPort p g).attn = s.attn := rfl
@[simp] theorem State.modPort_drifts (p : Nat) (g : Port → Port) : (s.modPort p g).drifts = s.drifts := rfl
@[simp] theorem State.modPort_aborts (p : Nat) (g : Port → Port) : (s.modPort p g).aborts = s.aborts := rfl
@[simp] theorem State.modPort_readies (p : Nat) (g : Port → Port) : (s.modPort p g).readies = s.readies := rfl
@[simp] theorem State.modPort_released (p : Nat) (g : Port → Port) : (s.modPort p g).released = s.released := rfl
@[simp] theorem State.modPort_regions (p : Nat) (g : Port → Port) : (s.modPort p g).regions = s.regions := rfl
@[simp] theorem State.modPort_recover (p : Nat) (g : Port → Port) : (s.modPort p g).recover = s.recover := rfl
@[simp] theorem State.modPort_drawn (p : Nat) (g : Port → Port) : (s.modPort p g).drawn = s.drawn := rfl

@[simp] theorem State.modTile_pending (p : Nat) (g : Tile → Tile) : (s.modTile p g).pending = s.pending := rfl
@[simp] theorem State.modTile_pins (p : Nat) (g : Tile → Tile) : (s.modTile p g).pins = s.pins := rfl
@[simp] theorem State.modTile_clk (p : Nat) (g : Tile → Tile) : (s.modTile p g).clk = s.clk := rfl
@[simp] theorem State.modTile_pwr (p : Nat) (g : Tile → Tile) : (s.modTile p g).pwr = s.pwr := rfl
@[simp] theorem State.modTile_up (p : Nat) (g : Tile → Tile) : (s.modTile p g).up = s.up := rfl
@[simp] theorem State.modTile_node (p : Nat) (g : Tile → Tile) : (s.modTile p g).node = s.node := rfl
@[simp] theorem State.modTile_trust (p : Nat) (g : Tile → Tile) : (s.modTile p g).trust = s.trust := rfl
@[simp] theorem State.modTile_blocks (p : Nat) (g : Tile → Tile) : (s.modTile p g).blocks = s.blocks := rfl
@[simp] theorem State.modTile_counters (p : Nat) (g : Tile → Tile) : (s.modTile p g).counters = s.counters := rfl
@[simp] theorem State.modTile_events (p : Nat) (g : Tile → Tile) : (s.modTile p g).events = s.events := rfl
@[simp] theorem State.modTile_regs (p : Nat) (g : Tile → Tile) : (s.modTile p g).regs = s.regs := rfl
@[simp] theorem State.modTile_tiers (p : Nat) (g : Tile → Tile) : (s.modTile p g).tiers = s.tiers := rfl
@[simp] theorem State.modTile_convs (p : Nat) (g : Tile → Tile) : (s.modTile p g).convs = s.convs := rfl
@[simp] theorem State.modTile_drifts (p : Nat) (g : Tile → Tile) : (s.modTile p g).drifts = s.drifts := rfl
@[simp] theorem State.modTile_aborts (p : Nat) (g : Tile → Tile) : (s.modTile p g).aborts = s.aborts := rfl
@[simp] theorem State.modTile_readies (p : Nat) (g : Tile → Tile) : (s.modTile p g).readies = s.readies := rfl
@[simp] theorem State.modTile_released (p : Nat) (g : Tile → Tile) : (s.modTile p g).released = s.released := rfl
@[simp] theorem State.modTile_regions (p : Nat) (g : Tile → Tile) : (s.modTile p g).regions = s.regions := rfl
@[simp] theorem State.modTile_net (p : Nat) (g : Tile → Tile) : (s.modTile p g).net = s.net := rfl
@[simp] theorem State.modTile_recover (p : Nat) (g : Tile → Tile) : (s.modTile p g).recover = s.recover := rfl
@[simp] theorem State.modTile_drawn (p : Nat) (g : Tile → Tile) : (s.modTile p g).drawn = s.drawn := rfl

@[simp] theorem State.modLogical_pending (p : Nat) (g : Logical → Logical) : (s.modLogical p g).pending = s.pending := rfl
@[simp] theorem State.modLogical_pins (p : Nat) (g : Logical → Logical) : (s.modLogical p g).pins = s.pins := rfl
@[simp] theorem State.modLogical_clk (p : Nat) (g : Logical → Logical) : (s.modLogical p g).clk = s.clk := rfl
@[simp] theorem State.modLogical_pwr (p : Nat) (g : Logical → Logical) : (s.modLogical p g).pwr = s.pwr := rfl
@[simp] theorem State.modLogical_up (p : Nat) (g : Logical → Logical) : (s.modLogical p g).up = s.up := rfl
@[simp] theorem State.modLogical_node (p : Nat) (g : Logical → Logical) : (s.modLogical p g).node = s.node := rfl
@[simp] theorem State.modLogical_trust (p : Nat) (g : Logical → Logical) : (s.modLogical p g).trust = s.trust := rfl
@[simp] theorem State.modLogical_blocks (p : Nat) (g : Logical → Logical) : (s.modLogical p g).blocks = s.blocks := rfl
@[simp] theorem State.modLogical_counters (p : Nat) (g : Logical → Logical) : (s.modLogical p g).counters = s.counters := rfl
@[simp] theorem State.modLogical_events (p : Nat) (g : Logical → Logical) : (s.modLogical p g).events = s.events := rfl
@[simp] theorem State.modLogical_regs (p : Nat) (g : Logical → Logical) : (s.modLogical p g).regs = s.regs := rfl
@[simp] theorem State.modLogical_tiers (p : Nat) (g : Logical → Logical) : (s.modLogical p g).tiers = s.tiers := rfl
@[simp] theorem State.modLogical_convs (p : Nat) (g : Logical → Logical) : (s.modLogical p g).convs = s.convs := rfl
@[simp] theorem State.modLogical_drifts (p : Nat) (g : Logical → Logical) : (s.modLogical p g).drifts = s.drifts := rfl
@[simp] theorem State.modLogical_aborts (p : Nat) (g : Logical → Logical) : (s.modLogical p g).aborts = s.aborts := rfl
@[simp] theorem State.modLogical_readies (p : Nat) (g : Logical → Logical) : (s.modLogical p g).readies = s.readies := rfl
@[simp] theorem State.modLogical_released (p : Nat) (g : Logical → Logical) : (s.modLogical p g).released = s.released := rfl
@[simp] theorem State.modLogical_regions (p : Nat) (g : Logical → Logical) : (s.modLogical p g).regions = s.regions := rfl
@[simp] theorem State.modLogical_net (p : Nat) (g : Logical → Logical) : (s.modLogical p g).net = s.net := rfl
@[simp] theorem State.modLogical_recover (p : Nat) (g : Logical → Logical) : (s.modLogical p g).recover = s.recover := rfl
@[simp] theorem State.modLogical_drawn (p : Nat) (g : Logical → Logical) : (s.modLogical p g).drawn = s.drawn := rfl

@[simp] theorem State.modReq_pending (p : Nat) (g : Req → Req) : (s.modReq p g).pending = s.pending := rfl
@[simp] theorem State.modReq_pins (p : Nat) (g : Req → Req) : (s.modReq p g).pins = s.pins := rfl
@[simp] theorem State.modReq_clk (p : Nat) (g : Req → Req) : (s.modReq p g).clk = s.clk := rfl
@[simp] theorem State.modReq_pwr (p : Nat) (g : Req → Req) : (s.modReq p g).pwr = s.pwr := rfl
@[simp] theorem State.modReq_up (p : Nat) (g : Req → Req) : (s.modReq p g).up = s.up := rfl
@[simp] theorem State.modReq_node (p : Nat) (g : Req → Req) : (s.modReq p g).node = s.node := rfl
@[simp] theorem State.modReq_trust (p : Nat) (g : Req → Req) : (s.modReq p g).trust = s.trust := rfl
@[simp] theorem State.modReq_blocks (p : Nat) (g : Req → Req) : (s.modReq p g).blocks = s.blocks := rfl
@[simp] theorem State.modReq_counters (p : Nat) (g : Req → Req) : (s.modReq p g).counters = s.counters := rfl
@[simp] theorem State.modReq_events (p : Nat) (g : Req → Req) : (s.modReq p g).events = s.events := rfl
@[simp] theorem State.modReq_regs (p : Nat) (g : Req → Req) : (s.modReq p g).regs = s.regs := rfl
@[simp] theorem State.modReq_tiers (p : Nat) (g : Req → Req) : (s.modReq p g).tiers = s.tiers := rfl
@[simp] theorem State.modReq_convs (p : Nat) (g : Req → Req) : (s.modReq p g).convs = s.convs := rfl
@[simp] theorem State.modReq_drifts (p : Nat) (g : Req → Req) : (s.modReq p g).drifts = s.drifts := rfl
@[simp] theorem State.modReq_aborts (p : Nat) (g : Req → Req) : (s.modReq p g).aborts = s.aborts := rfl
@[simp] theorem State.modReq_readies (p : Nat) (g : Req → Req) : (s.modReq p g).readies = s.readies := rfl
@[simp] theorem State.modReq_released (p : Nat) (g : Req → Req) : (s.modReq p g).released = s.released := rfl
@[simp] theorem State.modReq_regions (p : Nat) (g : Req → Req) : (s.modReq p g).regions = s.regions := rfl
@[simp] theorem State.modReq_net (p : Nat) (g : Req → Req) : (s.modReq p g).net = s.net := rfl
@[simp] theorem State.modReq_recover (p : Nat) (g : Req → Req) : (s.modReq p g).recover = s.recover := rfl
@[simp] theorem State.modReq_drawn (p : Nat) (g : Req → Req) : (s.modReq p g).drawn = s.drawn := rfl

@[simp] theorem State.modDrift_pending (p : Nat) (g : Drift → Drift) : (s.modDrift p g).pending = s.pending := rfl
@[simp] theorem State.modDrift_pins (p : Nat) (g : Drift → Drift) : (s.modDrift p g).pins = s.pins := rfl
@[simp] theorem State.modDrift_clk (p : Nat) (g : Drift → Drift) : (s.modDrift p g).clk = s.clk := rfl
@[simp] theorem State.modDrift_pwr (p : Nat) (g : Drift → Drift) : (s.modDrift p g).pwr = s.pwr := rfl
@[simp] theorem State.modDrift_up (p : Nat) (g : Drift → Drift) : (s.modDrift p g).up = s.up := rfl
@[simp] theorem State.modDrift_node (p : Nat) (g : Drift → Drift) : (s.modDrift p g).node = s.node := rfl
@[simp] theorem State.modDrift_trust (p : Nat) (g : Drift → Drift) : (s.modDrift p g).trust = s.trust := rfl
@[simp] theorem State.modDrift_blocks (p : Nat) (g : Drift → Drift) : (s.modDrift p g).blocks = s.blocks := rfl
@[simp] theorem State.modDrift_counters (p : Nat) (g : Drift → Drift) : (s.modDrift p g).counters = s.counters := rfl
@[simp] theorem State.modDrift_events (p : Nat) (g : Drift → Drift) : (s.modDrift p g).events = s.events := rfl
@[simp] theorem State.modDrift_regs (p : Nat) (g : Drift → Drift) : (s.modDrift p g).regs = s.regs := rfl
@[simp] theorem State.modDrift_tiers (p : Nat) (g : Drift → Drift) : (s.modDrift p g).tiers = s.tiers := rfl
@[simp] theorem State.modDrift_convs (p : Nat) (g : Drift → Drift) : (s.modDrift p g).convs = s.convs := rfl
@[simp] theorem State.modDrift_attn (p : Nat) (g : Drift → Drift) : (s.modDrift p g).attn = s.attn := rfl
@[simp] theorem State.modDrift_aborts (p : Nat) (g : Drift → Drift) : (s.modDrift p g).aborts = s.aborts := rfl
@[simp] theorem State.modDrift_readies (p : Nat) (g : Drift → Drift) : (s.modDrift p g).readies = s.readies := rfl
@[simp] theorem State.modDrift_released (p : Nat) (g : Drift → Drift) : (s.modDrift p g).released = s.released := rfl
@[simp] theorem State.modDrift_regions (p : Nat) (g : Drift → Drift) : (s.modDrift p g).regions = s.regions := rfl
@[simp] theorem State.modDrift_net (p : Nat) (g : Drift → Drift) : (s.modDrift p g).net = s.net := rfl
@[simp] theorem State.modDrift_recover (p : Nat) (g : Drift → Drift) : (s.modDrift p g).recover = s.recover := rfl
@[simp] theorem State.modDrift_drawn (p : Nat) (g : Drift → Drift) : (s.modDrift p g).drawn = s.drawn := rfl

@[simp] theorem State.modRegion_pending (i : W64) (g : Region → Region) : (s.modRegion i g).pending = s.pending := rfl
@[simp] theorem State.modRegion_pins (i : W64) (g : Region → Region) : (s.modRegion i g).pins = s.pins := rfl
@[simp] theorem State.modRegion_clk (i : W64) (g : Region → Region) : (s.modRegion i g).clk = s.clk := rfl
@[simp] theorem State.modRegion_pwr (i : W64) (g : Region → Region) : (s.modRegion i g).pwr = s.pwr := rfl
@[simp] theorem State.modRegion_up (i : W64) (g : Region → Region) : (s.modRegion i g).up = s.up := rfl
@[simp] theorem State.modRegion_node (i : W64) (g : Region → Region) : (s.modRegion i g).node = s.node := rfl
@[simp] theorem State.modRegion_trust (i : W64) (g : Region → Region) : (s.modRegion i g).trust = s.trust := rfl
@[simp] theorem State.modRegion_blocks (i : W64) (g : Region → Region) : (s.modRegion i g).blocks = s.blocks := rfl
@[simp] theorem State.modRegion_counters (i : W64) (g : Region → Region) : (s.modRegion i g).counters = s.counters := rfl
@[simp] theorem State.modRegion_events (i : W64) (g : Region → Region) : (s.modRegion i g).events = s.events := rfl
@[simp] theorem State.modRegion_regs (i : W64) (g : Region → Region) : (s.modRegion i g).regs = s.regs := rfl
@[simp] theorem State.modRegion_tiers (i : W64) (g : Region → Region) : (s.modRegion i g).tiers = s.tiers := rfl
@[simp] theorem State.modRegion_convs (i : W64) (g : Region → Region) : (s.modRegion i g).convs = s.convs := rfl
@[simp] theorem State.modRegion_attn (i : W64) (g : Region → Region) : (s.modRegion i g).attn = s.attn := rfl
@[simp] theorem State.modRegion_drifts (i : W64) (g : Region → Region) : (s.modRegion i g).drifts = s.drifts := rfl
@[simp] theorem State.modRegion_aborts (i : W64) (g : Region → Region) : (s.modRegion i g).aborts = s.aborts := rfl
@[simp] theorem State.modRegion_readies (i : W64) (g : Region → Region) : (s.modRegion i g).readies = s.readies := rfl
@[simp] theorem State.modRegion_released (i : W64) (g : Region → Region) : (s.modRegion i g).released = s.released := rfl
@[simp] theorem State.modRegion_net (i : W64) (g : Region → Region) : (s.modRegion i g).net = s.net := rfl
@[simp] theorem State.modRegion_recover (i : W64) (g : Region → Region) : (s.modRegion i g).recover = s.recover := rfl
@[simp] theorem State.modRegion_drawn (i : W64) (g : Region → Region) : (s.modRegion i g).drawn = s.drawn := rfl

@[simp] theorem State.modInj_pending (n : Nat) (g : InjSlot → InjSlot) : (s.modInj n g).pending = s.pending := rfl
@[simp] theorem State.modInj_pins (n : Nat) (g : InjSlot → InjSlot) : (s.modInj n g).pins = s.pins := rfl
@[simp] theorem State.modInj_clk (n : Nat) (g : InjSlot → InjSlot) : (s.modInj n g).clk = s.clk := rfl
@[simp] theorem State.modInj_pwr (n : Nat) (g : InjSlot → InjSlot) : (s.modInj n g).pwr = s.pwr := rfl
@[simp] theorem State.modInj_up (n : Nat) (g : InjSlot → InjSlot) : (s.modInj n g).up = s.up := rfl
@[simp] theorem State.modInj_node (n : Nat) (g : InjSlot → InjSlot) : (s.modInj n g).node = s.node := rfl
@[simp] theorem State.modInj_trust (n : Nat) (g : InjSlot → InjSlot) : (s.modInj n g).trust = s.trust := rfl
@[simp] theorem State.modInj_blocks (n : Nat) (g : InjSlot → InjSlot) : (s.modInj n g).blocks = s.blocks := rfl
@[simp] theorem State.modInj_counters (n : Nat) (g : InjSlot → InjSlot) : (s.modInj n g).counters = s.counters := rfl
@[simp] theorem State.modInj_events (n : Nat) (g : InjSlot → InjSlot) : (s.modInj n g).events = s.events := rfl
@[simp] theorem State.modInj_tiers (n : Nat) (g : InjSlot → InjSlot) : (s.modInj n g).tiers = s.tiers := rfl
@[simp] theorem State.modInj_convs (n : Nat) (g : InjSlot → InjSlot) : (s.modInj n g).convs = s.convs := rfl
@[simp] theorem State.modInj_attn (n : Nat) (g : InjSlot → InjSlot) : (s.modInj n g).attn = s.attn := rfl
@[simp] theorem State.modInj_drifts (n : Nat) (g : InjSlot → InjSlot) : (s.modInj n g).drifts = s.drifts := rfl
@[simp] theorem State.modInj_aborts (n : Nat) (g : InjSlot → InjSlot) : (s.modInj n g).aborts = s.aborts := rfl
@[simp] theorem State.modInj_readies (n : Nat) (g : InjSlot → InjSlot) : (s.modInj n g).readies = s.readies := rfl
@[simp] theorem State.modInj_released (n : Nat) (g : InjSlot → InjSlot) : (s.modInj n g).released = s.released := rfl
@[simp] theorem State.modInj_regions (n : Nat) (g : InjSlot → InjSlot) : (s.modInj n g).regions = s.regions := rfl
@[simp] theorem State.modInj_net (n : Nat) (g : InjSlot → InjSlot) : (s.modInj n g).net = s.net := rfl
@[simp] theorem State.modInj_recover (n : Nat) (g : InjSlot → InjSlot) : (s.modInj n g).recover = s.recover := rfl
@[simp] theorem State.modInj_drawn (n : Nat) (g : InjSlot → InjSlot) : (s.modInj n g).drawn = s.drawn := rfl

@[simp] theorem State.driveAlert_pending  : (s.driveAlert ).pending = s.pending := rfl
@[simp] theorem State.driveAlert_clk  : (s.driveAlert ).clk = s.clk := rfl
@[simp] theorem State.driveAlert_pwr  : (s.driveAlert ).pwr = s.pwr := rfl
@[simp] theorem State.driveAlert_up  : (s.driveAlert ).up = s.up := rfl
@[simp] theorem State.driveAlert_node  : (s.driveAlert ).node = s.node := rfl
@[simp] theorem State.driveAlert_trust  : (s.driveAlert ).trust = s.trust := rfl
@[simp] theorem State.driveAlert_blocks  : (s.driveAlert ).blocks = s.blocks := rfl
@[simp] theorem State.driveAlert_counters  : (s.driveAlert ).counters = s.counters := rfl
@[simp] theorem State.driveAlert_events  : (s.driveAlert ).events = s.events := rfl
@[simp] theorem State.driveAlert_regs  : (s.driveAlert ).regs = s.regs := rfl
@[simp] theorem State.driveAlert_tiers  : (s.driveAlert ).tiers = s.tiers := rfl
@[simp] theorem State.driveAlert_convs  : (s.driveAlert ).convs = s.convs := rfl
@[simp] theorem State.driveAlert_attn  : (s.driveAlert ).attn = s.attn := rfl
@[simp] theorem State.driveAlert_drifts  : (s.driveAlert ).drifts = s.drifts := rfl
@[simp] theorem State.driveAlert_aborts  : (s.driveAlert ).aborts = s.aborts := rfl
@[simp] theorem State.driveAlert_readies  : (s.driveAlert ).readies = s.readies := rfl
@[simp] theorem State.driveAlert_released  : (s.driveAlert ).released = s.released := rfl
@[simp] theorem State.driveAlert_regions  : (s.driveAlert ).regions = s.regions := rfl
@[simp] theorem State.driveAlert_net  : (s.driveAlert ).net = s.net := rfl
@[simp] theorem State.driveAlert_recover  : (s.driveAlert ).recover = s.recover := rfl
@[simp] theorem State.driveAlert_drawn  : (s.driveAlert ).drawn = s.drawn := rfl

@[simp] theorem State.writeFrame_pending (t : Tier) (f o : Nat) (bs : List Byte) : (s.writeFrame t f o bs).pending = s.pending := rfl
@[simp] theorem State.writeFrame_pins (t : Tier) (f o : Nat) (bs : List Byte) : (s.writeFrame t f o bs).pins = s.pins := rfl
@[simp] theorem State.writeFrame_clk (t : Tier) (f o : Nat) (bs : List Byte) : (s.writeFrame t f o bs).clk = s.clk := rfl
@[simp] theorem State.writeFrame_pwr (t : Tier) (f o : Nat) (bs : List Byte) : (s.writeFrame t f o bs).pwr = s.pwr := rfl
@[simp] theorem State.writeFrame_up (t : Tier) (f o : Nat) (bs : List Byte) : (s.writeFrame t f o bs).up = s.up := rfl
@[simp] theorem State.writeFrame_node (t : Tier) (f o : Nat) (bs : List Byte) : (s.writeFrame t f o bs).node = s.node := rfl
@[simp] theorem State.writeFrame_trust (t : Tier) (f o : Nat) (bs : List Byte) : (s.writeFrame t f o bs).trust = s.trust := rfl
@[simp] theorem State.writeFrame_blocks (t : Tier) (f o : Nat) (bs : List Byte) : (s.writeFrame t f o bs).blocks = s.blocks := rfl
@[simp] theorem State.writeFrame_counters (t : Tier) (f o : Nat) (bs : List Byte) : (s.writeFrame t f o bs).counters = s.counters := rfl
@[simp] theorem State.writeFrame_events (t : Tier) (f o : Nat) (bs : List Byte) : (s.writeFrame t f o bs).events = s.events := rfl
@[simp] theorem State.writeFrame_regs (t : Tier) (f o : Nat) (bs : List Byte) : (s.writeFrame t f o bs).regs = s.regs := rfl
@[simp] theorem State.writeFrame_convs (t : Tier) (f o : Nat) (bs : List Byte) : (s.writeFrame t f o bs).convs = s.convs := rfl
@[simp] theorem State.writeFrame_attn (t : Tier) (f o : Nat) (bs : List Byte) : (s.writeFrame t f o bs).attn = s.attn := rfl
@[simp] theorem State.writeFrame_drifts (t : Tier) (f o : Nat) (bs : List Byte) : (s.writeFrame t f o bs).drifts = s.drifts := rfl
@[simp] theorem State.writeFrame_aborts (t : Tier) (f o : Nat) (bs : List Byte) : (s.writeFrame t f o bs).aborts = s.aborts := rfl
@[simp] theorem State.writeFrame_readies (t : Tier) (f o : Nat) (bs : List Byte) : (s.writeFrame t f o bs).readies = s.readies := rfl
@[simp] theorem State.writeFrame_released (t : Tier) (f o : Nat) (bs : List Byte) : (s.writeFrame t f o bs).released = s.released := rfl
@[simp] theorem State.writeFrame_regions (t : Tier) (f o : Nat) (bs : List Byte) : (s.writeFrame t f o bs).regions = s.regions := rfl
@[simp] theorem State.writeFrame_net (t : Tier) (f o : Nat) (bs : List Byte) : (s.writeFrame t f o bs).net = s.net := rfl
@[simp] theorem State.writeFrame_recover (t : Tier) (f o : Nat) (bs : List Byte) : (s.writeFrame t f o bs).recover = s.recover := rfl
@[simp] theorem State.writeFrame_drawn (t : Tier) (f o : Nat) (bs : List Byte) : (s.writeFrame t f o bs).drawn = s.drawn := rfl

@[simp] theorem State.bump_pending (c : CtrId) : (s.bump c).pending = s.pending := rfl
@[simp] theorem State.bump_pins (c : CtrId) : (s.bump c).pins = s.pins := rfl
@[simp] theorem State.bump_clk (c : CtrId) : (s.bump c).clk = s.clk := rfl
@[simp] theorem State.bump_pwr (c : CtrId) : (s.bump c).pwr = s.pwr := rfl
@[simp] theorem State.bump_up (c : CtrId) : (s.bump c).up = s.up := rfl
@[simp] theorem State.bump_node (c : CtrId) : (s.bump c).node = s.node := rfl
@[simp] theorem State.bump_trust (c : CtrId) : (s.bump c).trust = s.trust := rfl
@[simp] theorem State.bump_blocks (c : CtrId) : (s.bump c).blocks = s.blocks := rfl
@[simp] theorem State.bump_events (c : CtrId) : (s.bump c).events = s.events := rfl
@[simp] theorem State.bump_regs (c : CtrId) : (s.bump c).regs = s.regs := rfl
@[simp] theorem State.bump_tiers (c : CtrId) : (s.bump c).tiers = s.tiers := rfl
@[simp] theorem State.bump_convs (c : CtrId) : (s.bump c).convs = s.convs := rfl
@[simp] theorem State.bump_attn (c : CtrId) : (s.bump c).attn = s.attn := rfl
@[simp] theorem State.bump_drifts (c : CtrId) : (s.bump c).drifts = s.drifts := rfl
@[simp] theorem State.bump_aborts (c : CtrId) : (s.bump c).aborts = s.aborts := rfl
@[simp] theorem State.bump_readies (c : CtrId) : (s.bump c).readies = s.readies := rfl
@[simp] theorem State.bump_released (c : CtrId) : (s.bump c).released = s.released := rfl
@[simp] theorem State.bump_regions (c : CtrId) : (s.bump c).regions = s.regions := rfl
@[simp] theorem State.bump_net (c : CtrId) : (s.bump c).net = s.net := rfl
@[simp] theorem State.bump_recover (c : CtrId) : (s.bump c).recover = s.recover := rfl
@[simp] theorem State.bump_drawn (c : CtrId) : (s.bump c).drawn = s.drawn := rfl

@[simp] theorem State.bumpBy_pending (c : CtrId) (n : Nat) : (s.bumpBy c n).pending = s.pending := by unfold State.bumpBy; split <;> rfl
@[simp] theorem State.bumpBy_pins (c : CtrId) (n : Nat) : (s.bumpBy c n).pins = s.pins := by unfold State.bumpBy; split <;> rfl
@[simp] theorem State.bumpBy_clk (c : CtrId) (n : Nat) : (s.bumpBy c n).clk = s.clk := by unfold State.bumpBy; split <;> rfl
@[simp] theorem State.bumpBy_pwr (c : CtrId) (n : Nat) : (s.bumpBy c n).pwr = s.pwr := by unfold State.bumpBy; split <;> rfl
@[simp] theorem State.bumpBy_up (c : CtrId) (n : Nat) : (s.bumpBy c n).up = s.up := by unfold State.bumpBy; split <;> rfl
@[simp] theorem State.bumpBy_node (c : CtrId) (n : Nat) : (s.bumpBy c n).node = s.node := by unfold State.bumpBy; split <;> rfl
@[simp] theorem State.bumpBy_trust (c : CtrId) (n : Nat) : (s.bumpBy c n).trust = s.trust := by unfold State.bumpBy; split <;> rfl
@[simp] theorem State.bumpBy_blocks (c : CtrId) (n : Nat) : (s.bumpBy c n).blocks = s.blocks := by unfold State.bumpBy; split <;> rfl
@[simp] theorem State.bumpBy_events (c : CtrId) (n : Nat) : (s.bumpBy c n).events = s.events := by unfold State.bumpBy; split <;> rfl
@[simp] theorem State.bumpBy_regs (c : CtrId) (n : Nat) : (s.bumpBy c n).regs = s.regs := by unfold State.bumpBy; split <;> rfl
@[simp] theorem State.bumpBy_tiers (c : CtrId) (n : Nat) : (s.bumpBy c n).tiers = s.tiers := by unfold State.bumpBy; split <;> rfl
@[simp] theorem State.bumpBy_convs (c : CtrId) (n : Nat) : (s.bumpBy c n).convs = s.convs := by unfold State.bumpBy; split <;> rfl
@[simp] theorem State.bumpBy_attn (c : CtrId) (n : Nat) : (s.bumpBy c n).attn = s.attn := by unfold State.bumpBy; split <;> rfl
@[simp] theorem State.bumpBy_drifts (c : CtrId) (n : Nat) : (s.bumpBy c n).drifts = s.drifts := by unfold State.bumpBy; split <;> rfl
@[simp] theorem State.bumpBy_aborts (c : CtrId) (n : Nat) : (s.bumpBy c n).aborts = s.aborts := by unfold State.bumpBy; split <;> rfl
@[simp] theorem State.bumpBy_readies (c : CtrId) (n : Nat) : (s.bumpBy c n).readies = s.readies := by unfold State.bumpBy; split <;> rfl
@[simp] theorem State.bumpBy_released (c : CtrId) (n : Nat) : (s.bumpBy c n).released = s.released := by unfold State.bumpBy; split <;> rfl
@[simp] theorem State.bumpBy_regions (c : CtrId) (n : Nat) : (s.bumpBy c n).regions = s.regions := by unfold State.bumpBy; split <;> rfl
@[simp] theorem State.bumpBy_net (c : CtrId) (n : Nat) : (s.bumpBy c n).net = s.net := by unfold State.bumpBy; split <;> rfl
@[simp] theorem State.bumpBy_recover (c : CtrId) (n : Nat) : (s.bumpBy c n).recover = s.recover := by unfold State.bumpBy; split <;> rfl
@[simp] theorem State.bumpBy_drawn (c : CtrId) (n : Nat) : (s.bumpBy c n).drawn = s.drawn := by unfold State.bumpBy; split <;> rfl

@[simp] theorem State.raise_pending (b r d : Nat) (j : Bool) : (s.raise b r d j).pending = s.pending := by unfold State.raise; split <;> rfl
@[simp] theorem State.raise_clk (b r d : Nat) (j : Bool) : (s.raise b r d j).clk = s.clk := by unfold State.raise; split <;> rfl
@[simp] theorem State.raise_pwr (b r d : Nat) (j : Bool) : (s.raise b r d j).pwr = s.pwr := by unfold State.raise; split <;> rfl
@[simp] theorem State.raise_up (b r d : Nat) (j : Bool) : (s.raise b r d j).up = s.up := by unfold State.raise; split <;> rfl
@[simp] theorem State.raise_node (b r d : Nat) (j : Bool) : (s.raise b r d j).node = s.node := by unfold State.raise; split <;> rfl
@[simp] theorem State.raise_trust (b r d : Nat) (j : Bool) : (s.raise b r d j).trust = s.trust := by unfold State.raise; split <;> rfl
@[simp] theorem State.raise_blocks (b r d : Nat) (j : Bool) : (s.raise b r d j).blocks = s.blocks := by unfold State.raise; split <;> rfl
@[simp] theorem State.raise_regs (b r d : Nat) (j : Bool) : (s.raise b r d j).regs = s.regs := by unfold State.raise; split <;> rfl
@[simp] theorem State.raise_tiers (b r d : Nat) (j : Bool) : (s.raise b r d j).tiers = s.tiers := by unfold State.raise; split <;> rfl
@[simp] theorem State.raise_convs (b r d : Nat) (j : Bool) : (s.raise b r d j).convs = s.convs := by unfold State.raise; split <;> rfl
@[simp] theorem State.raise_attn (b r d : Nat) (j : Bool) : (s.raise b r d j).attn = s.attn := by unfold State.raise; split <;> rfl
@[simp] theorem State.raise_drifts (b r d : Nat) (j : Bool) : (s.raise b r d j).drifts = s.drifts := by unfold State.raise; split <;> rfl
@[simp] theorem State.raise_aborts (b r d : Nat) (j : Bool) : (s.raise b r d j).aborts = s.aborts := by unfold State.raise; split <;> rfl
@[simp] theorem State.raise_readies (b r d : Nat) (j : Bool) : (s.raise b r d j).readies = s.readies := by unfold State.raise; split <;> rfl
@[simp] theorem State.raise_released (b r d : Nat) (j : Bool) : (s.raise b r d j).released = s.released := by unfold State.raise; split <;> rfl
@[simp] theorem State.raise_regions (b r d : Nat) (j : Bool) : (s.raise b r d j).regions = s.regions := by unfold State.raise; split <;> rfl
@[simp] theorem State.raise_net (b r d : Nat) (j : Bool) : (s.raise b r d j).net = s.net := by unfold State.raise; split <;> rfl
@[simp] theorem State.raise_recover (b r d : Nat) (j : Bool) : (s.raise b r d j).recover = s.recover := by unfold State.raise; split <;> rfl
@[simp] theorem State.raise_drawn (b r d : Nat) (j : Bool) : (s.raise b r d j).drawn = s.drawn := by unfold State.raise; split <;> rfl

@[simp] theorem State.post_pending (i k : Nat) (ops : List WireOp) (tag : Tag) (h : Bool) (d : Option (Nat × Nat)) : (s.post i k ops tag h d).pending = s.pending := by unfold State.post; split <;> rfl
@[simp] theorem State.post_pins (i k : Nat) (ops : List WireOp) (tag : Tag) (h : Bool) (d : Option (Nat × Nat)) : (s.post i k ops tag h d).pins = s.pins := by unfold State.post; split <;> rfl
@[simp] theorem State.post_clk (i k : Nat) (ops : List WireOp) (tag : Tag) (h : Bool) (d : Option (Nat × Nat)) : (s.post i k ops tag h d).clk = s.clk := by unfold State.post; split <;> rfl
@[simp] theorem State.post_pwr (i k : Nat) (ops : List WireOp) (tag : Tag) (h : Bool) (d : Option (Nat × Nat)) : (s.post i k ops tag h d).pwr = s.pwr := by unfold State.post; split <;> rfl
@[simp] theorem State.post_up (i k : Nat) (ops : List WireOp) (tag : Tag) (h : Bool) (d : Option (Nat × Nat)) : (s.post i k ops tag h d).up = s.up := by unfold State.post; split <;> rfl
@[simp] theorem State.post_node (i k : Nat) (ops : List WireOp) (tag : Tag) (h : Bool) (d : Option (Nat × Nat)) : (s.post i k ops tag h d).node = s.node := by unfold State.post; split <;> rfl
@[simp] theorem State.post_trust (i k : Nat) (ops : List WireOp) (tag : Tag) (h : Bool) (d : Option (Nat × Nat)) : (s.post i k ops tag h d).trust = s.trust := by unfold State.post; split <;> rfl
@[simp] theorem State.post_blocks (i k : Nat) (ops : List WireOp) (tag : Tag) (h : Bool) (d : Option (Nat × Nat)) : (s.post i k ops tag h d).blocks = s.blocks := by unfold State.post; split <;> rfl
@[simp] theorem State.post_counters (i k : Nat) (ops : List WireOp) (tag : Tag) (h : Bool) (d : Option (Nat × Nat)) : (s.post i k ops tag h d).counters = s.counters := by unfold State.post; split <;> rfl
@[simp] theorem State.post_events (i k : Nat) (ops : List WireOp) (tag : Tag) (h : Bool) (d : Option (Nat × Nat)) : (s.post i k ops tag h d).events = s.events := by unfold State.post; split <;> rfl
@[simp] theorem State.post_regs (i k : Nat) (ops : List WireOp) (tag : Tag) (h : Bool) (d : Option (Nat × Nat)) : (s.post i k ops tag h d).regs = s.regs := by unfold State.post; split <;> rfl
@[simp] theorem State.post_tiers (i k : Nat) (ops : List WireOp) (tag : Tag) (h : Bool) (d : Option (Nat × Nat)) : (s.post i k ops tag h d).tiers = s.tiers := by unfold State.post; split <;> rfl
@[simp] theorem State.post_convs (i k : Nat) (ops : List WireOp) (tag : Tag) (h : Bool) (d : Option (Nat × Nat)) : (s.post i k ops tag h d).convs = s.convs := by unfold State.post; split <;> rfl
@[simp] theorem State.post_attn (i k : Nat) (ops : List WireOp) (tag : Tag) (h : Bool) (d : Option (Nat × Nat)) : (s.post i k ops tag h d).attn = s.attn := by unfold State.post; split <;> rfl
@[simp] theorem State.post_drifts (i k : Nat) (ops : List WireOp) (tag : Tag) (h : Bool) (d : Option (Nat × Nat)) : (s.post i k ops tag h d).drifts = s.drifts := by unfold State.post; split <;> rfl
@[simp] theorem State.post_aborts (i k : Nat) (ops : List WireOp) (tag : Tag) (h : Bool) (d : Option (Nat × Nat)) : (s.post i k ops tag h d).aborts = s.aborts := by unfold State.post; split <;> rfl
@[simp] theorem State.post_readies (i k : Nat) (ops : List WireOp) (tag : Tag) (h : Bool) (d : Option (Nat × Nat)) : (s.post i k ops tag h d).readies = s.readies := by unfold State.post; split <;> rfl
@[simp] theorem State.post_released (i k : Nat) (ops : List WireOp) (tag : Tag) (h : Bool) (d : Option (Nat × Nat)) : (s.post i k ops tag h d).released = s.released := by unfold State.post; split <;> rfl
@[simp] theorem State.post_regions (i k : Nat) (ops : List WireOp) (tag : Tag) (h : Bool) (d : Option (Nat × Nat)) : (s.post i k ops tag h d).regions = s.regions := by unfold State.post; split <;> rfl
@[simp] theorem State.post_recover (i k : Nat) (ops : List WireOp) (tag : Tag) (h : Bool) (d : Option (Nat × Nat)) : (s.post i k ops tag h d).recover = s.recover := by unfold State.post; split <;> rfl
@[simp] theorem State.post_drawn (i k : Nat) (ops : List WireOp) (tag : Tag) (h : Bool) (d : Option (Nat × Nat)) : (s.post i k ops tag h d).drawn = s.drawn := by unfold State.post; split <;> rfl

@[simp] theorem State.sendControl_pending (i : Nat) (o : WireOp) : (s.sendControl i o).pending = s.pending := rfl
@[simp] theorem State.sendControl_pins (i : Nat) (o : WireOp) : (s.sendControl i o).pins = s.pins := rfl
@[simp] theorem State.sendControl_clk (i : Nat) (o : WireOp) : (s.sendControl i o).clk = s.clk := rfl
@[simp] theorem State.sendControl_pwr (i : Nat) (o : WireOp) : (s.sendControl i o).pwr = s.pwr := rfl
@[simp] theorem State.sendControl_up (i : Nat) (o : WireOp) : (s.sendControl i o).up = s.up := rfl
@[simp] theorem State.sendControl_node (i : Nat) (o : WireOp) : (s.sendControl i o).node = s.node := rfl
@[simp] theorem State.sendControl_trust (i : Nat) (o : WireOp) : (s.sendControl i o).trust = s.trust := rfl
@[simp] theorem State.sendControl_blocks (i : Nat) (o : WireOp) : (s.sendControl i o).blocks = s.blocks := rfl
@[simp] theorem State.sendControl_counters (i : Nat) (o : WireOp) : (s.sendControl i o).counters = s.counters := rfl
@[simp] theorem State.sendControl_events (i : Nat) (o : WireOp) : (s.sendControl i o).events = s.events := rfl
@[simp] theorem State.sendControl_regs (i : Nat) (o : WireOp) : (s.sendControl i o).regs = s.regs := rfl
@[simp] theorem State.sendControl_tiers (i : Nat) (o : WireOp) : (s.sendControl i o).tiers = s.tiers := rfl
@[simp] theorem State.sendControl_convs (i : Nat) (o : WireOp) : (s.sendControl i o).convs = s.convs := rfl
@[simp] theorem State.sendControl_attn (i : Nat) (o : WireOp) : (s.sendControl i o).attn = s.attn := rfl
@[simp] theorem State.sendControl_drifts (i : Nat) (o : WireOp) : (s.sendControl i o).drifts = s.drifts := rfl
@[simp] theorem State.sendControl_aborts (i : Nat) (o : WireOp) : (s.sendControl i o).aborts = s.aborts := rfl
@[simp] theorem State.sendControl_readies (i : Nat) (o : WireOp) : (s.sendControl i o).readies = s.readies := rfl
@[simp] theorem State.sendControl_released (i : Nat) (o : WireOp) : (s.sendControl i o).released = s.released := rfl
@[simp] theorem State.sendControl_regions (i : Nat) (o : WireOp) : (s.sendControl i o).regions = s.regions := rfl
@[simp] theorem State.sendControl_recover (i : Nat) (o : WireOp) : (s.sendControl i o).recover = s.recover := rfl
@[simp] theorem State.sendControl_drawn (i : Nat) (o : WireOp) : (s.sendControl i o).drawn = s.drawn := rfl

@[simp] theorem State.sendDatagram_pending (bs : List Byte) : (s.sendDatagram bs).pending = s.pending := rfl
@[simp] theorem State.sendDatagram_pins (bs : List Byte) : (s.sendDatagram bs).pins = s.pins := rfl
@[simp] theorem State.sendDatagram_clk (bs : List Byte) : (s.sendDatagram bs).clk = s.clk := rfl
@[simp] theorem State.sendDatagram_pwr (bs : List Byte) : (s.sendDatagram bs).pwr = s.pwr := rfl
@[simp] theorem State.sendDatagram_up (bs : List Byte) : (s.sendDatagram bs).up = s.up := rfl
@[simp] theorem State.sendDatagram_node (bs : List Byte) : (s.sendDatagram bs).node = s.node := rfl
@[simp] theorem State.sendDatagram_trust (bs : List Byte) : (s.sendDatagram bs).trust = s.trust := rfl
@[simp] theorem State.sendDatagram_blocks (bs : List Byte) : (s.sendDatagram bs).blocks = s.blocks := rfl
@[simp] theorem State.sendDatagram_counters (bs : List Byte) : (s.sendDatagram bs).counters = s.counters := rfl
@[simp] theorem State.sendDatagram_events (bs : List Byte) : (s.sendDatagram bs).events = s.events := rfl
@[simp] theorem State.sendDatagram_regs (bs : List Byte) : (s.sendDatagram bs).regs = s.regs := rfl
@[simp] theorem State.sendDatagram_tiers (bs : List Byte) : (s.sendDatagram bs).tiers = s.tiers := rfl
@[simp] theorem State.sendDatagram_convs (bs : List Byte) : (s.sendDatagram bs).convs = s.convs := rfl
@[simp] theorem State.sendDatagram_attn (bs : List Byte) : (s.sendDatagram bs).attn = s.attn := rfl
@[simp] theorem State.sendDatagram_drifts (bs : List Byte) : (s.sendDatagram bs).drifts = s.drifts := rfl
@[simp] theorem State.sendDatagram_aborts (bs : List Byte) : (s.sendDatagram bs).aborts = s.aborts := rfl
@[simp] theorem State.sendDatagram_readies (bs : List Byte) : (s.sendDatagram bs).readies = s.readies := rfl
@[simp] theorem State.sendDatagram_released (bs : List Byte) : (s.sendDatagram bs).released = s.released := rfl
@[simp] theorem State.sendDatagram_regions (bs : List Byte) : (s.sendDatagram bs).regions = s.regions := rfl
@[simp] theorem State.sendDatagram_recover (bs : List Byte) : (s.sendDatagram bs).recover = s.recover := rfl
@[simp] theorem State.sendDatagram_drawn (bs : List Byte) : (s.sendDatagram bs).drawn = s.drawn := rfl

@[simp] theorem State.setRecord_pending (r : Record) : (s.setRecord r).pending = s.pending := rfl
@[simp] theorem State.setRecord_pins (r : Record) : (s.setRecord r).pins = s.pins := rfl
@[simp] theorem State.setRecord_clk (r : Record) : (s.setRecord r).clk = s.clk := rfl
@[simp] theorem State.setRecord_pwr (r : Record) : (s.setRecord r).pwr = s.pwr := rfl
@[simp] theorem State.setRecord_up (r : Record) : (s.setRecord r).up = s.up := rfl
@[simp] theorem State.setRecord_node (r : Record) : (s.setRecord r).node = s.node := rfl
@[simp] theorem State.setRecord_trust (r : Record) : (s.setRecord r).trust = s.trust := rfl
@[simp] theorem State.setRecord_blocks (r : Record) : (s.setRecord r).blocks = s.blocks := rfl
@[simp] theorem State.setRecord_counters (r : Record) : (s.setRecord r).counters = s.counters := rfl
@[simp] theorem State.setRecord_events (r : Record) : (s.setRecord r).events = s.events := rfl
@[simp] theorem State.setRecord_regs (r : Record) : (s.setRecord r).regs = s.regs := rfl
@[simp] theorem State.setRecord_tiers (r : Record) : (s.setRecord r).tiers = s.tiers := rfl
@[simp] theorem State.setRecord_convs (r : Record) : (s.setRecord r).convs = s.convs := rfl
@[simp] theorem State.setRecord_attn (r : Record) : (s.setRecord r).attn = s.attn := rfl
@[simp] theorem State.setRecord_drifts (r : Record) : (s.setRecord r).drifts = s.drifts := rfl
@[simp] theorem State.setRecord_aborts (r : Record) : (s.setRecord r).aborts = s.aborts := rfl
@[simp] theorem State.setRecord_readies (r : Record) : (s.setRecord r).readies = s.readies := rfl
@[simp] theorem State.setRecord_released (r : Record) : (s.setRecord r).released = s.released := rfl
@[simp] theorem State.setRecord_regions (r : Record) : (s.setRecord r).regions = s.regions := rfl
@[simp] theorem State.setRecord_recover (r : Record) : (s.setRecord r).recover = s.recover := rfl
@[simp] theorem State.setRecord_drawn (r : Record) : (s.setRecord r).drawn = s.drawn := rfl

@[simp] theorem State.endLast_pending (r : Record) : (s.endLast r).pending = s.pending := rfl
@[simp] theorem State.endLast_pins (r : Record) : (s.endLast r).pins = s.pins := rfl
@[simp] theorem State.endLast_clk (r : Record) : (s.endLast r).clk = s.clk := rfl
@[simp] theorem State.endLast_pwr (r : Record) : (s.endLast r).pwr = s.pwr := rfl
@[simp] theorem State.endLast_up (r : Record) : (s.endLast r).up = s.up := rfl
@[simp] theorem State.endLast_node (r : Record) : (s.endLast r).node = s.node := rfl
@[simp] theorem State.endLast_trust (r : Record) : (s.endLast r).trust = s.trust := rfl
@[simp] theorem State.endLast_blocks (r : Record) : (s.endLast r).blocks = s.blocks := rfl
@[simp] theorem State.endLast_counters (r : Record) : (s.endLast r).counters = s.counters := rfl
@[simp] theorem State.endLast_events (r : Record) : (s.endLast r).events = s.events := rfl
@[simp] theorem State.endLast_regs (r : Record) : (s.endLast r).regs = s.regs := rfl
@[simp] theorem State.endLast_tiers (r : Record) : (s.endLast r).tiers = s.tiers := rfl
@[simp] theorem State.endLast_convs (r : Record) : (s.endLast r).convs = s.convs := rfl
@[simp] theorem State.endLast_attn (r : Record) : (s.endLast r).attn = s.attn := rfl
@[simp] theorem State.endLast_drifts (r : Record) : (s.endLast r).drifts = s.drifts := rfl
@[simp] theorem State.endLast_aborts (r : Record) : (s.endLast r).aborts = s.aborts := rfl
@[simp] theorem State.endLast_readies (r : Record) : (s.endLast r).readies = s.readies := rfl
@[simp] theorem State.endLast_released (r : Record) : (s.endLast r).released = s.released := rfl
@[simp] theorem State.endLast_regions (r : Record) : (s.endLast r).regions = s.regions := rfl
@[simp] theorem State.endLast_recover (r : Record) : (s.endLast r).recover = s.recover := rfl
@[simp] theorem State.endLast_drawn (r : Record) : (s.endLast r).drawn = s.drawn := rfl

@[simp] theorem State.dropRecord_pending (u : Nat) (i : W64) : (s.dropRecord u i).pending = s.pending := rfl
@[simp] theorem State.dropRecord_pins (u : Nat) (i : W64) : (s.dropRecord u i).pins = s.pins := rfl
@[simp] theorem State.dropRecord_clk (u : Nat) (i : W64) : (s.dropRecord u i).clk = s.clk := rfl
@[simp] theorem State.dropRecord_pwr (u : Nat) (i : W64) : (s.dropRecord u i).pwr = s.pwr := rfl
@[simp] theorem State.dropRecord_up (u : Nat) (i : W64) : (s.dropRecord u i).up = s.up := rfl
@[simp] theorem State.dropRecord_node (u : Nat) (i : W64) : (s.dropRecord u i).node = s.node := rfl
@[simp] theorem State.dropRecord_trust (u : Nat) (i : W64) : (s.dropRecord u i).trust = s.trust := rfl
@[simp] theorem State.dropRecord_blocks (u : Nat) (i : W64) : (s.dropRecord u i).blocks = s.blocks := rfl
@[simp] theorem State.dropRecord_counters (u : Nat) (i : W64) : (s.dropRecord u i).counters = s.counters := rfl
@[simp] theorem State.dropRecord_events (u : Nat) (i : W64) : (s.dropRecord u i).events = s.events := rfl
@[simp] theorem State.dropRecord_regs (u : Nat) (i : W64) : (s.dropRecord u i).regs = s.regs := rfl
@[simp] theorem State.dropRecord_tiers (u : Nat) (i : W64) : (s.dropRecord u i).tiers = s.tiers := rfl
@[simp] theorem State.dropRecord_convs (u : Nat) (i : W64) : (s.dropRecord u i).convs = s.convs := rfl
@[simp] theorem State.dropRecord_attn (u : Nat) (i : W64) : (s.dropRecord u i).attn = s.attn := rfl
@[simp] theorem State.dropRecord_drifts (u : Nat) (i : W64) : (s.dropRecord u i).drifts = s.drifts := rfl
@[simp] theorem State.dropRecord_aborts (u : Nat) (i : W64) : (s.dropRecord u i).aborts = s.aborts := rfl
@[simp] theorem State.dropRecord_readies (u : Nat) (i : W64) : (s.dropRecord u i).readies = s.readies := rfl
@[simp] theorem State.dropRecord_released (u : Nat) (i : W64) : (s.dropRecord u i).released = s.released := rfl
@[simp] theorem State.dropRecord_regions (u : Nat) (i : W64) : (s.dropRecord u i).regions = s.regions := rfl
@[simp] theorem State.dropRecord_recover (u : Nat) (i : W64) : (s.dropRecord u i).recover = s.recover := rfl
@[simp] theorem State.dropRecord_drawn (u : Nat) (i : W64) : (s.dropRecord u i).drawn = s.drawn := rfl

@[simp] theorem State.deliverQp_pending (i : Nat) (r : Reply) : (s.deliverQp i r).pending = s.pending := by unfold State.deliverQp; dsimp only; (repeat' split) <;> simp
@[simp] theorem State.deliverQp_pins (i : Nat) (r : Reply) : (s.deliverQp i r).pins = s.pins := by unfold State.deliverQp; dsimp only; (repeat' split) <;> simp
@[simp] theorem State.deliverQp_clk (i : Nat) (r : Reply) : (s.deliverQp i r).clk = s.clk := by unfold State.deliverQp; dsimp only; (repeat' split) <;> simp
@[simp] theorem State.deliverQp_pwr (i : Nat) (r : Reply) : (s.deliverQp i r).pwr = s.pwr := by unfold State.deliverQp; dsimp only; (repeat' split) <;> simp
@[simp] theorem State.deliverQp_up (i : Nat) (r : Reply) : (s.deliverQp i r).up = s.up := by unfold State.deliverQp; dsimp only; (repeat' split) <;> simp
@[simp] theorem State.deliverQp_node (i : Nat) (r : Reply) : (s.deliverQp i r).node = s.node := by unfold State.deliverQp; dsimp only; (repeat' split) <;> simp
@[simp] theorem State.deliverQp_trust (i : Nat) (r : Reply) : (s.deliverQp i r).trust = s.trust := by unfold State.deliverQp; dsimp only; (repeat' split) <;> simp
@[simp] theorem State.deliverQp_blocks (i : Nat) (r : Reply) : (s.deliverQp i r).blocks = s.blocks := by unfold State.deliverQp; dsimp only; (repeat' split) <;> simp
@[simp] theorem State.deliverQp_events (i : Nat) (r : Reply) : (s.deliverQp i r).events = s.events := by unfold State.deliverQp; dsimp only; (repeat' split) <;> simp
@[simp] theorem State.deliverQp_regs (i : Nat) (r : Reply) : (s.deliverQp i r).regs = s.regs := by unfold State.deliverQp; dsimp only; (repeat' split) <;> simp
@[simp] theorem State.deliverQp_tiers (i : Nat) (r : Reply) : (s.deliverQp i r).tiers = s.tiers := by unfold State.deliverQp; dsimp only; (repeat' split) <;> simp
@[simp] theorem State.deliverQp_convs (i : Nat) (r : Reply) : (s.deliverQp i r).convs = s.convs := by unfold State.deliverQp; dsimp only; (repeat' split) <;> simp
@[simp] theorem State.deliverQp_attn (i : Nat) (r : Reply) : (s.deliverQp i r).attn = s.attn := by unfold State.deliverQp; dsimp only; (repeat' split) <;> simp
@[simp] theorem State.deliverQp_drifts (i : Nat) (r : Reply) : (s.deliverQp i r).drifts = s.drifts := by unfold State.deliverQp; dsimp only; (repeat' split) <;> simp
@[simp] theorem State.deliverQp_aborts (i : Nat) (r : Reply) : (s.deliverQp i r).aborts = s.aborts := by unfold State.deliverQp; dsimp only; (repeat' split) <;> simp
@[simp] theorem State.deliverQp_readies (i : Nat) (r : Reply) : (s.deliverQp i r).readies = s.readies := by unfold State.deliverQp; dsimp only; (repeat' split) <;> simp
@[simp] theorem State.deliverQp_released (i : Nat) (r : Reply) : (s.deliverQp i r).released = s.released := by unfold State.deliverQp; dsimp only; (repeat' split) <;> simp
@[simp] theorem State.deliverQp_regions (i : Nat) (r : Reply) : (s.deliverQp i r).regions = s.regions := by unfold State.deliverQp; dsimp only; (repeat' split) <;> simp
@[simp] theorem State.deliverQp_recover (i : Nat) (r : Reply) : (s.deliverQp i r).recover = s.recover := by unfold State.deliverQp; dsimp only; (repeat' split) <;> simp
@[simp] theorem State.deliverQp_drawn (i : Nat) (r : Reply) : (s.deliverQp i r).drawn = s.drawn := by unfold State.deliverQp; dsimp only; (repeat' split) <;> simp

@[simp] theorem State.deliverLane_pending (x : W32) (r : Reply) : (s.deliverLane x r).pending = s.pending := by unfold State.deliverLane; split <;> rfl
@[simp] theorem State.deliverLane_pins (x : W32) (r : Reply) : (s.deliverLane x r).pins = s.pins := by unfold State.deliverLane; split <;> rfl
@[simp] theorem State.deliverLane_clk (x : W32) (r : Reply) : (s.deliverLane x r).clk = s.clk := by unfold State.deliverLane; split <;> rfl
@[simp] theorem State.deliverLane_pwr (x : W32) (r : Reply) : (s.deliverLane x r).pwr = s.pwr := by unfold State.deliverLane; split <;> rfl
@[simp] theorem State.deliverLane_up (x : W32) (r : Reply) : (s.deliverLane x r).up = s.up := by unfold State.deliverLane; split <;> rfl
@[simp] theorem State.deliverLane_node (x : W32) (r : Reply) : (s.deliverLane x r).node = s.node := by unfold State.deliverLane; split <;> rfl
@[simp] theorem State.deliverLane_trust (x : W32) (r : Reply) : (s.deliverLane x r).trust = s.trust := by unfold State.deliverLane; split <;> rfl
@[simp] theorem State.deliverLane_blocks (x : W32) (r : Reply) : (s.deliverLane x r).blocks = s.blocks := by unfold State.deliverLane; split <;> rfl
@[simp] theorem State.deliverLane_counters (x : W32) (r : Reply) : (s.deliverLane x r).counters = s.counters := by unfold State.deliverLane; split <;> rfl
@[simp] theorem State.deliverLane_events (x : W32) (r : Reply) : (s.deliverLane x r).events = s.events := by unfold State.deliverLane; split <;> rfl
@[simp] theorem State.deliverLane_regs (x : W32) (r : Reply) : (s.deliverLane x r).regs = s.regs := by unfold State.deliverLane; split <;> rfl
@[simp] theorem State.deliverLane_tiers (x : W32) (r : Reply) : (s.deliverLane x r).tiers = s.tiers := by unfold State.deliverLane; split <;> rfl
@[simp] theorem State.deliverLane_convs (x : W32) (r : Reply) : (s.deliverLane x r).convs = s.convs := by unfold State.deliverLane; split <;> rfl
@[simp] theorem State.deliverLane_attn (x : W32) (r : Reply) : (s.deliverLane x r).attn = s.attn := by unfold State.deliverLane; split <;> rfl
@[simp] theorem State.deliverLane_drifts (x : W32) (r : Reply) : (s.deliverLane x r).drifts = s.drifts := by unfold State.deliverLane; split <;> rfl
@[simp] theorem State.deliverLane_aborts (x : W32) (r : Reply) : (s.deliverLane x r).aborts = s.aborts := by unfold State.deliverLane; split <;> rfl
@[simp] theorem State.deliverLane_readies (x : W32) (r : Reply) : (s.deliverLane x r).readies = s.readies := by unfold State.deliverLane; split <;> rfl
@[simp] theorem State.deliverLane_released (x : W32) (r : Reply) : (s.deliverLane x r).released = s.released := by unfold State.deliverLane; split <;> rfl
@[simp] theorem State.deliverLane_regions (x : W32) (r : Reply) : (s.deliverLane x r).regions = s.regions := by unfold State.deliverLane; split <;> rfl
@[simp] theorem State.deliverLane_recover (x : W32) (r : Reply) : (s.deliverLane x r).recover = s.recover := by unfold State.deliverLane; split <;> rfl
@[simp] theorem State.deliverLane_drawn (x : W32) (r : Reply) : (s.deliverLane x r).drawn = s.drawn := by unfold State.deliverLane; split <;> rfl

@[simp] theorem State.deliver_pending (c : CmdCtx) (r : Reply) : (s.deliver c r).pending = s.pending := by unfold State.deliver; (repeat' split) <;> simp
@[simp] theorem State.deliver_pins (c : CmdCtx) (r : Reply) : (s.deliver c r).pins = s.pins := by unfold State.deliver; (repeat' split) <;> simp
@[simp] theorem State.deliver_clk (c : CmdCtx) (r : Reply) : (s.deliver c r).clk = s.clk := by unfold State.deliver; (repeat' split) <;> simp
@[simp] theorem State.deliver_pwr (c : CmdCtx) (r : Reply) : (s.deliver c r).pwr = s.pwr := by unfold State.deliver; (repeat' split) <;> simp
@[simp] theorem State.deliver_up (c : CmdCtx) (r : Reply) : (s.deliver c r).up = s.up := by unfold State.deliver; (repeat' split) <;> simp
@[simp] theorem State.deliver_node (c : CmdCtx) (r : Reply) : (s.deliver c r).node = s.node := by unfold State.deliver; (repeat' split) <;> simp
@[simp] theorem State.deliver_trust (c : CmdCtx) (r : Reply) : (s.deliver c r).trust = s.trust := by unfold State.deliver; (repeat' split) <;> simp
@[simp] theorem State.deliver_blocks (c : CmdCtx) (r : Reply) : (s.deliver c r).blocks = s.blocks := by unfold State.deliver; (repeat' split) <;> simp
@[simp] theorem State.deliver_events (c : CmdCtx) (r : Reply) : (s.deliver c r).events = s.events := by unfold State.deliver; (repeat' split) <;> simp
@[simp] theorem State.deliver_regs (c : CmdCtx) (r : Reply) : (s.deliver c r).regs = s.regs := by unfold State.deliver; (repeat' split) <;> simp
@[simp] theorem State.deliver_tiers (c : CmdCtx) (r : Reply) : (s.deliver c r).tiers = s.tiers := by unfold State.deliver; (repeat' split) <;> simp
@[simp] theorem State.deliver_convs (c : CmdCtx) (r : Reply) : (s.deliver c r).convs = s.convs := by unfold State.deliver; (repeat' split) <;> simp
@[simp] theorem State.deliver_attn (c : CmdCtx) (r : Reply) : (s.deliver c r).attn = s.attn := by unfold State.deliver; (repeat' split) <;> simp
@[simp] theorem State.deliver_drifts (c : CmdCtx) (r : Reply) : (s.deliver c r).drifts = s.drifts := by unfold State.deliver; (repeat' split) <;> simp
@[simp] theorem State.deliver_aborts (c : CmdCtx) (r : Reply) : (s.deliver c r).aborts = s.aborts := by unfold State.deliver; (repeat' split) <;> simp
@[simp] theorem State.deliver_readies (c : CmdCtx) (r : Reply) : (s.deliver c r).readies = s.readies := by unfold State.deliver; (repeat' split) <;> simp
@[simp] theorem State.deliver_released (c : CmdCtx) (r : Reply) : (s.deliver c r).released = s.released := by unfold State.deliver; (repeat' split) <;> simp
@[simp] theorem State.deliver_regions (c : CmdCtx) (r : Reply) : (s.deliver c r).regions = s.regions := by unfold State.deliver; (repeat' split) <;> simp
@[simp] theorem State.deliver_recover (c : CmdCtx) (r : Reply) : (s.deliver c r).recover = s.recover := by unfold State.deliver; (repeat' split) <;> simp
@[simp] theorem State.deliver_drawn (c : CmdCtx) (r : Reply) : (s.deliver c r).drawn = s.drawn := by unfold State.deliver; (repeat' split) <;> simp

@[simp] theorem State.release_pending (c : CmdCtx) : (s.release c).pending = s.pending := by unfold State.release; split <;> rfl
@[simp] theorem State.release_pins (c : CmdCtx) : (s.release c).pins = s.pins := by unfold State.release; split <;> rfl
@[simp] theorem State.release_clk (c : CmdCtx) : (s.release c).clk = s.clk := by unfold State.release; split <;> rfl
@[simp] theorem State.release_pwr (c : CmdCtx) : (s.release c).pwr = s.pwr := by unfold State.release; split <;> rfl
@[simp] theorem State.release_up (c : CmdCtx) : (s.release c).up = s.up := by unfold State.release; split <;> rfl
@[simp] theorem State.release_node (c : CmdCtx) : (s.release c).node = s.node := by unfold State.release; split <;> rfl
@[simp] theorem State.release_trust (c : CmdCtx) : (s.release c).trust = s.trust := by unfold State.release; split <;> rfl
@[simp] theorem State.release_blocks (c : CmdCtx) : (s.release c).blocks = s.blocks := by unfold State.release; split <;> rfl
@[simp] theorem State.release_counters (c : CmdCtx) : (s.release c).counters = s.counters := by unfold State.release; split <;> rfl
@[simp] theorem State.release_events (c : CmdCtx) : (s.release c).events = s.events := by unfold State.release; split <;> rfl
@[simp] theorem State.release_regs (c : CmdCtx) : (s.release c).regs = s.regs := by unfold State.release; split <;> rfl
@[simp] theorem State.release_tiers (c : CmdCtx) : (s.release c).tiers = s.tiers := by unfold State.release; split <;> rfl
@[simp] theorem State.release_convs (c : CmdCtx) : (s.release c).convs = s.convs := by unfold State.release; split <;> rfl
@[simp] theorem State.release_attn (c : CmdCtx) : (s.release c).attn = s.attn := by unfold State.release; split <;> rfl
@[simp] theorem State.release_drifts (c : CmdCtx) : (s.release c).drifts = s.drifts := by unfold State.release; split <;> rfl
@[simp] theorem State.release_aborts (c : CmdCtx) : (s.release c).aborts = s.aborts := by unfold State.release; split <;> rfl
@[simp] theorem State.release_readies (c : CmdCtx) : (s.release c).readies = s.readies := by unfold State.release; split <;> rfl
@[simp] theorem State.release_released (c : CmdCtx) : (s.release c).released = s.released := by unfold State.release; split <;> rfl
@[simp] theorem State.release_regions (c : CmdCtx) : (s.release c).regions = s.regions := by unfold State.release; split <;> rfl
@[simp] theorem State.release_recover (c : CmdCtx) : (s.release c).recover = s.recover := by unfold State.release; split <;> rfl
@[simp] theorem State.release_drawn (c : CmdCtx) : (s.release c).drawn = s.drawn := by unfold State.release; split <;> rfl

@[simp] theorem State.useFrame_pending (t : Tier) (f : Nat) (u : FrameUse) : (s.useFrame t f u).pending = s.pending := rfl
@[simp] theorem State.useFrame_pins (t : Tier) (f : Nat) (u : FrameUse) : (s.useFrame t f u).pins = s.pins := rfl
@[simp] theorem State.useFrame_clk (t : Tier) (f : Nat) (u : FrameUse) : (s.useFrame t f u).clk = s.clk := rfl
@[simp] theorem State.useFrame_pwr (t : Tier) (f : Nat) (u : FrameUse) : (s.useFrame t f u).pwr = s.pwr := rfl
@[simp] theorem State.useFrame_up (t : Tier) (f : Nat) (u : FrameUse) : (s.useFrame t f u).up = s.up := rfl
@[simp] theorem State.useFrame_node (t : Tier) (f : Nat) (u : FrameUse) : (s.useFrame t f u).node = s.node := rfl
@[simp] theorem State.useFrame_trust (t : Tier) (f : Nat) (u : FrameUse) : (s.useFrame t f u).trust = s.trust := rfl
@[simp] theorem State.useFrame_blocks (t : Tier) (f : Nat) (u : FrameUse) : (s.useFrame t f u).blocks = s.blocks := rfl
@[simp] theorem State.useFrame_counters (t : Tier) (f : Nat) (u : FrameUse) : (s.useFrame t f u).counters = s.counters := rfl
@[simp] theorem State.useFrame_events (t : Tier) (f : Nat) (u : FrameUse) : (s.useFrame t f u).events = s.events := rfl
@[simp] theorem State.useFrame_regs (t : Tier) (f : Nat) (u : FrameUse) : (s.useFrame t f u).regs = s.regs := rfl
@[simp] theorem State.useFrame_convs (t : Tier) (f : Nat) (u : FrameUse) : (s.useFrame t f u).convs = s.convs := rfl
@[simp] theorem State.useFrame_attn (t : Tier) (f : Nat) (u : FrameUse) : (s.useFrame t f u).attn = s.attn := rfl
@[simp] theorem State.useFrame_drifts (t : Tier) (f : Nat) (u : FrameUse) : (s.useFrame t f u).drifts = s.drifts := rfl
@[simp] theorem State.useFrame_aborts (t : Tier) (f : Nat) (u : FrameUse) : (s.useFrame t f u).aborts = s.aborts := rfl
@[simp] theorem State.useFrame_readies (t : Tier) (f : Nat) (u : FrameUse) : (s.useFrame t f u).readies = s.readies := rfl
@[simp] theorem State.useFrame_released (t : Tier) (f : Nat) (u : FrameUse) : (s.useFrame t f u).released = s.released := rfl
@[simp] theorem State.useFrame_regions (t : Tier) (f : Nat) (u : FrameUse) : (s.useFrame t f u).regions = s.regions := rfl
@[simp] theorem State.useFrame_net (t : Tier) (f : Nat) (u : FrameUse) : (s.useFrame t f u).net = s.net := rfl
@[simp] theorem State.useFrame_recover (t : Tier) (f : Nat) (u : FrameUse) : (s.useFrame t f u).recover = s.recover := rfl
@[simp] theorem State.useFrame_drawn (t : Tier) (f : Nat) (u : FrameUse) : (s.useFrame t f u).drawn = s.drawn := rfl

@[simp] theorem State.clearFrame_pending (t : Tier) (f : Nat) : (s.clearFrame t f).pending = s.pending := rfl
@[simp] theorem State.clearFrame_pins (t : Tier) (f : Nat) : (s.clearFrame t f).pins = s.pins := rfl
@[simp] theorem State.clearFrame_clk (t : Tier) (f : Nat) : (s.clearFrame t f).clk = s.clk := rfl
@[simp] theorem State.clearFrame_pwr (t : Tier) (f : Nat) : (s.clearFrame t f).pwr = s.pwr := rfl
@[simp] theorem State.clearFrame_up (t : Tier) (f : Nat) : (s.clearFrame t f).up = s.up := rfl
@[simp] theorem State.clearFrame_node (t : Tier) (f : Nat) : (s.clearFrame t f).node = s.node := rfl
@[simp] theorem State.clearFrame_trust (t : Tier) (f : Nat) : (s.clearFrame t f).trust = s.trust := rfl
@[simp] theorem State.clearFrame_blocks (t : Tier) (f : Nat) : (s.clearFrame t f).blocks = s.blocks := rfl
@[simp] theorem State.clearFrame_counters (t : Tier) (f : Nat) : (s.clearFrame t f).counters = s.counters := rfl
@[simp] theorem State.clearFrame_events (t : Tier) (f : Nat) : (s.clearFrame t f).events = s.events := rfl
@[simp] theorem State.clearFrame_regs (t : Tier) (f : Nat) : (s.clearFrame t f).regs = s.regs := rfl
@[simp] theorem State.clearFrame_convs (t : Tier) (f : Nat) : (s.clearFrame t f).convs = s.convs := rfl
@[simp] theorem State.clearFrame_attn (t : Tier) (f : Nat) : (s.clearFrame t f).attn = s.attn := rfl
@[simp] theorem State.clearFrame_drifts (t : Tier) (f : Nat) : (s.clearFrame t f).drifts = s.drifts := rfl
@[simp] theorem State.clearFrame_aborts (t : Tier) (f : Nat) : (s.clearFrame t f).aborts = s.aborts := rfl
@[simp] theorem State.clearFrame_readies (t : Tier) (f : Nat) : (s.clearFrame t f).readies = s.readies := rfl
@[simp] theorem State.clearFrame_released (t : Tier) (f : Nat) : (s.clearFrame t f).released = s.released := rfl
@[simp] theorem State.clearFrame_regions (t : Tier) (f : Nat) : (s.clearFrame t f).regions = s.regions := rfl
@[simp] theorem State.clearFrame_net (t : Tier) (f : Nat) : (s.clearFrame t f).net = s.net := rfl
@[simp] theorem State.clearFrame_recover (t : Tier) (f : Nat) : (s.clearFrame t f).recover = s.recover := rfl
@[simp] theorem State.clearFrame_drawn (t : Tier) (f : Nat) : (s.clearFrame t f).drawn = s.drawn := rfl

@[simp] theorem State.freeFrame_pending (t : Tier) (f : Nat) : (s.freeFrame t f).pending = s.pending := by unfold State.freeFrame; split <;> rfl
@[simp] theorem State.freeFrame_pins (t : Tier) (f : Nat) : (s.freeFrame t f).pins = s.pins := by unfold State.freeFrame; split <;> rfl
@[simp] theorem State.freeFrame_clk (t : Tier) (f : Nat) : (s.freeFrame t f).clk = s.clk := by unfold State.freeFrame; split <;> rfl
@[simp] theorem State.freeFrame_pwr (t : Tier) (f : Nat) : (s.freeFrame t f).pwr = s.pwr := by unfold State.freeFrame; split <;> rfl
@[simp] theorem State.freeFrame_up (t : Tier) (f : Nat) : (s.freeFrame t f).up = s.up := by unfold State.freeFrame; split <;> rfl
@[simp] theorem State.freeFrame_node (t : Tier) (f : Nat) : (s.freeFrame t f).node = s.node := by unfold State.freeFrame; split <;> rfl
@[simp] theorem State.freeFrame_trust (t : Tier) (f : Nat) : (s.freeFrame t f).trust = s.trust := by unfold State.freeFrame; split <;> rfl
@[simp] theorem State.freeFrame_blocks (t : Tier) (f : Nat) : (s.freeFrame t f).blocks = s.blocks := by unfold State.freeFrame; split <;> rfl
@[simp] theorem State.freeFrame_counters (t : Tier) (f : Nat) : (s.freeFrame t f).counters = s.counters := by unfold State.freeFrame; split <;> rfl
@[simp] theorem State.freeFrame_events (t : Tier) (f : Nat) : (s.freeFrame t f).events = s.events := by unfold State.freeFrame; split <;> rfl
@[simp] theorem State.freeFrame_regs (t : Tier) (f : Nat) : (s.freeFrame t f).regs = s.regs := by unfold State.freeFrame; split <;> rfl
@[simp] theorem State.freeFrame_convs (t : Tier) (f : Nat) : (s.freeFrame t f).convs = s.convs := by unfold State.freeFrame; split <;> rfl
@[simp] theorem State.freeFrame_attn (t : Tier) (f : Nat) : (s.freeFrame t f).attn = s.attn := by unfold State.freeFrame; split <;> rfl
@[simp] theorem State.freeFrame_drifts (t : Tier) (f : Nat) : (s.freeFrame t f).drifts = s.drifts := by unfold State.freeFrame; split <;> rfl
@[simp] theorem State.freeFrame_aborts (t : Tier) (f : Nat) : (s.freeFrame t f).aborts = s.aborts := by unfold State.freeFrame; split <;> rfl
@[simp] theorem State.freeFrame_readies (t : Tier) (f : Nat) : (s.freeFrame t f).readies = s.readies := by unfold State.freeFrame; split <;> rfl
@[simp] theorem State.freeFrame_released (t : Tier) (f : Nat) : (s.freeFrame t f).released = s.released := by unfold State.freeFrame; split <;> rfl
@[simp] theorem State.freeFrame_regions (t : Tier) (f : Nat) : (s.freeFrame t f).regions = s.regions := by unfold State.freeFrame; split <;> rfl
@[simp] theorem State.freeFrame_net (t : Tier) (f : Nat) : (s.freeFrame t f).net = s.net := by unfold State.freeFrame; split <;> rfl
@[simp] theorem State.freeFrame_recover (t : Tier) (f : Nat) : (s.freeFrame t f).recover = s.recover := by unfold State.freeFrame; split <;> rfl
@[simp] theorem State.freeFrame_drawn (t : Tier) (f : Nat) : (s.freeFrame t f).drawn = s.drawn := by unfold State.freeFrame; split <;> rfl

/-- A fold keeps what each of its steps keeps. -/
theorem foldl_keeps {α β : Type} (p : State → β) (l : List α) (f : State → α → State) (h : ∀ s a, p (f s a) = p s) (s : State) :
    p (l.foldl f s) = p s := by
  induction l generalizing s with
  | nil => rfl
  | cons a l ih => rw [List.foldl_cons, ih, h]

@[simp] theorem State.freeKept_pending (r : Record) : (s.freeKept r).pending = s.pending := by unfold State.freeKept; simp only [State.modTiers_pending]; exact foldl_keeps (·.pending) _ _ (by intros; simp) s
@[simp] theorem State.freeKept_pins (r : Record) : (s.freeKept r).pins = s.pins := by unfold State.freeKept; simp only [State.modTiers_pins]; exact foldl_keeps (·.pins) _ _ (by intros; simp) s
@[simp] theorem State.freeKept_clk (r : Record) : (s.freeKept r).clk = s.clk := by unfold State.freeKept; simp only [State.modTiers_clk]; exact foldl_keeps (·.clk) _ _ (by intros; simp) s
@[simp] theorem State.freeKept_pwr (r : Record) : (s.freeKept r).pwr = s.pwr := by unfold State.freeKept; simp only [State.modTiers_pwr]; exact foldl_keeps (·.pwr) _ _ (by intros; simp) s
@[simp] theorem State.freeKept_up (r : Record) : (s.freeKept r).up = s.up := by unfold State.freeKept; simp only [State.modTiers_up]; exact foldl_keeps (·.up) _ _ (by intros; simp) s
@[simp] theorem State.freeKept_node (r : Record) : (s.freeKept r).node = s.node := by unfold State.freeKept; simp only [State.modTiers_node]; exact foldl_keeps (·.node) _ _ (by intros; simp) s
@[simp] theorem State.freeKept_trust (r : Record) : (s.freeKept r).trust = s.trust := by unfold State.freeKept; simp only [State.modTiers_trust]; exact foldl_keeps (·.trust) _ _ (by intros; simp) s
@[simp] theorem State.freeKept_blocks (r : Record) : (s.freeKept r).blocks = s.blocks := by unfold State.freeKept; simp only [State.modTiers_blocks]; exact foldl_keeps (·.blocks) _ _ (by intros; simp) s
@[simp] theorem State.freeKept_counters (r : Record) : (s.freeKept r).counters = s.counters := by unfold State.freeKept; simp only [State.modTiers_counters]; exact foldl_keeps (·.counters) _ _ (by intros; simp) s
@[simp] theorem State.freeKept_events (r : Record) : (s.freeKept r).events = s.events := by unfold State.freeKept; simp only [State.modTiers_events]; exact foldl_keeps (·.events) _ _ (by intros; simp) s
@[simp] theorem State.freeKept_regs (r : Record) : (s.freeKept r).regs = s.regs := by unfold State.freeKept; simp only [State.modTiers_regs]; exact foldl_keeps (·.regs) _ _ (by intros; simp) s
@[simp] theorem State.freeKept_convs (r : Record) : (s.freeKept r).convs = s.convs := by unfold State.freeKept; simp only [State.modTiers_convs]; exact foldl_keeps (·.convs) _ _ (by intros; simp) s
@[simp] theorem State.freeKept_attn (r : Record) : (s.freeKept r).attn = s.attn := by unfold State.freeKept; simp only [State.modTiers_attn]; exact foldl_keeps (·.attn) _ _ (by intros; simp) s
@[simp] theorem State.freeKept_drifts (r : Record) : (s.freeKept r).drifts = s.drifts := by unfold State.freeKept; simp only [State.modTiers_drifts]; exact foldl_keeps (·.drifts) _ _ (by intros; simp) s
@[simp] theorem State.freeKept_aborts (r : Record) : (s.freeKept r).aborts = s.aborts := by unfold State.freeKept; simp only [State.modTiers_aborts]; exact foldl_keeps (·.aborts) _ _ (by intros; simp) s
@[simp] theorem State.freeKept_readies (r : Record) : (s.freeKept r).readies = s.readies := by unfold State.freeKept; simp only [State.modTiers_readies]; exact foldl_keeps (·.readies) _ _ (by intros; simp) s
@[simp] theorem State.freeKept_released (r : Record) : (s.freeKept r).released = s.released := by unfold State.freeKept; simp only [State.modTiers_released]; exact foldl_keeps (·.released) _ _ (by intros; simp) s
@[simp] theorem State.freeKept_regions (r : Record) : (s.freeKept r).regions = s.regions := by unfold State.freeKept; simp only [State.modTiers_regions]; exact foldl_keeps (·.regions) _ _ (by intros; simp) s
@[simp] theorem State.freeKept_net (r : Record) : (s.freeKept r).net = s.net := by unfold State.freeKept; simp only [State.modTiers_net]; exact foldl_keeps (·.net) _ _ (by intros; simp) s
@[simp] theorem State.freeKept_recover (r : Record) : (s.freeKept r).recover = s.recover := by unfold State.freeKept; simp only [State.modTiers_recover]; exact foldl_keeps (·.recover) _ _ (by intros; simp) s
@[simp] theorem State.freeKept_drawn (r : Record) : (s.freeKept r).drawn = s.drawn := by unfold State.freeKept; simp only [State.modTiers_drawn]; exact foldl_keeps (·.drawn) _ _ (by intros; simp) s

@[simp] theorem State.closeRecord_pending (r : Record) (st : RecordState) : (s.closeRecord r st).pending = s.pending := by simp [State.closeRecord]
@[simp] theorem State.closeRecord_pins (r : Record) (st : RecordState) : (s.closeRecord r st).pins = s.pins := by simp [State.closeRecord]
@[simp] theorem State.closeRecord_clk (r : Record) (st : RecordState) : (s.closeRecord r st).clk = s.clk := by simp [State.closeRecord]
@[simp] theorem State.closeRecord_pwr (r : Record) (st : RecordState) : (s.closeRecord r st).pwr = s.pwr := by simp [State.closeRecord]
@[simp] theorem State.closeRecord_up (r : Record) (st : RecordState) : (s.closeRecord r st).up = s.up := by simp [State.closeRecord]
@[simp] theorem State.closeRecord_node (r : Record) (st : RecordState) : (s.closeRecord r st).node = s.node := by simp [State.closeRecord]
@[simp] theorem State.closeRecord_trust (r : Record) (st : RecordState) : (s.closeRecord r st).trust = s.trust := by simp [State.closeRecord]
@[simp] theorem State.closeRecord_blocks (r : Record) (st : RecordState) : (s.closeRecord r st).blocks = s.blocks := by simp [State.closeRecord]
@[simp] theorem State.closeRecord_counters (r : Record) (st : RecordState) : (s.closeRecord r st).counters = s.counters := by simp [State.closeRecord]
@[simp] theorem State.closeRecord_events (r : Record) (st : RecordState) : (s.closeRecord r st).events = s.events := by simp [State.closeRecord]
@[simp] theorem State.closeRecord_regs (r : Record) (st : RecordState) : (s.closeRecord r st).regs = s.regs := by simp [State.closeRecord]
@[simp] theorem State.closeRecord_convs (r : Record) (st : RecordState) : (s.closeRecord r st).convs = s.convs := by simp [State.closeRecord]
@[simp] theorem State.closeRecord_attn (r : Record) (st : RecordState) : (s.closeRecord r st).attn = s.attn := by simp [State.closeRecord]
@[simp] theorem State.closeRecord_drifts (r : Record) (st : RecordState) : (s.closeRecord r st).drifts = s.drifts := by simp [State.closeRecord]
@[simp] theorem State.closeRecord_aborts (r : Record) (st : RecordState) : (s.closeRecord r st).aborts = s.aborts := by simp [State.closeRecord]
@[simp] theorem State.closeRecord_readies (r : Record) (st : RecordState) : (s.closeRecord r st).readies = s.readies := by simp [State.closeRecord]
@[simp] theorem State.closeRecord_released (r : Record) (st : RecordState) : (s.closeRecord r st).released = s.released := by simp [State.closeRecord]
@[simp] theorem State.closeRecord_regions (r : Record) (st : RecordState) : (s.closeRecord r st).regions = s.regions := by simp [State.closeRecord]
@[simp] theorem State.closeRecord_recover (r : Record) (st : RecordState) : (s.closeRecord r st).recover = s.recover := by simp [State.closeRecord]
@[simp] theorem State.closeRecord_drawn (r : Record) (st : RecordState) : (s.closeRecord r st).drawn = s.drawn := by simp [State.closeRecord]

@[simp] theorem State.takeFrame_pending (t : Tier) (u : FrameUse) : (s.takeFrame t u).2.pending = s.pending := rfl
@[simp] theorem State.takeFrame_pins (t : Tier) (u : FrameUse) : (s.takeFrame t u).2.pins = s.pins := rfl
@[simp] theorem State.takeFrame_clk (t : Tier) (u : FrameUse) : (s.takeFrame t u).2.clk = s.clk := rfl
@[simp] theorem State.takeFrame_pwr (t : Tier) (u : FrameUse) : (s.takeFrame t u).2.pwr = s.pwr := rfl
@[simp] theorem State.takeFrame_up (t : Tier) (u : FrameUse) : (s.takeFrame t u).2.up = s.up := rfl
@[simp] theorem State.takeFrame_node (t : Tier) (u : FrameUse) : (s.takeFrame t u).2.node = s.node := rfl
@[simp] theorem State.takeFrame_trust (t : Tier) (u : FrameUse) : (s.takeFrame t u).2.trust = s.trust := rfl
@[simp] theorem State.takeFrame_blocks (t : Tier) (u : FrameUse) : (s.takeFrame t u).2.blocks = s.blocks := rfl
@[simp] theorem State.takeFrame_counters (t : Tier) (u : FrameUse) : (s.takeFrame t u).2.counters = s.counters := rfl
@[simp] theorem State.takeFrame_events (t : Tier) (u : FrameUse) : (s.takeFrame t u).2.events = s.events := rfl
@[simp] theorem State.takeFrame_regs (t : Tier) (u : FrameUse) : (s.takeFrame t u).2.regs = s.regs := rfl
@[simp] theorem State.takeFrame_convs (t : Tier) (u : FrameUse) : (s.takeFrame t u).2.convs = s.convs := rfl
@[simp] theorem State.takeFrame_attn (t : Tier) (u : FrameUse) : (s.takeFrame t u).2.attn = s.attn := rfl
@[simp] theorem State.takeFrame_drifts (t : Tier) (u : FrameUse) : (s.takeFrame t u).2.drifts = s.drifts := rfl
@[simp] theorem State.takeFrame_aborts (t : Tier) (u : FrameUse) : (s.takeFrame t u).2.aborts = s.aborts := rfl
@[simp] theorem State.takeFrame_readies (t : Tier) (u : FrameUse) : (s.takeFrame t u).2.readies = s.readies := rfl
@[simp] theorem State.takeFrame_released (t : Tier) (u : FrameUse) : (s.takeFrame t u).2.released = s.released := rfl
@[simp] theorem State.takeFrame_regions (t : Tier) (u : FrameUse) : (s.takeFrame t u).2.regions = s.regions := rfl
@[simp] theorem State.takeFrame_net (t : Tier) (u : FrameUse) : (s.takeFrame t u).2.net = s.net := rfl
@[simp] theorem State.takeFrame_recover (t : Tier) (u : FrameUse) : (s.takeFrame t u).2.recover = s.recover := rfl

@[simp] theorem State.makeKeepRoom_pending (n k : Nat) : (s.makeKeepRoom n k).pending = s.pending := by
  induction k generalizing s with
  | zero => rfl
  | succ k ih => unfold State.makeKeepRoom; (repeat' split) <;> simp [ih]
@[simp] theorem State.makeKeepRoom_pins (n k : Nat) : (s.makeKeepRoom n k).pins = s.pins := by
  induction k generalizing s with
  | zero => rfl
  | succ k ih => unfold State.makeKeepRoom; (repeat' split) <;> simp [ih]
@[simp] theorem State.makeKeepRoom_clk (n k : Nat) : (s.makeKeepRoom n k).clk = s.clk := by
  induction k generalizing s with
  | zero => rfl
  | succ k ih => unfold State.makeKeepRoom; (repeat' split) <;> simp [ih]
@[simp] theorem State.makeKeepRoom_pwr (n k : Nat) : (s.makeKeepRoom n k).pwr = s.pwr := by
  induction k generalizing s with
  | zero => rfl
  | succ k ih => unfold State.makeKeepRoom; (repeat' split) <;> simp [ih]
@[simp] theorem State.makeKeepRoom_up (n k : Nat) : (s.makeKeepRoom n k).up = s.up := by
  induction k generalizing s with
  | zero => rfl
  | succ k ih => unfold State.makeKeepRoom; (repeat' split) <;> simp [ih]
@[simp] theorem State.makeKeepRoom_node (n k : Nat) : (s.makeKeepRoom n k).node = s.node := by
  induction k generalizing s with
  | zero => rfl
  | succ k ih => unfold State.makeKeepRoom; (repeat' split) <;> simp [ih]
@[simp] theorem State.makeKeepRoom_trust (n k : Nat) : (s.makeKeepRoom n k).trust = s.trust := by
  induction k generalizing s with
  | zero => rfl
  | succ k ih => unfold State.makeKeepRoom; (repeat' split) <;> simp [ih]
@[simp] theorem State.makeKeepRoom_blocks (n k : Nat) : (s.makeKeepRoom n k).blocks = s.blocks := by
  induction k generalizing s with
  | zero => rfl
  | succ k ih => unfold State.makeKeepRoom; (repeat' split) <;> simp [ih]
@[simp] theorem State.makeKeepRoom_events (n k : Nat) : (s.makeKeepRoom n k).events = s.events := by
  induction k generalizing s with
  | zero => rfl
  | succ k ih => unfold State.makeKeepRoom; (repeat' split) <;> simp [ih]
@[simp] theorem State.makeKeepRoom_regs (n k : Nat) : (s.makeKeepRoom n k).regs = s.regs := by
  induction k generalizing s with
  | zero => rfl
  | succ k ih => unfold State.makeKeepRoom; (repeat' split) <;> simp [ih]
@[simp] theorem State.makeKeepRoom_convs (n k : Nat) : (s.makeKeepRoom n k).convs = s.convs := by
  induction k generalizing s with
  | zero => rfl
  | succ k ih => unfold State.makeKeepRoom; (repeat' split) <;> simp [ih]
@[simp] theorem State.makeKeepRoom_attn (n k : Nat) : (s.makeKeepRoom n k).attn = s.attn := by
  induction k generalizing s with
  | zero => rfl
  | succ k ih => unfold State.makeKeepRoom; (repeat' split) <;> simp [ih]
@[simp] theorem State.makeKeepRoom_drifts (n k : Nat) : (s.makeKeepRoom n k).drifts = s.drifts := by
  induction k generalizing s with
  | zero => rfl
  | succ k ih => unfold State.makeKeepRoom; (repeat' split) <;> simp [ih]
@[simp] theorem State.makeKeepRoom_aborts (n k : Nat) : (s.makeKeepRoom n k).aborts = s.aborts := by
  induction k generalizing s with
  | zero => rfl
  | succ k ih => unfold State.makeKeepRoom; (repeat' split) <;> simp [ih]
@[simp] theorem State.makeKeepRoom_readies (n k : Nat) : (s.makeKeepRoom n k).readies = s.readies := by
  induction k generalizing s with
  | zero => rfl
  | succ k ih => unfold State.makeKeepRoom; (repeat' split) <;> simp [ih]
@[simp] theorem State.makeKeepRoom_released (n k : Nat) : (s.makeKeepRoom n k).released = s.released := by
  induction k generalizing s with
  | zero => rfl
  | succ k ih => unfold State.makeKeepRoom; (repeat' split) <;> simp [ih]
@[simp] theorem State.makeKeepRoom_regions (n k : Nat) : (s.makeKeepRoom n k).regions = s.regions := by
  induction k generalizing s with
  | zero => rfl
  | succ k ih => unfold State.makeKeepRoom; (repeat' split) <;> simp [ih]
@[simp] theorem State.makeKeepRoom_recover (n k : Nat) : (s.makeKeepRoom n k).recover = s.recover := by
  induction k generalizing s with
  | zero => rfl
  | succ k ih => unfold State.makeKeepRoom; (repeat' split) <;> simp [ih]
@[simp] theorem State.makeKeepRoom_drawn (n k : Nat) : (s.makeKeepRoom n k).drawn = s.drawn := by
  induction k generalizing s with
  | zero => rfl
  | succ k ih => unfold State.makeKeepRoom; (repeat' split) <;> simp [ih]

@[simp] theorem State.keepWrite_pending (fs : List Nat) (n : Nat) (bs : List Byte) : (s.keepWrite fs n bs).pending = s.pending := by unfold State.keepWrite; exact foldl_keeps (·.pending) _ _ (by intros; simp) s
@[simp] theorem State.keepWrite_pins (fs : List Nat) (n : Nat) (bs : List Byte) : (s.keepWrite fs n bs).pins = s.pins := by unfold State.keepWrite; exact foldl_keeps (·.pins) _ _ (by intros; simp) s
@[simp] theorem State.keepWrite_clk (fs : List Nat) (n : Nat) (bs : List Byte) : (s.keepWrite fs n bs).clk = s.clk := by unfold State.keepWrite; exact foldl_keeps (·.clk) _ _ (by intros; simp) s
@[simp] theorem State.keepWrite_pwr (fs : List Nat) (n : Nat) (bs : List Byte) : (s.keepWrite fs n bs).pwr = s.pwr := by unfold State.keepWrite; exact foldl_keeps (·.pwr) _ _ (by intros; simp) s
@[simp] theorem State.keepWrite_up (fs : List Nat) (n : Nat) (bs : List Byte) : (s.keepWrite fs n bs).up = s.up := by unfold State.keepWrite; exact foldl_keeps (·.up) _ _ (by intros; simp) s
@[simp] theorem State.keepWrite_node (fs : List Nat) (n : Nat) (bs : List Byte) : (s.keepWrite fs n bs).node = s.node := by unfold State.keepWrite; exact foldl_keeps (·.node) _ _ (by intros; simp) s
@[simp] theorem State.keepWrite_trust (fs : List Nat) (n : Nat) (bs : List Byte) : (s.keepWrite fs n bs).trust = s.trust := by unfold State.keepWrite; exact foldl_keeps (·.trust) _ _ (by intros; simp) s
@[simp] theorem State.keepWrite_blocks (fs : List Nat) (n : Nat) (bs : List Byte) : (s.keepWrite fs n bs).blocks = s.blocks := by unfold State.keepWrite; exact foldl_keeps (·.blocks) _ _ (by intros; simp) s
@[simp] theorem State.keepWrite_counters (fs : List Nat) (n : Nat) (bs : List Byte) : (s.keepWrite fs n bs).counters = s.counters := by unfold State.keepWrite; exact foldl_keeps (·.counters) _ _ (by intros; simp) s
@[simp] theorem State.keepWrite_events (fs : List Nat) (n : Nat) (bs : List Byte) : (s.keepWrite fs n bs).events = s.events := by unfold State.keepWrite; exact foldl_keeps (·.events) _ _ (by intros; simp) s
@[simp] theorem State.keepWrite_regs (fs : List Nat) (n : Nat) (bs : List Byte) : (s.keepWrite fs n bs).regs = s.regs := by unfold State.keepWrite; exact foldl_keeps (·.regs) _ _ (by intros; simp) s
@[simp] theorem State.keepWrite_convs (fs : List Nat) (n : Nat) (bs : List Byte) : (s.keepWrite fs n bs).convs = s.convs := by unfold State.keepWrite; exact foldl_keeps (·.convs) _ _ (by intros; simp) s
@[simp] theorem State.keepWrite_attn (fs : List Nat) (n : Nat) (bs : List Byte) : (s.keepWrite fs n bs).attn = s.attn := by unfold State.keepWrite; exact foldl_keeps (·.attn) _ _ (by intros; simp) s
@[simp] theorem State.keepWrite_drifts (fs : List Nat) (n : Nat) (bs : List Byte) : (s.keepWrite fs n bs).drifts = s.drifts := by unfold State.keepWrite; exact foldl_keeps (·.drifts) _ _ (by intros; simp) s
@[simp] theorem State.keepWrite_aborts (fs : List Nat) (n : Nat) (bs : List Byte) : (s.keepWrite fs n bs).aborts = s.aborts := by unfold State.keepWrite; exact foldl_keeps (·.aborts) _ _ (by intros; simp) s
@[simp] theorem State.keepWrite_readies (fs : List Nat) (n : Nat) (bs : List Byte) : (s.keepWrite fs n bs).readies = s.readies := by unfold State.keepWrite; exact foldl_keeps (·.readies) _ _ (by intros; simp) s
@[simp] theorem State.keepWrite_released (fs : List Nat) (n : Nat) (bs : List Byte) : (s.keepWrite fs n bs).released = s.released := by unfold State.keepWrite; exact foldl_keeps (·.released) _ _ (by intros; simp) s
@[simp] theorem State.keepWrite_regions (fs : List Nat) (n : Nat) (bs : List Byte) : (s.keepWrite fs n bs).regions = s.regions := by unfold State.keepWrite; exact foldl_keeps (·.regions) _ _ (by intros; simp) s
@[simp] theorem State.keepWrite_net (fs : List Nat) (n : Nat) (bs : List Byte) : (s.keepWrite fs n bs).net = s.net := by unfold State.keepWrite; exact foldl_keeps (·.net) _ _ (by intros; simp) s
@[simp] theorem State.keepWrite_recover (fs : List Nat) (n : Nat) (bs : List Byte) : (s.keepWrite fs n bs).recover = s.recover := by unfold State.keepWrite; exact foldl_keeps (·.recover) _ _ (by intros; simp) s
@[simp] theorem State.keepWrite_drawn (fs : List Nat) (n : Nat) (bs : List Byte) : (s.keepWrite fs n bs).drawn = s.drawn := by unfold State.keepWrite; exact foldl_keeps (·.drawn) _ _ (by intros; simp) s

theorem foldl_pair {α β γ : Type} (p : State → γ) (l : List α) (f : β × State → α → β × State) (h : ∀ b a, p (f b a).2 = p b.2)
    (b : β × State) : p (l.foldl f b).2 = p b.2 := by
  induction l generalizing b with
  | nil => rfl
  | cons a l ih => rw [List.foldl_cons, ih, h]

theorem State.allocFrames_pending {s u : State} {t : Tier} {k : FrameUse} {n : Nat} {l : List Nat} (h : s.allocFrames t k n = some (l, u)) :
    u.pending = s.pending := by
  unfold State.allocFrames at h; split at h
  · cases h
  · injection h with h; rw [show u = (l, u).2 from rfl, ← h]
    exact foldl_pair (·.pending) _ _ (by intros; rfl) _
theorem State.allocFrames_pins {s u : State} {t : Tier} {k : FrameUse} {n : Nat} {l : List Nat} (h : s.allocFrames t k n = some (l, u)) :
    u.pins = s.pins := by
  unfold State.allocFrames at h; split at h
  · cases h
  · injection h with h; rw [show u = (l, u).2 from rfl, ← h]
    exact foldl_pair (·.pins) _ _ (by intros; rfl) _
theorem State.allocFrames_clk {s u : State} {t : Tier} {k : FrameUse} {n : Nat} {l : List Nat} (h : s.allocFrames t k n = some (l, u)) :
    u.clk = s.clk := by
  unfold State.allocFrames at h; split at h
  · cases h
  · injection h with h; rw [show u = (l, u).2 from rfl, ← h]
    exact foldl_pair (·.clk) _ _ (by intros; rfl) _
theorem State.allocFrames_pwr {s u : State} {t : Tier} {k : FrameUse} {n : Nat} {l : List Nat} (h : s.allocFrames t k n = some (l, u)) :
    u.pwr = s.pwr := by
  unfold State.allocFrames at h; split at h
  · cases h
  · injection h with h; rw [show u = (l, u).2 from rfl, ← h]
    exact foldl_pair (·.pwr) _ _ (by intros; rfl) _
theorem State.allocFrames_up {s u : State} {t : Tier} {k : FrameUse} {n : Nat} {l : List Nat} (h : s.allocFrames t k n = some (l, u)) :
    u.up = s.up := by
  unfold State.allocFrames at h; split at h
  · cases h
  · injection h with h; rw [show u = (l, u).2 from rfl, ← h]
    exact foldl_pair (·.up) _ _ (by intros; rfl) _
theorem State.allocFrames_node {s u : State} {t : Tier} {k : FrameUse} {n : Nat} {l : List Nat} (h : s.allocFrames t k n = some (l, u)) :
    u.node = s.node := by
  unfold State.allocFrames at h; split at h
  · cases h
  · injection h with h; rw [show u = (l, u).2 from rfl, ← h]
    exact foldl_pair (·.node) _ _ (by intros; rfl) _
theorem State.allocFrames_trust {s u : State} {t : Tier} {k : FrameUse} {n : Nat} {l : List Nat} (h : s.allocFrames t k n = some (l, u)) :
    u.trust = s.trust := by
  unfold State.allocFrames at h; split at h
  · cases h
  · injection h with h; rw [show u = (l, u).2 from rfl, ← h]
    exact foldl_pair (·.trust) _ _ (by intros; rfl) _
theorem State.allocFrames_blocks {s u : State} {t : Tier} {k : FrameUse} {n : Nat} {l : List Nat} (h : s.allocFrames t k n = some (l, u)) :
    u.blocks = s.blocks := by
  unfold State.allocFrames at h; split at h
  · cases h
  · injection h with h; rw [show u = (l, u).2 from rfl, ← h]
    exact foldl_pair (·.blocks) _ _ (by intros; rfl) _
theorem State.allocFrames_counters {s u : State} {t : Tier} {k : FrameUse} {n : Nat} {l : List Nat} (h : s.allocFrames t k n = some (l, u)) :
    u.counters = s.counters := by
  unfold State.allocFrames at h; split at h
  · cases h
  · injection h with h; rw [show u = (l, u).2 from rfl, ← h]
    exact foldl_pair (·.counters) _ _ (by intros; rfl) _
theorem State.allocFrames_events {s u : State} {t : Tier} {k : FrameUse} {n : Nat} {l : List Nat} (h : s.allocFrames t k n = some (l, u)) :
    u.events = s.events := by
  unfold State.allocFrames at h; split at h
  · cases h
  · injection h with h; rw [show u = (l, u).2 from rfl, ← h]
    exact foldl_pair (·.events) _ _ (by intros; rfl) _
theorem State.allocFrames_regs {s u : State} {t : Tier} {k : FrameUse} {n : Nat} {l : List Nat} (h : s.allocFrames t k n = some (l, u)) :
    u.regs = s.regs := by
  unfold State.allocFrames at h; split at h
  · cases h
  · injection h with h; rw [show u = (l, u).2 from rfl, ← h]
    exact foldl_pair (·.regs) _ _ (by intros; rfl) _
theorem State.allocFrames_convs {s u : State} {t : Tier} {k : FrameUse} {n : Nat} {l : List Nat} (h : s.allocFrames t k n = some (l, u)) :
    u.convs = s.convs := by
  unfold State.allocFrames at h; split at h
  · cases h
  · injection h with h; rw [show u = (l, u).2 from rfl, ← h]
    exact foldl_pair (·.convs) _ _ (by intros; rfl) _
theorem State.allocFrames_attn {s u : State} {t : Tier} {k : FrameUse} {n : Nat} {l : List Nat} (h : s.allocFrames t k n = some (l, u)) :
    u.attn = s.attn := by
  unfold State.allocFrames at h; split at h
  · cases h
  · injection h with h; rw [show u = (l, u).2 from rfl, ← h]
    exact foldl_pair (·.attn) _ _ (by intros; rfl) _
theorem State.allocFrames_drifts {s u : State} {t : Tier} {k : FrameUse} {n : Nat} {l : List Nat} (h : s.allocFrames t k n = some (l, u)) :
    u.drifts = s.drifts := by
  unfold State.allocFrames at h; split at h
  · cases h
  · injection h with h; rw [show u = (l, u).2 from rfl, ← h]
    exact foldl_pair (·.drifts) _ _ (by intros; rfl) _
theorem State.allocFrames_aborts {s u : State} {t : Tier} {k : FrameUse} {n : Nat} {l : List Nat} (h : s.allocFrames t k n = some (l, u)) :
    u.aborts = s.aborts := by
  unfold State.allocFrames at h; split at h
  · cases h
  · injection h with h; rw [show u = (l, u).2 from rfl, ← h]
    exact foldl_pair (·.aborts) _ _ (by intros; rfl) _
theorem State.allocFrames_readies {s u : State} {t : Tier} {k : FrameUse} {n : Nat} {l : List Nat} (h : s.allocFrames t k n = some (l, u)) :
    u.readies = s.readies := by
  unfold State.allocFrames at h; split at h
  · cases h
  · injection h with h; rw [show u = (l, u).2 from rfl, ← h]
    exact foldl_pair (·.readies) _ _ (by intros; rfl) _
theorem State.allocFrames_released {s u : State} {t : Tier} {k : FrameUse} {n : Nat} {l : List Nat} (h : s.allocFrames t k n = some (l, u)) :
    u.released = s.released := by
  unfold State.allocFrames at h; split at h
  · cases h
  · injection h with h; rw [show u = (l, u).2 from rfl, ← h]
    exact foldl_pair (·.released) _ _ (by intros; rfl) _
theorem State.allocFrames_regions {s u : State} {t : Tier} {k : FrameUse} {n : Nat} {l : List Nat} (h : s.allocFrames t k n = some (l, u)) :
    u.regions = s.regions := by
  unfold State.allocFrames at h; split at h
  · cases h
  · injection h with h; rw [show u = (l, u).2 from rfl, ← h]
    exact foldl_pair (·.regions) _ _ (by intros; rfl) _
theorem State.allocFrames_net {s u : State} {t : Tier} {k : FrameUse} {n : Nat} {l : List Nat} (h : s.allocFrames t k n = some (l, u)) :
    u.net = s.net := by
  unfold State.allocFrames at h; split at h
  · cases h
  · injection h with h; rw [show u = (l, u).2 from rfl, ← h]
    exact foldl_pair (·.net) _ _ (by intros; rfl) _
theorem State.allocFrames_recover {s u : State} {t : Tier} {k : FrameUse} {n : Nat} {l : List Nat} (h : s.allocFrames t k n = some (l, u)) :
    u.recover = s.recover := by
  unfold State.allocFrames at h; split at h
  · cases h
  · injection h with h; rw [show u = (l, u).2 from rfl, ← h]
    exact foldl_pair (·.recover) _ _ (by intros; rfl) _

@[simp] theorem State.keepIn_pending (r : Record) (bs : List Byte) (n : Nat) : (s.keepIn r bs n).pending = s.pending := by
  unfold State.keepIn; split
  · split
    · simp
    · rename_i h
      simp [State.allocFrames_pending h]
  · simp
@[simp] theorem State.keepIn_pins (r : Record) (bs : List Byte) (n : Nat) : (s.keepIn r bs n).pins = s.pins := by
  unfold State.keepIn; split
  · split
    · simp
    · rename_i h
      simp [State.allocFrames_pins h]
  · simp
@[simp] theorem State.keepIn_clk (r : Record) (bs : List Byte) (n : Nat) : (s.keepIn r bs n).clk = s.clk := by
  unfold State.keepIn; split
  · split
    · simp
    · rename_i h
      simp [State.allocFrames_clk h]
  · simp
@[simp] theorem State.keepIn_pwr (r : Record) (bs : List Byte) (n : Nat) : (s.keepIn r bs n).pwr = s.pwr := by
  unfold State.keepIn; split
  · split
    · simp
    · rename_i h
      simp [State.allocFrames_pwr h]
  · simp
@[simp] theorem State.keepIn_up (r : Record) (bs : List Byte) (n : Nat) : (s.keepIn r bs n).up = s.up := by
  unfold State.keepIn; split
  · split
    · simp
    · rename_i h
      simp [State.allocFrames_up h]
  · simp
@[simp] theorem State.keepIn_node (r : Record) (bs : List Byte) (n : Nat) : (s.keepIn r bs n).node = s.node := by
  unfold State.keepIn; split
  · split
    · simp
    · rename_i h
      simp [State.allocFrames_node h]
  · simp
@[simp] theorem State.keepIn_trust (r : Record) (bs : List Byte) (n : Nat) : (s.keepIn r bs n).trust = s.trust := by
  unfold State.keepIn; split
  · split
    · simp
    · rename_i h
      simp [State.allocFrames_trust h]
  · simp
@[simp] theorem State.keepIn_blocks (r : Record) (bs : List Byte) (n : Nat) : (s.keepIn r bs n).blocks = s.blocks := by
  unfold State.keepIn; split
  · split
    · simp
    · rename_i h
      simp [State.allocFrames_blocks h]
  · simp
@[simp] theorem State.keepIn_events (r : Record) (bs : List Byte) (n : Nat) : (s.keepIn r bs n).events = s.events := by
  unfold State.keepIn; split
  · split
    · simp
    · rename_i h
      simp [State.allocFrames_events h]
  · simp
@[simp] theorem State.keepIn_regs (r : Record) (bs : List Byte) (n : Nat) : (s.keepIn r bs n).regs = s.regs := by
  unfold State.keepIn; split
  · split
    · simp
    · rename_i h
      simp [State.allocFrames_regs h]
  · simp
@[simp] theorem State.keepIn_convs (r : Record) (bs : List Byte) (n : Nat) : (s.keepIn r bs n).convs = s.convs := by
  unfold State.keepIn; split
  · split
    · simp
    · rename_i h
      simp [State.allocFrames_convs h]
  · simp
@[simp] theorem State.keepIn_attn (r : Record) (bs : List Byte) (n : Nat) : (s.keepIn r bs n).attn = s.attn := by
  unfold State.keepIn; split
  · split
    · simp
    · rename_i h
      simp [State.allocFrames_attn h]
  · simp
@[simp] theorem State.keepIn_drifts (r : Record) (bs : List Byte) (n : Nat) : (s.keepIn r bs n).drifts = s.drifts := by
  unfold State.keepIn; split
  · split
    · simp
    · rename_i h
      simp [State.allocFrames_drifts h]
  · simp
@[simp] theorem State.keepIn_aborts (r : Record) (bs : List Byte) (n : Nat) : (s.keepIn r bs n).aborts = s.aborts := by
  unfold State.keepIn; split
  · split
    · simp
    · rename_i h
      simp [State.allocFrames_aborts h]
  · simp
@[simp] theorem State.keepIn_readies (r : Record) (bs : List Byte) (n : Nat) : (s.keepIn r bs n).readies = s.readies := by
  unfold State.keepIn; split
  · split
    · simp
    · rename_i h
      simp [State.allocFrames_readies h]
  · simp
@[simp] theorem State.keepIn_released (r : Record) (bs : List Byte) (n : Nat) : (s.keepIn r bs n).released = s.released := by
  unfold State.keepIn; split
  · split
    · simp
    · rename_i h
      simp [State.allocFrames_released h]
  · simp
@[simp] theorem State.keepIn_regions (r : Record) (bs : List Byte) (n : Nat) : (s.keepIn r bs n).regions = s.regions := by
  unfold State.keepIn; split
  · split
    · simp
    · rename_i h
      simp [State.allocFrames_regions h]
  · simp
@[simp] theorem State.keepIn_recover (r : Record) (bs : List Byte) (n : Nat) : (s.keepIn r bs n).recover = s.recover := by
  unfold State.keepIn; split
  · split
    · simp
    · rename_i h
      simp [State.allocFrames_recover h]
  · simp

@[simp] theorem State.keepResult_pending (r : Record) (bs : List Byte) : (s.keepResult r bs).pending = s.pending := by simp [State.keepResult]
@[simp] theorem State.keepResult_pins (r : Record) (bs : List Byte) : (s.keepResult r bs).pins = s.pins := by simp [State.keepResult]
@[simp] theorem State.keepResult_clk (r : Record) (bs : List Byte) : (s.keepResult r bs).clk = s.clk := by simp [State.keepResult]
@[simp] theorem State.keepResult_pwr (r : Record) (bs : List Byte) : (s.keepResult r bs).pwr = s.pwr := by simp [State.keepResult]
@[simp] theorem State.keepResult_up (r : Record) (bs : List Byte) : (s.keepResult r bs).up = s.up := by simp [State.keepResult]
@[simp] theorem State.keepResult_node (r : Record) (bs : List Byte) : (s.keepResult r bs).node = s.node := by simp [State.keepResult]
@[simp] theorem State.keepResult_trust (r : Record) (bs : List Byte) : (s.keepResult r bs).trust = s.trust := by simp [State.keepResult]
@[simp] theorem State.keepResult_blocks (r : Record) (bs : List Byte) : (s.keepResult r bs).blocks = s.blocks := by simp [State.keepResult]
@[simp] theorem State.keepResult_events (r : Record) (bs : List Byte) : (s.keepResult r bs).events = s.events := by simp [State.keepResult]
@[simp] theorem State.keepResult_regs (r : Record) (bs : List Byte) : (s.keepResult r bs).regs = s.regs := by simp [State.keepResult]
@[simp] theorem State.keepResult_convs (r : Record) (bs : List Byte) : (s.keepResult r bs).convs = s.convs := by simp [State.keepResult]
@[simp] theorem State.keepResult_attn (r : Record) (bs : List Byte) : (s.keepResult r bs).attn = s.attn := by simp [State.keepResult]
@[simp] theorem State.keepResult_drifts (r : Record) (bs : List Byte) : (s.keepResult r bs).drifts = s.drifts := by simp [State.keepResult]
@[simp] theorem State.keepResult_aborts (r : Record) (bs : List Byte) : (s.keepResult r bs).aborts = s.aborts := by simp [State.keepResult]
@[simp] theorem State.keepResult_readies (r : Record) (bs : List Byte) : (s.keepResult r bs).readies = s.readies := by simp [State.keepResult]
@[simp] theorem State.keepResult_released (r : Record) (bs : List Byte) : (s.keepResult r bs).released = s.released := by simp [State.keepResult]
@[simp] theorem State.keepResult_regions (r : Record) (bs : List Byte) : (s.keepResult r bs).regions = s.regions := by simp [State.keepResult]
@[simp] theorem State.keepResult_recover (r : Record) (bs : List Byte) : (s.keepResult r bs).recover = s.recover := by simp [State.keepResult]

@[simp] theorem State.endRecord_pending (c : CmdCtx) (a : Ans) (r : Reply) (x : Trailer) (d : Bool) : (s.endRecord c a r x d).pending = s.pending := by
  unfold State.endRecord; dsimp only; (repeat' split) <;> simp
@[simp] theorem State.endRecord_pins (c : CmdCtx) (a : Ans) (r : Reply) (x : Trailer) (d : Bool) : (s.endRecord c a r x d).pins = s.pins := by
  unfold State.endRecord; dsimp only; (repeat' split) <;> simp
@[simp] theorem State.endRecord_clk (c : CmdCtx) (a : Ans) (r : Reply) (x : Trailer) (d : Bool) : (s.endRecord c a r x d).clk = s.clk := by
  unfold State.endRecord; dsimp only; (repeat' split) <;> simp
@[simp] theorem State.endRecord_pwr (c : CmdCtx) (a : Ans) (r : Reply) (x : Trailer) (d : Bool) : (s.endRecord c a r x d).pwr = s.pwr := by
  unfold State.endRecord; dsimp only; (repeat' split) <;> simp
@[simp] theorem State.endRecord_up (c : CmdCtx) (a : Ans) (r : Reply) (x : Trailer) (d : Bool) : (s.endRecord c a r x d).up = s.up := by
  unfold State.endRecord; dsimp only; (repeat' split) <;> simp
@[simp] theorem State.endRecord_node (c : CmdCtx) (a : Ans) (r : Reply) (x : Trailer) (d : Bool) : (s.endRecord c a r x d).node = s.node := by
  unfold State.endRecord; dsimp only; (repeat' split) <;> simp
@[simp] theorem State.endRecord_trust (c : CmdCtx) (a : Ans) (r : Reply) (x : Trailer) (d : Bool) : (s.endRecord c a r x d).trust = s.trust := by
  unfold State.endRecord; dsimp only; (repeat' split) <;> simp
@[simp] theorem State.endRecord_blocks (c : CmdCtx) (a : Ans) (r : Reply) (x : Trailer) (d : Bool) : (s.endRecord c a r x d).blocks = s.blocks := by
  unfold State.endRecord; dsimp only; (repeat' split) <;> simp
@[simp] theorem State.endRecord_events (c : CmdCtx) (a : Ans) (r : Reply) (x : Trailer) (d : Bool) : (s.endRecord c a r x d).events = s.events := by
  unfold State.endRecord; dsimp only; (repeat' split) <;> simp
@[simp] theorem State.endRecord_regs (c : CmdCtx) (a : Ans) (r : Reply) (x : Trailer) (d : Bool) : (s.endRecord c a r x d).regs = s.regs := by
  unfold State.endRecord; dsimp only; (repeat' split) <;> simp
@[simp] theorem State.endRecord_convs (c : CmdCtx) (a : Ans) (r : Reply) (x : Trailer) (d : Bool) : (s.endRecord c a r x d).convs = s.convs := by
  unfold State.endRecord; dsimp only; (repeat' split) <;> simp
@[simp] theorem State.endRecord_attn (c : CmdCtx) (a : Ans) (r : Reply) (x : Trailer) (d : Bool) : (s.endRecord c a r x d).attn = s.attn := by
  unfold State.endRecord; dsimp only; (repeat' split) <;> simp
@[simp] theorem State.endRecord_drifts (c : CmdCtx) (a : Ans) (r : Reply) (x : Trailer) (d : Bool) : (s.endRecord c a r x d).drifts = s.drifts := by
  unfold State.endRecord; dsimp only; (repeat' split) <;> simp
@[simp] theorem State.endRecord_aborts (c : CmdCtx) (a : Ans) (r : Reply) (x : Trailer) (d : Bool) : (s.endRecord c a r x d).aborts = s.aborts := by
  unfold State.endRecord; dsimp only; (repeat' split) <;> simp
@[simp] theorem State.endRecord_readies (c : CmdCtx) (a : Ans) (r : Reply) (x : Trailer) (d : Bool) : (s.endRecord c a r x d).readies = s.readies := by
  unfold State.endRecord; dsimp only; (repeat' split) <;> simp
@[simp] theorem State.endRecord_released (c : CmdCtx) (a : Ans) (r : Reply) (x : Trailer) (d : Bool) : (s.endRecord c a r x d).released = s.released := by
  unfold State.endRecord; dsimp only; (repeat' split) <;> simp
@[simp] theorem State.endRecord_regions (c : CmdCtx) (a : Ans) (r : Reply) (x : Trailer) (d : Bool) : (s.endRecord c a r x d).regions = s.regions := by
  unfold State.endRecord; dsimp only; (repeat' split) <;> simp
@[simp] theorem State.endRecord_recover (c : CmdCtx) (a : Ans) (r : Reply) (x : Trailer) (d : Bool) : (s.endRecord c a r x d).recover = s.recover := by
  unfold State.endRecord; dsimp only; (repeat' split) <;> simp

@[simp] theorem State.finish_pending (c : CmdCtx) (a : Ans) : (s.finish c a).pending = s.pending := by
  unfold State.finish; dsimp only; split <;> simp
@[simp] theorem State.finish_pins (c : CmdCtx) (a : Ans) : (s.finish c a).pins = s.pins := by
  unfold State.finish; dsimp only; split <;> simp
@[simp] theorem State.finish_clk (c : CmdCtx) (a : Ans) : (s.finish c a).clk = s.clk := by
  unfold State.finish; dsimp only; split <;> simp
@[simp] theorem State.finish_pwr (c : CmdCtx) (a : Ans) : (s.finish c a).pwr = s.pwr := by
  unfold State.finish; dsimp only; split <;> simp
@[simp] theorem State.finish_up (c : CmdCtx) (a : Ans) : (s.finish c a).up = s.up := by
  unfold State.finish; dsimp only; split <;> simp
@[simp] theorem State.finish_node (c : CmdCtx) (a : Ans) : (s.finish c a).node = s.node := by
  unfold State.finish; dsimp only; split <;> simp
@[simp] theorem State.finish_trust (c : CmdCtx) (a : Ans) : (s.finish c a).trust = s.trust := by
  unfold State.finish; dsimp only; split <;> simp
@[simp] theorem State.finish_blocks (c : CmdCtx) (a : Ans) : (s.finish c a).blocks = s.blocks := by
  unfold State.finish; dsimp only; split <;> simp
@[simp] theorem State.finish_events (c : CmdCtx) (a : Ans) : (s.finish c a).events = s.events := by
  unfold State.finish; dsimp only; split <;> simp
@[simp] theorem State.finish_regs (c : CmdCtx) (a : Ans) : (s.finish c a).regs = s.regs := by
  unfold State.finish; dsimp only; split <;> simp
@[simp] theorem State.finish_convs (c : CmdCtx) (a : Ans) : (s.finish c a).convs = s.convs := by
  unfold State.finish; dsimp only; split <;> simp
@[simp] theorem State.finish_attn (c : CmdCtx) (a : Ans) : (s.finish c a).attn = s.attn := by
  unfold State.finish; dsimp only; split <;> simp
@[simp] theorem State.finish_drifts (c : CmdCtx) (a : Ans) : (s.finish c a).drifts = s.drifts := by
  unfold State.finish; dsimp only; split <;> simp
@[simp] theorem State.finish_aborts (c : CmdCtx) (a : Ans) : (s.finish c a).aborts = s.aborts := by
  unfold State.finish; dsimp only; split <;> simp
@[simp] theorem State.finish_readies (c : CmdCtx) (a : Ans) : (s.finish c a).readies = s.readies := by
  unfold State.finish; dsimp only; split <;> simp
@[simp] theorem State.finish_released (c : CmdCtx) (a : Ans) : (s.finish c a).released = s.released := by
  unfold State.finish; dsimp only; split <;> simp
@[simp] theorem State.finish_regions (c : CmdCtx) (a : Ans) : (s.finish c a).regions = s.regions := by
  unfold State.finish; dsimp only; split <;> simp
@[simp] theorem State.finish_recover (c : CmdCtx) (a : Ans) : (s.finish c a).recover = s.recover := by
  unfold State.finish; dsimp only; split <;> simp

end Sys2Proof.Machine
end

