-- ==== Sys2Proof/Laws/Frame.lean ====
section
/-! SUPPORT. Frames: how they compose, and the frames of the operations that end a command. -/
set_option Elab.async false

namespace Sys2Proof.Machine

/-- A state is the same as itself. -/
theorem SameBut.refl (ps : List Part) (s : State) : SameBut ps s s := fun p _ => by cases p <;> simp [Part.Same]

/-- Frames compose. -/
theorem SameBut.trans {ps : List Part} {s t u : State} (h : SameBut ps s t) (k : SameBut ps t u) : SameBut ps s u := by
  intro p hp
  have a := h p hp
  have b := k p hp
  cases p <;> simp_all [Part.Same]

/-- A frame holds of more parts. -/
theorem SameBut.mono {ps qs : List Part} {s t : State} (h : SameBut ps s t) (k : ∀ p ∈ ps, p ∈ qs) : SameBut qs s t :=
  fun p hp => h p fun m => hp (k p m)

/-- A frame, part by part. -/
theorem SameBut.of {ps : List Part} {s t : State} (h : ∀ p, p ∈ ps ∨ p.Same s t) : SameBut ps s t :=
  fun p hp => (h p).resolve_left hp

/-- An accepted command goes on to its opcode's own checks. -/
theorem State.Accepts.onArrive {s t : State} {code : Nat} {c d : Cmd} {ctx : CmdCtx} (h : s.Accepts code c d ctx t)
    (f : Cmd → CmdCtx → State → State) : s.onArrive code c f = f d ctx t := by
  unfold State.onArrive
  rw [h]

/-- A command without a payload goes on. -/
@[simp] theorem State.noPayload_nil {s : State} {c : Cmd} {ctx : CmdCtx} {f : State → State} (h : c.payload = []) :
    s.noPayload c ctx f = f s := by
  simp [State.noPayload, h]

/-- A record that keeps no result leaves the frames. -/
theorem State.endRecord_tiers {s : State} {ctx : CmdCtx} {a : Ans} {r : Reply} {x : Trailer} {d : Bool} (h : a.keep = false) :
    (s.endRecord ctx a r x d).tiers = s.tiers := by
  unfold State.endRecord; dsimp only; (repeat' split) <;> simp_all

theorem State.endRecord_drawn {s : State} {ctx : CmdCtx} {a : Ans} {r : Reply} {x : Trailer} {d : Bool} (h : a.keep = false) :
    (s.endRecord ctx a r x d).drawn = s.drawn := by
  unfold State.endRecord; dsimp only; (repeat' split) <;> simp_all

/-- The end of a command whose result is not kept leaves the frames. -/
theorem State.finish_tiers {s : State} {ctx : CmdCtx} {a : Ans} (h : a.keep = false) : (s.finish ctx a).tiers = s.tiers := by
  unfold State.finish; dsimp only; split <;> simp [State.endRecord_tiers h]

theorem State.finish_drawn {s : State} {ctx : CmdCtx} {a : Ans} (h : a.keep = false) : (s.finish ctx a).drawn = s.drawn := by
  unfold State.finish; dsimp only; split <;> simp [State.endRecord_drawn h]

@[simp] theorem Ans.ok_keep (p q : Nat) : (Ans.ok p q).keep = false := rfl
@[simp] theorem Ans.ok_status (p q : Nat) : (Ans.ok p q).status = Status.ok := rfl

/-- The end of a command changes only the transport, the records and the counters, where its result is not kept. -/
theorem State.finish_frame {s : State} {ctx : CmdCtx} {a : Ans} (h : a.keep = false) :
    SameBut [.net, .counters] s (s.finish ctx a) := by
  refine SameBut.of fun p => ?_
  cases p <;> simp [Part.Same, State.finish_tiers h, State.finish_drawn h]

end Sys2Proof.Machine
end

