-- ==== Sys2Proof/Laws/Gate.lean ====
section
/-! SUPPORT. What a conversation's gate does where nothing goes ahead: a command passes at once, and the front of a row passes as it
stands (R62, R64). -/
set_option Elab.async false

namespace Sys2Proof.Machine

/-- Where no commit is due, commits change nothing. -/
theorem State.applyCommits_of_none {s : State} {cid : Nat} (h : s.commitDue cid = false) (n : Nat) : s.applyCommits cid n = s := by
  cases n <;> simp [State.applyCommits, h]

/-- Where no held append may pass, none does. -/
theorem State.passHelds_of_none {s : State} {cid : Nat} (h : s.heldNext cid = none) (n : Nat) : s.passHelds cid n = s := by
  cases n <;> simp [State.passHelds, h]

/-- Where no commit, expiry or held append is due, nothing passes first (R62, R64). -/
theorem State.gateFirst_of_none {s : State} {cid : Nat} (commit : s.commitDue cid = false) (lease : s.leaseDue cid = false)
    (held : s.heldNext cid = none) : s.gateFirst cid = s := by
  unfold State.gateFirst State.expireLease
  rw [State.applyCommits_of_none commit]
  have free := State.passHelds_of_none held (((s.conv cid).map (·.held.length)).getD 0)
  simp [lease, free]

/-- A clear gate lets nothing pass first. -/
theorem State.gateFirst_of_clear {s : State} {cid key : Nat} (h : s.gateClear cid key = true) : s.gateFirst cid = s := by
  simp only [State.gateClear, Bool.and_eq_true, Bool.not_eq_true', Option.isNone_iff_eq_none] at h
  exact State.gateFirst_of_none h.1.1.1 h.1.1.2 h.1.2

/-- The entry of a conversation at whose gate nothing waits, as its home finds it (R47). -/
theorem State.AtGate.homed {s : State} {cid : Nat} {x : Conv} {legal : ConvState → Bool} {src : Src} (h : s.AtGate cid x legal src) :
    s.homed cid = .ok x := by
  simp [State.homed, h.entry, h.home]

/-- A command at a gate where nothing waits or goes ahead passes at once (R62, R63); a fork passes its child's gate too. -/
theorem State.AtGate.throughGate {s : State} {cid : Nat} {x : Conv} {legal : ConvState → Bool} {ctx : CmdCtx}
    (h : s.AtGate cid x legal ctx.src) (c : Cmd) (other : ∀ k ∈ gatesOf c cid, k ≠ cid → s.ahead k (srcKey ctx.src + 1) = false)
    (pass : State → State) : s.throughGate cid c ctx pass = pass s := by
  have k := h.clear
  simp only [State.gateClear, Bool.and_eq_true, Bool.not_eq_true', Option.isNone_iff_eq_none] at k
  have free : ((gatesOf c cid).any fun g => s.ahead g (srcKey ctx.src + 1)) = false := by
    refine List.any_eq_false.mpr fun g hg => ?_
    by_cases e : g = cid
    · simp [e, k.2]
    · simp [other g hg e]
  simp [State.throughGate, State.gateFirst_of_clear h.clear, h.homed, h.row, k.1.2, free]

/-- The command that an opcode's checks take has that opcode (R369). -/
theorem State.Accepts.opcode {s t : State} {code : Nat} {c d : Cmd} {ctx : CmdCtx} (h : s.Accepts code c d ctx t) :
    d.hdr.opcode.toNat = code := by
  have spec : ∀ {v : State}, v.checkHeader code d = none → d.hdr.opcode.toNat = code := by
    intro v k
    cases e : opSpec d.hdr.opcode.toNat with
    | none =>
      simp only [State.checkHeader, e] at k
      repeat' split at k
      all_goals cases k
    | some o =>
      have f := List.find?_some e
      simp only [State.checkHeader, e] at k
      (repeat' split at k) <;> simp_all
  unfold State.Accepts State.arrive at h
  simp only at h
  repeat' split at h
  all_goals simp_all only [Prod.mk.injEq, Option.some.injEq, reduceCtorEq, false_and]
  all_goals first | (obtain ⟨⟨rfl, -⟩, -⟩ := h; exact spec ‹_›) | trivial

/-- A command other than a fork passes one gate. -/
theorem gatesOf_of_ne {c : Cmd} {cid : Nat} (h : c.hdr.opcode ≠ 0x0205) : gatesOf c cid = [cid] := if_neg h

/-- The front of a row that passes now finds the gate as it stands. -/
theorem State.FrontPasses.gateFirst {s : State} {cid : Nat} {it : RowItem} (h : s.FrontPasses cid it) : s.gateFirst cid = s :=
  State.gateFirst_of_none h.commit h.lease h.held

end Sys2Proof.Machine
end

