-- ==== Sys2Proof/Laws/Memory.lean ====
section
/-! SUPPORT. Laws of the sparse tables and of the memory: what a write leaves, what a read gives after it, and that the
canonical form is kept. -/
set_option Elab.async false

namespace Sys2Proof.Machine

/-! ## Tables -/

/-- A table read at the key just set gives the value set. -/
@[simp] theorem Table.get_set_self {α : Type} (t : Table α) (k : Nat) (v : α) : Table.get (Table.set t k v) k = some v := by
  induction t with
  | nil => simp [Table.set, Table.get]
  | cons x rest ih =>
    obtain ⟨k', v'⟩ := x
    simp only [Table.set]
    split
    · simp [Table.get]
    · split
      · simp [Table.get]
      · simp [Table.get, *]

/-- A table read at another key is not changed by a set. -/
theorem Table.get_set_ne {α : Type} (t : Table α) (k k' : Nat) (v : α) (h : k' ≠ k) :
    Table.get (Table.set t k v) k' = Table.get t k' := by
  induction t with
  | nil => simp [Table.set, Table.get, h]
  | cons x rest ih =>
    obtain ⟨k₁, v₁⟩ := x
    simp only [Table.set]
    split
    · next e => subst e; simp [Table.get, h]
    · split
      · simp [Table.get, h]
      · simp only [Table.get, ih]

/-- A modified entry. -/
theorem Table.get_modify_self {α : Type} (t : Table α) (k : Nat) (f : α → α) :
    Table.get (Table.modify t k f) k = (Table.get t k).map f := by
  unfold Table.modify
  split
  · simp [*]
  · simp [*]

/-- The entries beside a modified one. -/
theorem Table.get_modify_ne {α : Type} (t : Table α) (k k' : Nat) (f : α → α) (h : k' ≠ k) :
    Table.get (Table.modify t k f) k' = Table.get t k' := by
  unfold Table.modify
  split
  · rfl
  · exact Table.get_set_ne t k k' _ h

/-- An erased key has no entry. -/
@[simp] theorem Table.get_erase_self {α : Type} (t : Table α) (k : Nat) : Table.get (Table.erase t k) k = none := by
  induction t with
  | nil => rfl
  | cons x rest ih =>
    obtain ⟨k', v'⟩ := x
    simp only [Table.erase]
    split
    · exact ih
    · simp [Table.get, *]

/-- The entries beside an erased one. -/
theorem Table.get_erase_ne {α : Type} (t : Table α) (k k' : Nat) (h : k' ≠ k) :
    Table.get (Table.erase t k) k' = Table.get t k' := by
  induction t with
  | nil => rfl
  | cons x rest ih =>
    obtain ⟨k₁, v₁⟩ := x
    simp only [Table.erase]
    split
    · next e => subst e; simp [Table.get, ih, h]
    · simp [Table.get, ih]

/-! ## The canonical form -/

/-- The canonical form as an order and a condition on each cell. -/
theorem Memory.wf_iff (m : List Host.Cell) :
    Memory.wf m = true ↔ m.Pairwise (fun a b => a.1 < b.1) ∧ ∀ c ∈ m, c.2 ≠ Memory.background := by
  induction m with
  | nil => simp [Memory.wf]
  | cons c rest ih =>
    cases rest with
    | nil => simp [Memory.wf]
    | cons d rest =>
      simp only [Memory.wf, Bool.and_eq_true, bne_iff_ne, ne_eq, decide_eq_true_eq, ih, List.pairwise_cons, List.mem_cons,
        forall_eq_or_imp]
      constructor
      · rintro ⟨⟨h1, h2⟩, ⟨h3, h4⟩, h5, h6⟩
        exact ⟨⟨⟨h2, fun x hx => Nat.lt_trans h2 (h3 x hx)⟩, h3, h4⟩, h1, h5, h6⟩
      · rintro ⟨⟨⟨h2, _⟩, h3, h4⟩, h1, h5, h6⟩
        exact ⟨⟨h1, h2⟩, ⟨h3, h4⟩, h5, h6⟩

/-- The cells of a byte string lie at its addresses. -/
theorem Memory.mem_cells {a : Nat} {bs : List Byte} {c : Host.Cell} (h : c ∈ Memory.cells a bs) :
    a ≤ c.1 ∧ c.1 < a + bs.length ∧ c.2 ≠ Memory.background := by
  induction bs generalizing a with
  | nil => simp [Memory.cells] at h
  | cons b rest ih =>
    simp only [Memory.cells] at h
    split at h
    · have := ih h
      simp only [List.length_cons]
      exact ⟨by omega, by omega, this.2.2⟩
    · next hb =>
      simp only [List.mem_cons] at h
      rcases h with rfl | h
      · exact ⟨Nat.le_refl _, by simp, hb⟩
      · have := ih h
        simp only [List.length_cons]
        exact ⟨by omega, by omega, this.2.2⟩

/-- The cells of a byte string are in order. -/
theorem Memory.cells_pairwise (a : Nat) (bs : List Byte) : (Memory.cells a bs).Pairwise (fun x y => x.1 < y.1) := by
  induction bs generalizing a with
  | nil => simp [Memory.cells]
  | cons b rest ih =>
    simp only [Memory.cells]
    split
    · exact ih _
    · refine List.pairwise_cons.2 ⟨fun c hc => ?_, ih _⟩
      have := (Memory.mem_cells hc).1
      simp only at *
      omega

/-- A write keeps the canonical form. -/
theorem Memory.write_wf {m : List Host.Cell} (h : Memory.wf m = true) (a : Nat) (bs : List Byte) :
    Memory.wf (Memory.write m a bs) = true := by
  rw [Memory.wf_iff] at h ⊢
  obtain ⟨ho, hb⟩ := h
  constructor
  · unfold Memory.write
    refine List.pairwise_append.2 ⟨List.pairwise_append.2 ⟨ho.filter _, Memory.cells_pairwise a bs, ?_⟩, ho.filter _, ?_⟩
    · intro x hx y hy
      have h1 := (List.mem_filter.1 hx).2
      have h2 := (Memory.mem_cells hy).1
      simp only [decide_eq_true_eq] at h1
      omega
    · intro x hx y hy
      have h2 := (List.mem_filter.1 hy).2
      simp only [decide_eq_true_eq] at h2
      rcases List.mem_append.1 hx with hx | hx
      · have h1 := (List.mem_filter.1 hx).2
        simp only [decide_eq_true_eq] at h1
        omega
      · have h1 := (Memory.mem_cells hx).2.1
        omega
  · intro c hc
    unfold Memory.write at hc
    rcases List.mem_append.1 hc with hc | hc
    · rcases List.mem_append.1 hc with hc | hc
      · exact hb c (List.mem_filter.1 hc).1
      · exact (Memory.mem_cells hc).2.2
    · exact hb c (List.mem_filter.1 hc).1

/-! ## One byte after a write -/

/-- The entry of a key in two tables joined: the first's, else the second's. -/
theorem Table.get_append {α : Type} (t u : Table α) (k : Nat) : Table.get (t ++ u) k = (Table.get t k).or (Table.get u k) := by
  induction t with
  | nil => simp [Table.get]
  | cons x rest ih =>
    obtain ⟨k', v'⟩ := x
    simp only [List.cons_append, Table.get]
    split
    · simp
    · exact ih

/-- A table kept in part by its keys. -/
theorem Table.get_filter_key {α : Type} (t : Table α) (p : Nat → Bool) (k : Nat) :
    Table.get (t.filter fun c => p c.1) k = if p k then Table.get t k else none := by
  induction t with
  | nil => simp [Table.get]
  | cons x rest ih =>
    obtain ⟨k', v'⟩ := x
    simp only [List.filter_cons]
    by_cases hk : k = k'
    · subst hk
      by_cases hp : p k = true <;> simp [Table.get, hp, ih]
    · by_cases hp : p k' = true <;> simp [Table.get, hp, ih, hk]

/-- An entry that a table answers is one of its entries. -/
theorem Table.mem_of_get {α : Type} {t : Table α} {k : Nat} {v : α} (h : Table.get t k = some v) : (k, v) ∈ t := by
  induction t with
  | nil => simp [Table.get] at h
  | cons x rest ih =>
    obtain ⟨k', v'⟩ := x
    simp only [Table.get] at h
    split at h
    · next e => subst e; simp_all
    · exact List.mem_cons_of_mem _ (ih h)

/-- A byte string has no cell outside its addresses. -/
theorem Memory.get_cells_outside {a x : Nat} {bs : List Byte} (h : x < a ∨ a + bs.length ≤ x) :
    Table.get (Memory.cells a bs) x = none := by
  cases hg : Table.get (Memory.cells a bs) x with
  | none => rfl
  | some v =>
    have := Memory.mem_cells (Table.mem_of_get hg)
    simp only at this
    omega

/-- The cell of a byte string at an address: none outside it and where the byte is background. -/
theorem Memory.get_cells (a : Nat) (bs : List Byte) (x : Nat) :
    (Table.get (Memory.cells a bs) x).getD Memory.background =
      if a ≤ x ∧ x < a + bs.length then bs.getD (x - a) Memory.background else Memory.background := by
  induction bs generalizing a with
  | nil => simp [Memory.cells, Table.get]
  | cons b rest ih =>
    by_cases hx : x = a
    · subst hx
      simp only [Memory.cells]
      split
      · next e => rw [Memory.get_cells_outside (Or.inl (Nat.lt_succ_self x))]; simp [e]
      · simp [Table.get]
    · have key : (Table.get (Memory.cells a (b :: rest)) x).getD Memory.background =
          (Table.get (Memory.cells (a + 1) rest) x).getD Memory.background := by
        simp only [Memory.cells]
        split <;> simp [Table.get, hx]
      rw [key, ih, List.length_cons]
      by_cases hr : a + 1 ≤ x ∧ x < a + 1 + rest.length
      · rw [if_pos hr, if_pos (by omega)]
        have : x - a = (x - (a + 1)) + 1 := by omega
        rw [this]
        simp
      · rw [if_neg hr, if_neg (by omega)]

/-- A byte after a write: the byte written inside the range, the byte before outside it. -/
theorem Memory.byte_write (m : List Host.Cell) (a : Nat) (bs : List Byte) (x : Nat) :
    Memory.byte (Memory.write m a bs) x =
      if a ≤ x ∧ x < a + bs.length then bs.getD (x - a) Memory.background else Memory.byte m x := by
  unfold Memory.byte Memory.write
  rw [Table.get_append, Table.get_append, Table.get_filter_key m (fun k => decide (k < a)),
    Table.get_filter_key m (fun k => decide (a + bs.length ≤ k))]
  have hc := Memory.get_cells a bs x
  by_cases hr : a ≤ x ∧ x < a + bs.length
  · rw [if_pos hr] at hc ⊢
    simpa [show ¬ x < a by omega, show ¬ a + bs.length ≤ x by omega] using hc
  · rw [if_neg hr, Memory.get_cells_outside (by omega)]
    by_cases h1 : x < a
    · simp only [h1, decide_true, if_true, Option.or_none, show ¬ a + bs.length ≤ x by omega, decide_false,
        Bool.false_eq_true, if_false]
    · simp [h1, show a + bs.length ≤ x by omega]

end Sys2Proof.Machine
end

