-- ==== Sys2Proof/Laws/SoundBase.lean ====
section
/-! SUPPORT. That the parts of the state may change without harm to what every step keeps (`Sound`): the lemmas from which
those about each shared operation are put together. -/
set_option Elab.async false

namespace Sys2Proof.Machine

/-! ## Results that carry a state -/

/-- Every state of an optional result is sound. -/
def OptSound {α : Type} (q : List Instr) (o : Option (α × State)) : Prop := ∀ x t, o = some (x, t) → Sound q t
/-- An optional state is sound. -/
def SomeSound (q : List Instr) (o : Option State) : Prop := ∀ t, o = some t → Sound q t
/-- The state of a result that is no refusal is sound. -/
def ExSound (q : List Instr) (o : Except Ans State) : Prop := ∀ t, o = .ok t → Sound q t
/-- An outcome that is a next state is a sound one. -/
def OutSound (q : List Instr) (o : Host.Outcome State Fault Refusal) : Prop := ∀ t, o = .next t → Sound q t

variable {q : List Instr} {s : State}

theorem Sound.of_snd {α : Type} {p : α × State} {x : α} {t : State} (h : Sound q p.2) (e : p = (x, t)) : Sound q t := by
  subst e; exact h
theorem Sound.of_snd2 {α β : Type} {p : α × β × State} {x : α} {y : β} {t : State} (h : Sound q p.2.2) (e : p = (x, y, t)) :
    Sound q t := by
  subst e; exact h
theorem Sound.of_some {α : Type} {o : Option (α × State)} {x : α} {t : State} (h : OptSound q o) (e : o = some (x, t)) :
    Sound q t := h x t e
theorem Sound.of_opt {o : Option State} {t : State} (h : SomeSound q o) (e : o = some t) : Sound q t := h t e
theorem Sound.of_ok {o : Except Ans State} {t : State} (h : ExSound q o) (e : o = .ok t) : Sound q t := h t e
theorem Sound.of_next {o : Host.Outcome State Fault Refusal} {t : State} (h : OutSound q o) (e : o = .next t) : Sound q t := h t e

theorem OptSound.none {α : Type} : OptSound q (Option.none : Option (α × State)) := by intro x t e; cases e
theorem OptSound.some {α : Type} {x : α} (h : Sound q s) : OptSound q (Option.some (x, s)) := by
  intro y t e; cases e; exact h
theorem OptSound.ofPair {α : Type} {p : α × State} (h : Sound q p.2) : OptSound q (Option.some p) := by
  intro y t e; cases e; exact h
theorem SomeSound.none : SomeSound q Option.none := by intro t e; cases e
theorem SomeSound.some (h : Sound q s) : SomeSound q (Option.some s) := by intro t e; cases e; exact h
theorem ExSound.error {a : Ans} : ExSound q (.error a) := by intro t e; cases e
theorem ExSound.ok (h : Sound q s) : ExSound q (.ok s) := by intro t e; cases e; exact h
theorem OutSound.next (h : Sound q s) : OutSound q (.next s) := by intro t e; cases e; exact h
theorem OutSound.fault {f : Fault} : OutSound q (.fault f) := by intro t e; cases e
theorem OutSound.refused {f : Refusal} : OutSound q (.refused f) := by intro t e; cases e

/-- The state of an option, or another. -/
theorem Sound.getD {o : Option State} (h : Sound q s) (ho : SomeSound q o) : Sound q (o.getD s) := by
  cases o with
  | none => exact h
  | some t => exact ho t rfl

/-! ## Folds -/

/-- A fold of steps that each keep it keeps it. -/
theorem Sound.foldl {α : Type} {f : State → α → State} (hf : ∀ t x, Sound q t → Sound q (f t x)) (l : List α)
    (h : Sound q s) : Sound q (l.foldl f s) := by
  induction l generalizing s with
  | nil => exact h
  | cons x rest ih => exact ih (hf _ _ h)

/-- The same for a fold that carries a result beside the state. -/
theorem Sound.foldlSnd {α β : Type} {f : β × State → α → β × State} (hf : ∀ p x, Sound q p.2 → Sound q (f p x).2)
    (l : List α) {p : β × State} (h : Sound q p.2) : Sound q (l.foldl f p).2 := by
  induction l generalizing p with
  | nil => exact h
  | cons x rest ih => exact ih (hf _ _ h)

/-- The same for a fold that carries two results beside the state. -/
theorem Sound.foldlSnd2 {α β γ : Type} {f : β × γ × State → α → β × γ × State}
    (hf : ∀ p x, Sound q p.2.2 → Sound q (f p x).2.2) (l : List α) {p : β × γ × State} (h : Sound q p.2.2) :
    Sound q (l.foldl f p).2.2 := by
  induction l generalizing p with
  | nil => exact h
  | cons x rest ih => exact ih (hf _ _ h)

/-! ## Parts of the state -/

@[simp] theorem modifyAt_length {α : Type} (l : List α) (n : Nat) (f : α → α) : (modifyAt l n f).length = l.length := by
  induction l generalizing n with
  | nil => rfl
  | cons x rest ih => cases n <;> simp [modifyAt, ih]

theorem Sound.ofParts {t : State} (h : Sound q s) (h1 : t.pending = s.pending) (h2 : t.tiers.mem = s.tiers.mem)
    (h3 : t.pins.alertLow = s.pins.alertLow) (h4 : t.regs.alertEn = s.regs.alertEn) (h5 : t.events = s.events)
    (h6 : t.up.selfTestFailed = s.up.selfTestFailed) (h7 : t.up.missedBound = s.up.missedBound)
    (h8 : t.pwr.tripped = s.pwr.tripped) (h9 : t.counters = s.counters) (h10 : t.sizes = s.sizes) : Sound q t where
  queue := by rw [h1]; exact h.queue
  memory := by rw [h2]; exact h.memory
  alert := by have := h.alert; unfold State.alertOk at *; rw [h3, h4, h5, h6, h7, h8]; exact this
  events := by rw [h5]; exact h.events
  counters := by rw [h9]; exact h.counters
  sizes := by rw [h10]; exact h.sizes

theorem modNet_sound (h : Sound q s) {f : Net → Net} (hf : (f s.net).ports.length = s.net.ports.length) : Sound q (s.modNet f) :=
  h.ofParts rfl rfl rfl rfl rfl rfl rfl rfl rfl (by simp [State.sizes, State.modNet, hf])
theorem modAttn_sound (h : Sound q s) {f : Attn → Attn} (hf : (f s.attn).tiles.length = s.attn.tiles.length)
    (hg : (f s.attn).logicals.length = s.attn.logicals.length) : Sound q (s.modAttn f) :=
  h.ofParts rfl rfl rfl rfl rfl rfl rfl rfl rfl (by simp [State.sizes, State.modAttn, hf, hg])
theorem modRegions_sound (h : Sound q s) {f : Regions → Regions} : Sound q (s.modRegions f) :=
  h.ofParts rfl rfl rfl rfl rfl rfl rfl rfl rfl rfl
theorem modRecover_sound (h : Sound q s) {f : Recover → Recover} : Sound q (s.modRecover f) :=
  h.ofParts rfl rfl rfl rfl rfl rfl rfl rfl rfl rfl
theorem modNode_sound (h : Sound q s) {f : Node → Node} : Sound q (s.modNode f) := h.ofParts rfl rfl rfl rfl rfl rfl rfl rfl rfl rfl
theorem modTrust_sound (h : Sound q s) {f : Trust → Trust} : Sound q (s.modTrust f) :=
  h.ofParts rfl rfl rfl rfl rfl rfl rfl rfl rfl rfl
theorem modClk_sound (h : Sound q s) {f : Clocks → Clocks} : Sound q (s.modClk f) := h.ofParts rfl rfl rfl rfl rfl rfl rfl rfl rfl rfl
theorem modConv_sound (h : Sound q s) {cid : Nat} {f : Conv → Conv} : Sound q (s.modConv cid f) :=
  h.ofParts rfl rfl rfl rfl rfl rfl rfl rfl rfl rfl
theorem modQp_sound (h : Sound q s) {i : Nat} {f : Qp → Qp} : Sound q (s.modQp i f) := modNet_sound h rfl
theorem modPartner_sound (h : Sound q s) {j : Nat} {f : Partner → Partner} : Sound q (s.modPartner j f) := modRecover_sound h
theorem modPort_sound (h : Sound q s) {p : Nat} {f : Port → Port} : Sound q (s.modPort p f) :=
  modNet_sound h (modifyAt_length _ _ _)
theorem modBlock_sound (h : Sound q s) {b : Nat} {f : Block → Block} : Sound q (s.modBlock b f) :=
  h.ofParts rfl rfl rfl rfl rfl rfl rfl rfl rfl (by simp [State.sizes, State.modBlock])
theorem modTiers_sound (h : Sound q s) {f : Tiers → Tiers} (hf : (f s.tiers).mem = s.tiers.mem) : Sound q (s.modTiers f) :=
  h.ofParts rfl hf rfl rfl rfl rfl rfl rfl rfl rfl
theorem modPage_sound (h : Sound q s) {pid : Nat} {f : Page → Page} : Sound q (s.modPage pid f) := modTiers_sound h rfl
theorem modRegs_sound (h : Sound q s) {f : Regs → Regs} (hf : (f s.regs).alertEn = s.regs.alertEn)
    (hg : (f s.regs).inj.length = s.regs.inj.length) : Sound q (s.modRegs f) :=
  h.ofParts rfl rfl rfl hf rfl rfl rfl rfl rfl (by simp [State.sizes, State.modRegs, hg])
theorem modUp_sound (h : Sound q s) {f : Startup → Startup} (hf : (f s.up).selfTestFailed = s.up.selfTestFailed)
    (hg : (f s.up).missedBound = s.up.missedBound) : Sound q (s.modUp f) :=
  h.ofParts rfl rfl rfl rfl rfl hf hg rfl rfl rfl
theorem modPwr_sound (h : Sound q s) {f : Power → Power} (hf : (f s.pwr).tripped = s.pwr.tripped) : Sound q (s.modPwr f) :=
  h.ofParts rfl rfl rfl rfl rfl rfl rfl hf rfl rfl
theorem setConvs_sound (h : Sound q s) {x : Table Conv} : Sound q { s with convs := x } :=
  h.ofParts rfl rfl rfl rfl rfl rfl rfl rfl rfl rfl
theorem setDrifts_sound (h : Sound q s) {x : List Drift} (hx : x.length = s.drifts.length) : Sound q { s with drifts := x } :=
  h.ofParts rfl rfl rfl rfl rfl rfl rfl rfl rfl (by simp [State.sizes, hx])
theorem setAborts_sound (h : Sound q s) {x : List AbortMemo} : Sound q { s with aborts := x } :=
  h.ofParts rfl rfl rfl rfl rfl rfl rfl rfl rfl rfl
theorem setReadies_sound (h : Sound q s) {x : List (Nat × List Byte)} : Sound q { s with readies := x } :=
  h.ofParts rfl rfl rfl rfl rfl rfl rfl rfl rfl rfl
theorem setReleased_sound (h : Sound q s) {x : List (Nat × Nat)} : Sound q { s with released := x } :=
  h.ofParts rfl rfl rfl rfl rfl rfl rfl rfl rfl rfl
theorem setDrawn_sound (h : Sound q s) {x : Nat} : Sound q { s with drawn := x } :=
  h.ofParts rfl rfl rfl rfl rfl rfl rfl rfl rfl rfl
theorem setBlocks_sound (h : Sound q s) {x : List Block} (hx : x.length = s.blocks.length) : Sound q { s with blocks := x } :=
  h.ofParts rfl rfl rfl rfl rfl rfl rfl rfl rfl (by simp [State.sizes, hx])
theorem setClk_sound (h : Sound q s) {x : Clocks} : Sound q { s with clk := x } :=
  h.ofParts rfl rfl rfl rfl rfl rfl rfl rfl rfl rfl
theorem setRecover_sound (h : Sound q s) {x : Recover} : Sound q { s with recover := x } :=
  h.ofParts rfl rfl rfl rfl rfl rfl rfl rfl rfl rfl
theorem passCycle_sound (h : Sound q s) : Sound q s.passCycle := by
  unfold State.passCycle
  split
  · exact h
  · exact setClk_sound h

@[simp] theorem setAt_length {α : Type} (l : List α) (n : Nat) (v : α) : (setAt l n v).length = l.length := by
  induction l generalizing n with
  | nil => rfl
  | cons x rest ih => cases n <;> simp [setAt, ih]

/-! ## Counters, events and the alert line -/

theorem bumpBy_sound (h : Sound q s) {c : CtrId} {n : Nat} : Sound q (s.bumpBy c n) := by
  unfold State.bumpBy
  split
  · exact h
  · refine ⟨h.queue, h.memory, h.alert, h.events, fun k v e => ?_, h.sizes⟩
    simp only at e
    by_cases hk : k = CtrId.key c
    · subst hk
      simp only [Table.get_set_self, Option.some.injEq] at e
      omega
    · rw [Table.get_set_ne _ _ _ _ hk] at e
      exact h.counters k v e
theorem bump_sound (h : Sound q s) {c : CtrId} : Sound q (s.bump c) := bumpBy_sound h

/-- What the alert line shows is brought up to date, whatever it showed. -/
theorem Sound.ofDrive {t : State} (h : Sound q s) (h1 : t.pending = s.pending) (h2 : t.tiers.mem = s.tiers.mem)
    (h5 : t.events.length ≤ 512) (h9 : t.counters = s.counters) (h10 : t.sizes = s.sizes) : Sound q t.driveAlert where
  queue := by rw [← h.queue, ← h1]; rfl
  memory := by have := h.memory; rw [← h2] at this; exact this
  alert := rfl
  events := h5
  counters := by have := h.counters; rw [← h9] at this; exact this
  sizes := by have := h.sizes; rw [← h10] at this; exact this

theorem driveAlert_sound (h : Sound q s) : Sound q s.driveAlert := h.ofDrive rfl rfl h.events rfl rfl

/-- Any change of the registers, of start-up or of power, when the alert line is driven again after it. -/
theorem modRegsDrive_sound (h : Sound q s) {f : Regs → Regs} (hg : (f s.regs).inj.length = s.regs.inj.length) :
    Sound q (s.modRegs f).driveAlert := h.ofDrive rfl rfl h.events rfl (by simp [State.sizes, State.modRegs, hg])
theorem modUpDrive_sound (h : Sound q s) {f : Startup → Startup} : Sound q (s.modUp f).driveAlert := h.ofDrive rfl rfl h.events rfl rfl
theorem setPwrDrive_sound (h : Sound q s) {x : Power} : Sound q (State.driveAlert { s with pwr := x }) :=
  h.ofDrive rfl rfl h.events rfl rfl

/-- An event that is queued makes the queue longer by one, wherever it stands. -/
@[simp] theorem queueEvent_length (es : List Event) (e : Event) : (queueEvent es e).length = es.length + 1 := by
  have h := congrArg List.length (List.takeWhile_append_dropWhile (p := fun x : Event => !(x.cycle == e.cycle && decide (e.place < x.place))) (l := es))
  simp only [queueEvent, List.length_append, List.length_cons] at h ⊢
  omega

theorem raise_sound (h : Sound q s) {b r d : Nat} {i : Bool} : Sound q (s.raise b r d i) := by
  unfold State.raise
  split
  · exact bump_sound h
  · next hl => exact h.ofDrive rfl rfl (by simp only [queueEvent_length]; omega) rfl rfl

/-! ## Memory -/

theorem writeFrame_sound (h : Sound q s) {t : Tier} {f off : Nat} {bs : List Byte} : Sound q (s.writeFrame t f off bs) where
  queue := h.queue
  memory := Memory.write_wf h.memory _ _
  alert := h.alert
  events := h.events
  counters := h.counters
  sizes := h.sizes

end Sys2Proof.Machine
end

