-- ==== Sys2Proof/Laws/SoundFlags.lean ====
section
/-! SUPPORT. That every operation of Machine/Flags.lean keeps what every step keeps. -/
set_option Elab.async false

namespace Sys2Proof.Machine

variable {q : List Instr} {s : State}

theorem healthEvent_sound (h : Sound q s)   :
    Sound q (State.healthEvent s) := by
  unfold State.healthEvent
  repeat' with_reducible first | assumption | dsimp only | apply setRecover_sound

theorem wordCorrected_sound (h : Sound q s) {block : Nat}  :
    Sound q (State.wordCorrected s block) := by
  unfold State.wordCorrected
  repeat' with_reducible first | assumption | apply bump_sound | apply modBlock_sound | dsimp only

theorem wordUncorrectable_sound (h : Sound q s) {block : Nat} {detail : Nat} {injected : Bool}  :
    Sound q (State.wordUncorrectable s block detail injected) := by
  unfold State.wordUncorrectable
  repeat' with_reducible first | assumption | apply bump_sound | apply modBlock_sound | apply raise_sound | dsimp only

theorem poisonConsumedAt_sound (h : Sound q s) {block : Nat} {detail : Nat} {injected : Bool}  :
    Sound q (State.poisonConsumedAt s block detail injected) := by
  unfold State.poisonConsumedAt
  repeat' with_reducible first | assumption | apply bump_sound | apply modBlock_sound | apply raise_sound | dsimp only

theorem checkNoted_sound (h : Sound q s) {block : Nat} {injected : Bool}  :
    Sound q (State.checkNoted s block injected) := by
  unfold State.checkNoted
  repeat' with_reducible first | assumption | apply modBlock_sound | apply note_sound | dsimp only

theorem checkFailed_sound (h : Sound q s) {block : Nat} {detail : Nat} {injected : Bool}  :
    Sound q (State.checkFailed s block detail injected) := by
  unfold State.checkFailed
  repeat' with_reducible first | assumption | apply checkNoted_sound | apply raise_sound | dsimp only

theorem watchdogFired_sound (h : Sound q s) {block : Nat} {reason : Nat} {detail : Nat} {injected : Bool}  :
    Sound q (State.watchdogFired s block reason detail injected) := by
  unfold State.watchdogFired
  repeat' with_reducible first | assumption | apply healthEvent_sound | apply modBlock_sound | apply raise_sound
                                | split | dsimp only

theorem drawBelow_sound (h : Sound q s) {n : Nat}  :
    Sound q (State.drawBelow s n).2 := by
  unfold State.drawBelow
  repeat' with_reducible first | assumption | dsimp only | apply setDrawn_sound

theorem drawWord_sound (h : Sound q s)   :
    Sound q (State.drawWord s).2 := by
  unfold State.drawWord
  repeat' with_reducible first | assumption | dsimp only | apply setDrawn_sound

theorem drawBytes_sound (h : Sound q s)   :
    Sound q (State.drawBytes s).2 := by
  unfold State.drawBytes
  repeat' with_reducible first | assumption | dsimp only | apply setDrawn_sound

theorem fireSlot_sound (h : Sound q s) {i : Nat}  :
    Sound q (State.fireSlot s i) := by
  unfold State.fireSlot
  dsimp only
  apply healthEvent_sound
  apply bump_sound
  exact h.ofParts rfl rfl rfl rfl rfl rfl rfl rfl rfl (by simp [State.sizes])

theorem injected_sound (h : Sound q s) {block : Nat} {point : Nat}  :
    Sound q (State.injected s block point).2 := by
  unfold State.injected
  split
  · exact h
  · exact fireSlot_sound h

theorem unitStruck_sound (h : Sound q s) {unit : Nat} {kind : Nat}  :
    Sound q (State.unitStruck s unit kind).2 := by
  unfold State.unitStruck
  split
  · exact h
  · exact fireSlot_sound h

theorem checkStruck_sound (h : Sound q s) {block : Nat} {point : Nat} {unit : Nat}  :
    Sound q (State.checkStruck s block point unit).2 := by
  unfold State.checkStruck
  repeat' with_reducible first | assumption | apply injected_sound | apply unitStruck_sound
                                | refine Sound.of_snd ?_ (by assumption) | split | dsimp only

theorem sramRead_sound (h : Sound q s) {block : Nat} {point : Nat} {detail : Nat}  :
    Sound q (State.sramRead s block point detail).2 := by
  unfold State.sramRead
  repeat' with_reducible first | assumption | apply injected_sound | apply poisonConsumedAt_sound
                                | apply wordCorrected_sound | apply wordUncorrectable_sound
                                | refine Sound.of_snd ?_ (by assumption) | split | dsimp only


end Sys2Proof.Machine
end

