-- ==== Sys2Proof/Laws/SoundOps.lean ====
section
/-! SUPPORT. That every operation of Machine/Ops.lean keeps what every step keeps. -/
set_option Elab.async false

namespace Sys2Proof.Machine

variable {q : List Instr} {s : State}

theorem clearFrame_sound (h : Sound q s) {t : Tier} {f : Nat}  :
    Sound q (State.clearFrame s t f) := by
  unfold State.clearFrame
  repeat' with_reducible first | assumption | apply writeFrame_sound | dsimp only

theorem useFrame_sound (h : Sound q s) {t : Tier} {f : Nat} {u : FrameUse}  :
    Sound q (State.useFrame s t f u) := by
  unfold State.useFrame
  repeat' with_reducible first | assumption | rfl | apply modTiers_sound | split | dsimp only

theorem takeFrame_sound (h : Sound q s) {t : Tier} {u : FrameUse}  :
    Sound q (State.takeFrame s t u).2 := by
  unfold State.takeFrame
  repeat' with_reducible first | assumption | apply clearFrame_sound | apply drawBelow_sound | apply useFrame_sound
                                | refine Sound.of_snd ?_ (by assumption) | split | dsimp only

theorem allocFrame_sound (h : Sound q s) {t : Tier} {u : FrameUse}  :
    OptSound q (State.allocFrame s t u) := by
  unfold State.allocFrame
  repeat' with_reducible first | assumption | apply takeFrame_sound | apply OptSound.none | apply OptSound.some
                                | apply OptSound.ofPair | refine Sound.of_snd ?_ (by assumption) | split | dsimp only

theorem useReserve_sound (h : Sound q s) {t : Tier}  :
    Sound q (State.useReserve s t) := by
  unfold State.useReserve
  repeat' with_reducible first | assumption | rfl | apply modRegs_sound | split | dsimp only

theorem allocReserve_sound (h : Sound q s) {t : Tier} {u : FrameUse}  :
    OptSound q (State.allocReserve s t u) := by
  unfold State.allocReserve
  repeat' with_reducible first | assumption | apply takeFrame_sound | apply useReserve_sound | apply OptSound.none
                                | apply OptSound.some | apply OptSound.ofPair | refine Sound.of_snd ?_ (by assumption)
                                | split | dsimp only

theorem allocFrames_sound (h : Sound q s) {t : Tier} {u : FrameUse} {n : Nat}  :
    OptSound q (State.allocFrames s t u n) := by
  unfold State.allocFrames
  repeat' with_reducible first | assumption | apply takeFrame_sound | apply OptSound.none | apply OptSound.some
                                | apply OptSound.ofPair | refine Sound.foldl (fun _ _ _ => ?_) _ ?_
                                | refine Sound.foldlSnd (fun _ _ _ => ?_) _ ?_
                                | refine Sound.of_snd ?_ (by assumption) | split | dsimp only

theorem freeFrame_sound (h : Sound q s) {t : Tier} {f : Nat}  :
    Sound q (State.freeFrame s t f) := by
  unfold State.freeFrame
  repeat' with_reducible first | assumption | rfl | apply modTiers_sound | split | dsimp only

theorem retireFrame_sound (h : Sound q s) {t : Tier} {f : Nat}  :
    Sound q (State.retireFrame s t f) := by
  unfold State.retireFrame
  repeat' with_reducible first | assumption | apply bump_sound | apply useFrame_sound | split | dsimp only

theorem post_sound (h : Sound q s) {qp : Nat} {cls : Nat} {ops : List WireOp} {tag : Tag} {held : Bool} {drift : Option (Nat × Nat)}  :
    Sound q (State.post s qp cls ops tag held drift) := by
  unfold State.post
  repeat' with_reducible first | assumption | rfl | exact modifyAt_length _ _ _ | exact setAt_length _ _ _
                                | exact List.length_map _ | apply modNet_sound | split | dsimp only

theorem writeChain_sound (h : Sound q s) {qp : Nat} {addr : W64} {key : W32} {bytes : List Byte} {tag : Tag}  :
    Sound q (State.writeChain s qp addr key bytes tag) := by
  unfold State.writeChain
  repeat' with_reducible first | assumption | apply drawWord_sound | apply post_sound
                                | refine Sound.of_snd ?_ (by assumption) | split | dsimp only

theorem sendControl_sound (h : Sound q s) {qp : Nat} {op : WireOp}  :
    Sound q (State.sendControl s qp op) := by
  unfold State.sendControl
  repeat' with_reducible first | assumption | rfl | apply modNet_sound | dsimp only

theorem sendDatagram_sound (h : Sound q s) {bs : List Byte}  :
    Sound q (State.sendDatagram s bs) := by
  unfold State.sendDatagram
  repeat' with_reducible first | assumption | rfl | apply modNet_sound | dsimp only

theorem sendCommand_sound (hs : Sound q s) {j : Nat} {cls : Nat} {h : Hdr} {payload : List Byte} {tag : Tag}  :
    Sound q (State.sendCommand s j cls h payload tag) := by
  unfold State.sendCommand
  repeat' with_reducible first | assumption | apply modQp_sound | apply post_sound | split | dsimp only

theorem deliverQp_sound (h : Sound q s) {i : Nat} {r : Reply}  :
    Sound q (State.deliverQp s i r) := by
  unfold State.deliverQp
  repeat' with_reducible first | assumption | apply bump_sound | apply modQp_sound | apply post_sound | split
                                | dsimp only

theorem sendReplyPart_sound (h : Sound q s) {e : Exchange}  :
    Sound q (State.sendReplyPart s e) := by
  unfold State.sendReplyPart
  repeat' with_reducible first | assumption | apply sendDatagram_sound | dsimp only

theorem deliverLane_sound (h : Sound q s) {xid : W32} {r : Reply}  :
    Sound q (State.deliverLane s xid r) := by
  unfold State.deliverLane
  repeat' with_reducible first | assumption | rfl | exact modifyAt_length _ _ _ | exact setAt_length _ _ _
                                | exact List.length_map _ | apply modNet_sound | apply sendReplyPart_sound | split
                                | dsimp only

theorem deliver_sound (h : Sound q s) {ctx : CmdCtx} {r : Reply}  :
    Sound q (State.deliver s ctx r) := by
  unfold State.deliver
  repeat' with_reducible first | assumption | apply bump_sound | apply deliverLane_sound | apply deliverQp_sound
                                | split | dsimp only

theorem release_sound (h : Sound q s) {ctx : CmdCtx}  :
    Sound q (State.release s ctx) := by
  unfold State.release
  repeat' with_reducible first | assumption | rfl | apply modNet_sound | apply modQp_sound | split | dsimp only

theorem setRecord_sound (h : Sound q s) {r : Record}  :
    Sound q (State.setRecord s r) := by
  unfold State.setRecord
  repeat' with_reducible first | assumption | rfl | apply modNet_sound | dsimp only

theorem endLast_sound (h : Sound q s) {r : Record}  :
    Sound q (State.endLast s r) := by
  unfold State.endLast
  repeat' with_reducible first | assumption | rfl | apply modNet_sound | dsimp only

theorem dropRecord_sound (h : Sound q s) {sub : Nat} {id : W64}  :
    Sound q (State.dropRecord s sub id) := by
  unfold State.dropRecord
  repeat' with_reducible first | assumption | rfl | apply modNet_sound | dsimp only

theorem freeKept_sound (h : Sound q s) {r : Record}  :
    Sound q (State.freeKept s r) := by
  unfold State.freeKept
  repeat' with_reducible first | assumption | rfl | apply freeFrame_sound | apply modTiers_sound
                                | refine Sound.foldl (fun _ _ _ => ?_) _ ?_ | dsimp only

theorem closeRecord_sound (h : Sound q s) {r : Record} {st : RecordState}  :
    Sound q (State.closeRecord s r st) := by
  unfold State.closeRecord
  repeat' with_reducible first | assumption | apply freeKept_sound | apply setRecord_sound | dsimp only

theorem makeKeepRoom_sound (h : Sound q s) {frames : Nat} {fuel : Nat}  :
    Sound q (State.makeKeepRoom s frames fuel) := by
  induction fuel generalizing s with
  | zero => exact h
  | succ n ih =>
    unfold State.makeKeepRoom
    split
    · exact h
    · split
      · exact h
      · exact ih (bump_sound (closeRecord_sound h))

theorem keepWrite_sound (h : Sound q s) {fs : List Nat} {n : Nat} {bs : List Byte}  :
    Sound q (State.keepWrite s fs n bs) := by
  unfold State.keepWrite
  repeat' with_reducible first | assumption | apply writeFrame_sound | refine Sound.foldl (fun _ _ _ => ?_) _ ?_
                                | dsimp only

theorem keepIn_sound (h : Sound q s) {r : Record} {bs : List Byte} {n : Nat}  :
    Sound q (State.keepIn s r bs n) := by
  unfold State.keepIn
  repeat' with_reducible first | assumption | rfl | apply allocFrames_sound | apply bump_sound
                                | apply closeRecord_sound | apply keepWrite_sound | apply modTiers_sound
                                | apply setRecord_sound | refine Sound.of_snd ?_ (by assumption)
                                | refine Sound.of_some ?_ (by assumption) | split | dsimp only

theorem keepResult_sound (h : Sound q s) {r : Record} {bs : List Byte}  :
    Sound q (State.keepResult s r bs) := by
  unfold State.keepResult
  repeat' with_reducible first | assumption | apply keepIn_sound | apply makeKeepRoom_sound | dsimp only

theorem endRecord_sound (h : Sound q s) {ctx : CmdCtx} {a : Ans} {r : Reply} {x : Trailer} {delivered : Bool}  :
    Sound q (State.endRecord s ctx a r x delivered) := by
  unfold State.endRecord
  repeat' with_reducible first | assumption | apply dropRecord_sound | apply endLast_sound | apply keepResult_sound
                                | split | dsimp only

theorem finish_sound (h : Sound q s) {ctx : CmdCtx} {a : Ans}  :
    Sound q (State.finish s ctx a) := by
  unfold State.finish
  repeat' with_reducible first | assumption | apply deliver_sound | apply endRecord_sound | apply release_sound
                                | split | dsimp only

theorem lateReply_sound (h : Sound q s) {w : Nat} {x : Waiting}  :
    Sound q (State.lateReply s w x) := by
  unfold State.lateReply
  repeat' with_reducible first | assumption | rfl | apply finish_sound | apply modNet_sound | split | dsimp only

theorem lateReplies_sound (h : Sound q s)   :
    Sound q (State.lateReplies s) := by
  unfold State.lateReplies
  repeat' with_reducible first | assumption | apply lateReply_sound | refine Sound.foldl (fun _ _ _ => ?_) _ ?_
                                | refine Sound.foldlSnd (fun _ _ _ => ?_) _ ?_ | dsimp only

theorem finishResult_sound (h : Sound q s) {ctx : CmdCtx} {it : ResultItem} {a : Ans} {bs : List Byte}  :
    Sound q (State.finishResult s ctx it a bs) := by
  unfold State.finishResult
  repeat' with_reducible first | assumption | apply finish_sound | split | dsimp only

theorem twinWrite_sound (h : Sound q s) {j : Nat} {kind : Nat} {frame : Nat} {parts : List (Nat × List Byte)} {tag : Tag} {held : Bool}  :
    Sound q (State.twinWrite s j kind frame parts tag held) := by
  unfold State.twinWrite
  repeat' with_reducible first | assumption | apply post_sound | split | dsimp only

theorem tellFreed_sound (h : Sound q s) {j : Nat}  :
    Sound q (State.tellFreed s j) := by
  unfold State.tellFreed
  repeat' with_reducible first | assumption | apply modPartner_sound | apply post_sound | split | dsimp only

theorem twinRecord_sound (h : Sound q s) {cid : Nat} {c : Conv} {tag : Tag}  :
    Sound q (State.twinRecord s cid c tag) := by
  unfold State.twinRecord
  repeat' with_reducible first | assumption | apply post_sound | apply tellFreed_sound | split | dsimp only

theorem twinCrc_sound (h : Sound q s) {c : Conv} {a : Append}  :
    Sound q (State.twinCrc s c a) := by
  unfold State.twinCrc
  repeat' with_reducible first | assumption | apply post_sound | split | dsimp only

theorem keepAnswer_sound (h : Sound q s) {cid : Nat} {ctx : CmdCtx} {a : Ans}  :
    Sound q (State.keepAnswer s cid ctx a) := by
  unfold State.keepAnswer
  repeat' with_reducible first | assumption | rfl | apply modNet_sound | dsimp only

theorem finishAll_sound (h : Sound q s) {cid : Nat} {c : Conv} {l : List (CmdCtx × Ans)}  :
    Sound q (State.finishAll s cid c l) := by
  unfold State.finishAll
  repeat' with_reducible first | assumption | apply finish_sound | apply keepAnswer_sound | apply twinRecord_sound
                                | refine Sound.foldl (fun _ _ _ => ?_) _ ?_ | split | dsimp only

theorem finishTwinned_sound (h : Sound q s) {cid : Nat} {c : Conv} {ctx : CmdCtx} {a : Ans}  :
    Sound q (State.finishTwinned s cid c ctx a) := by
  unfold State.finishTwinned
  repeat' with_reducible first | assumption | apply finishAll_sound | dsimp only

theorem releaseWaiting_sound (h : Sound q s) {cid : Nat} {w : Nat}  :
    Sound q (State.releaseWaiting s cid w) := by
  unfold State.releaseWaiting
  repeat' with_reducible first | assumption | rfl | apply finish_sound | apply modNet_sound
                                | refine Sound.foldl (fun _ _ _ => ?_) _ ?_ | dsimp only


end Sys2Proof.Machine
end

