-- ==== Sys2Proof/Laws/SoundPages.lean ====
section
/-! SUPPORT. That every operation of Machine/Pages.lean keeps what every step keeps. -/
set_option Elab.async false

namespace Sys2Proof.Machine

variable {q : List Instr} {s : State}

theorem deliverKeys_sound (h : Sound q s)   :
    Sound q (State.deliverKeys s) := by
  unfold State.deliverKeys
  repeat' with_reducible first | assumption | apply modTrust_sound | dsimp only

theorem takeGrant_sound (h : Sound q s) {j : Nat}  :
    OptSound q (State.takeGrant s j) := by
  unfold State.takeGrant
  repeat' with_reducible first | assumption | apply modPartner_sound | apply OptSound.none | apply OptSound.some
                                | apply OptSound.ofPair | split | dsimp only

theorem returnGrant_sound (h : Sound q s) {j : Nat} {f : Nat}  :
    Sound q (State.returnGrant s j f) := by
  unfold State.returnGrant
  repeat' with_reducible first | assumption | apply modPartner_sound | dsimp only

theorem noteFreed_sound (h : Sound q s) {j : Nat} {f : Nat}  :
    Sound q (State.noteFreed s j f) := by
  unfold State.noteFreed
  repeat' with_reducible first | assumption | rfl | apply modNet_sound | apply modPartner_sound | dsimp only

theorem leaveFrame_sound (h : Sound q s) {t : Tier} {f : Nat}  :
    Sound q (State.leaveFrame s t f) := by
  unfold State.leaveFrame
  repeat' with_reducible first | assumption | apply freeFrame_sound | apply useFrame_sound | split | dsimp only

theorem settleFrame_sound (h : Sound q s) {t : Tier} {f : Nat}  :
    Sound q (State.settleFrame s t f) := by
  unfold State.settleFrame
  repeat' with_reducible first | assumption | apply freeFrame_sound | split | dsimp only

theorem freeSpill_sound (h : Sound q s) {x : SpillAt}  :
    Sound q (State.freeSpill s x) := by
  unfold State.freeSpill
  repeat' with_reducible first | assumption | rfl | apply modTiers_sound | dsimp only

theorem freePage_sound (h : Sound q s) {pid : Nat}  :
    Sound q (State.freePage s pid) := by
  unfold State.freePage
  repeat' with_reducible first | assumption | rfl | apply freeSpill_sound | apply leaveFrame_sound
                                | apply modTiers_sound | apply noteFreed_sound | apply tellFreed_sound | split
                                | dsimp only

theorem reapPage_sound (h : Sound q s) {pid : Nat}  :
    Sound q (State.reapPage s pid) := by
  unfold State.reapPage
  repeat' with_reducible first | assumption | apply freePage_sound | split | dsimp only

theorem dropTarget_sound (h : Sound q s) {pid : Nat}  :
    Sound q (State.dropTarget s pid) := by
  unfold State.dropTarget
  repeat' with_reducible first | assumption | apply freeFrame_sound | apply freeSpill_sound | apply modPage_sound
                                | split | dsimp only

theorem dropRef_sound (h : Sound q s) {pid : Nat}  :
    Sound q (State.dropRef s pid) := by
  unfold State.dropRef
  repeat' with_reducible first | assumption | apply modPage_sound | apply reapPage_sound | dsimp only

theorem addRef_sound (h : Sound q s) {pid : Nat}  :
    Sound q (State.addRef s pid) := by
  unfold State.addRef
  repeat' with_reducible first | assumption | apply modPage_sound | dsimp only

theorem dropUser_sound (h : Sound q s) {ctx : Nat}  :
    Sound q (State.dropUser s ctx) := by
  unfold State.dropUser
  repeat' with_reducible first | assumption | apply modPage_sound | apply reapPage_sound
                                | refine Sound.foldl (fun _ _ _ => ?_) _ ?_ | dsimp only

theorem enterPage_sound (h : Sound q s) {cid : Nat} {layoutIdx : Nat} {l : Layout} {k : PageKey} {t : Tier} {f : Nat} {twin : Option (Nat × Nat)}  :
    Sound q (State.enterPage s cid layoutIdx l k t f twin).2 := by
  unfold State.enterPage
  repeat' with_reducible first | assumption | rfl | apply modTiers_sound | apply useFrame_sound
                                | apply writeFrame_sound | dsimp only

theorem openPage_sound (h : Sound q s) {cid : Nat} {c : Conv} {l : Layout} {k : PageKey}  :
    OptSound q (State.openPage s cid c l k) := by
  unfold State.openPage
  repeat' with_reducible first | assumption | apply allocFrame_sound | apply enterPage_sound | apply modConv_sound
                                | apply takeGrant_sound | apply OptSound.none | apply OptSound.some
                                | apply OptSound.ofPair | refine Sound.of_snd ?_ (by assumption)
                                | refine Sound.of_some ?_ (by assumption) | split | dsimp only

theorem checkTags_sound (h : Sound q s) {t : Tier} {f : Nat}  :
    Sound q (State.checkTags s t f).2 := by
  unfold State.checkTags
  repeat' with_reducible first | assumption | apply checkFailed_sound | apply injected_sound
                                | refine Sound.of_snd ?_ (by assumption) | split | dsimp only

theorem checkWords_sound (h : Sound q s) {t : Tier} {f : Nat}  :
    Sound q (State.checkWords s t f).2 := by
  unfold State.checkWords
  repeat' with_reducible first | assumption | rfl | apply injected_sound | apply modBlock_sound | apply modTiers_sound
                                | apply note_sound | apply poisonConsumedAt_sound | apply wordCorrected_sound
                                | apply wordUncorrectable_sound | refine Sound.foldl (fun _ _ _ => ?_) _ ?_
                                | refine Sound.foldlSnd (fun _ _ _ => ?_) _ ?_
                                | refine Sound.of_snd ?_ (by assumption) | split | dsimp only

theorem checkFrame_sound (h : Sound q s) {t : Tier} {f : Nat}  :
    Sound q (State.checkFrame s t f).2 := by
  unfold State.checkFrame
  repeat' with_reducible first | assumption | apply checkTags_sound | apply checkWords_sound
                                | refine Sound.of_snd ?_ (by assumption) | split | dsimp only

theorem twinSats_sound (h : Sound q s) {pid : Nat}  :
    Sound q (State.twinSats s pid) := by
  unfold State.twinSats
  repeat' with_reducible first | assumption | apply post_sound | split | dsimp only

theorem twinTail_sound (h : Sound q s) {pid : Nat} {tag : Tag}  :
    Sound q (State.twinTail s pid tag) := by
  unfold State.twinTail
  repeat' with_reducible first | assumption | apply twinWrite_sound | split | dsimp only

theorem sealPage_sound (h : Sound q s) {pid : Nat} {fill : Nat} {w : Option (Nat × Nat)}  :
    Sound q (State.sealPage s pid fill w) := by
  unfold State.sealPage
  repeat' with_reducible first | assumption | apply checkFrame_sound | apply modPage_sound | apply retireFrame_sound
                                | apply twinTail_sound | apply writeFrame_sound
                                | refine Sound.of_snd ?_ (by assumption) | split | dsimp only

theorem unsealPage_sound (h : Sound q s) {pid : Nat}  :
    Sound q (State.unsealPage s pid) := by
  unfold State.unsealPage
  repeat' with_reducible first | assumption | apply modPage_sound | apply twinWrite_sound | apply writeFrame_sound
                                | refine Sound.foldl (fun _ _ _ => ?_) _ ?_ | split | dsimp only

theorem freezeRow_sound (h : Sound q s) {pid : Nat} {l : Layout} {pos : Nat} {segment : Nat} {elems : List Nat} {fresh : Bool} {tag : Tag}  :
    Sound q (State.freezeRow s pid l pos segment elems fresh tag).2 := by
  unfold State.freezeRow
  repeat' with_reducible first | assumption | apply bumpBy_sound | apply modPage_sound | apply twinSats_sound
                                | apply twinWrite_sound | apply writeFrame_sound | split | dsimp only

theorem freezeToken_sound (h : Sound q s) {pid : Nat} {l : Layout} {pos : Nat} {segment : Nat} {elems : List Nat} {fresh : Bool} {w : Nat × Nat}  :
    Sound q (State.freezeToken s pid l pos segment elems fresh w).2 := by
  unfold State.freezeToken
  repeat' with_reducible first | assumption | apply freezeRow_sound | apply sealPage_sound
                                | refine Sound.of_snd ?_ (by assumption) | split | dsimp only

theorem copyRows_sound (h : Sound q s) {l : Layout} {t : Tier} {f : Nat} {dst : Nat} {n : Nat} {sats : Table Nat}  :
    Sound q (State.copyRows s l t f dst n sats) := by
  unfold State.copyRows
  repeat' with_reducible first | assumption | apply modPage_sound | apply writeFrame_sound | split | dsimp only

theorem twinWhole_sound (h : Sound q s) {pid : Nat} {kind : Nat} {cls : Nat} {tag : Tag}  :
    Sound q (State.twinWhole s pid kind cls tag) := by
  unfold State.twinWhole
  repeat' with_reducible first | assumption | apply post_sound | split | dsimp only

theorem queueMove_sound (h : Sound q s) {pid : Nat} {k : MoveKind}  :
    Sound q (State.queueMove s pid k) := by
  unfold State.queueMove
  repeat' with_reducible first | assumption | apply bump_sound | apply modPage_sound | split | dsimp only

theorem wantMove_sound (h : Sound q s) {pid : Nat} {k : MoveKind}  :
    Sound q (State.wantMove s pid k) := by
  unfold State.wantMove
  repeat' with_reducible first | assumption | apply modPage_sound | apply queueMove_sound | split | dsimp only

theorem startMove_sound (h : Sound q s) {pid : Nat} {k : MoveKind} {t : Tier}  :
    SomeSound q (State.startMove s pid k t) := by
  unfold State.startMove
  repeat' with_reducible first | assumption | apply allocFrame_sound | apply modPage_sound | apply SomeSound.none
                                | apply SomeSound.some | refine Sound.of_snd ?_ (by assumption)
                                | refine Sound.of_some ?_ (by assumption) | split | dsimp only

theorem turnMove_sound (h : Sound q s) {pid : Nat}  :
    Sound q (State.turnMove s pid) := by
  unfold State.turnMove
  repeat' with_reducible first | assumption | apply dropTarget_sound | apply modPage_sound | split | dsimp only

theorem startRepair_sound (h : Sound q s) {pid : Nat}  :
    Sound q (State.startRepair s pid).2 := by
  unfold State.startRepair
  repeat' with_reducible first | assumption | apply allocFrame_sound | apply modPage_sound | apply post_sound
                                | apply turnMove_sound | refine Sound.of_snd ?_ (by assumption)
                                | refine Sound.of_some ?_ (by assumption) | split | dsimp only

theorem verifySeal_sound (h : Sound q s) {f : Nat} {frame : List Byte}  :
    Sound q (State.verifySeal s f frame).2 := by
  unfold State.verifySeal
  repeat' with_reducible first | assumption | apply bump_sound | apply checkFailed_sound | apply unitStruck_sound
                                | refine Sound.of_snd ?_ (by assumption) | split | dsimp only

theorem readThaw_sound (h : Sound q s) {t : Tier} {f : Nat} {ok : State → Bool}  :
    Sound q (State.readThaw s t f ok).2 := by
  unfold State.readThaw
  repeat' with_reducible first | assumption | apply bump_sound | apply checkFrame_sound | apply injected_sound
                                | apply retireFrame_sound | apply wordUncorrectable_sound
                                | refine Sound.of_snd ?_ (by assumption) | split | dsimp only


end Sys2Proof.Machine
end

