-- ==== Sys2Proof/Laws/SoundReqs.lean ====
section
/-! SUPPORT. That every operation of Machine/Reqs.lean keeps what every step keeps. -/
set_option Elab.async false

namespace Sys2Proof.Machine

variable {q : List Instr} {s : State}

theorem freeVersion_sound (hs : Sound q s) {h : Nat}  :
    Sound q (State.freeVersion s h) := by
  unfold State.freeVersion
  repeat' with_reducible first | assumption | apply dropRef_sound | apply modRegions_sound
                                | refine Sound.foldl (fun _ _ _ => ?_) _ ?_ | split | dsimp only

theorem reapVersion_sound (hs : Sound q s) {h : Nat}  :
    Sound q (State.reapVersion s h) := by
  unfold State.reapVersion
  repeat' with_reducible first | assumption | apply freeVersion_sound | split | dsimp only

theorem modVersion_sound (hs : Sound q s) {h : Nat} {f : Version → Version}  :
    Sound q (State.modVersion s h f) := by
  unfold State.modVersion
  repeat' with_reducible first | assumption | apply modRegions_sound | dsimp only

theorem useVersion_sound (hs : Sound q s) {ctx : Nat} {h : Nat}  :
    Sound q (State.useVersion s ctx h) := by
  unfold State.useVersion
  repeat' with_reducible first | assumption | apply modVersion_sound | dsimp only

theorem dropVersions_sound (h : Sound q s) {ctx : Nat} {hs : List W64}  :
    Sound q (State.dropVersions s ctx hs) := by
  unfold State.dropVersions
  repeat' with_reducible first | assumption | apply modVersion_sound | apply reapVersion_sound
                                | refine Sound.foldl (fun _ _ _ => ?_) _ ?_ | dsimp only

theorem modReq_sound (h : Sound q s) {ctx : Nat} {f : Req → Req}  :
    Sound q (State.modReq s ctx f) := by
  unfold State.modReq
  repeat' with_reducible first | assumption | rfl | apply modAttn_sound | dsimp only

theorem dropWork_sound (h : Sound q s) {drift : Bool} {ctx : Nat}  :
    Sound q (State.dropWork s drift ctx) := by
  unfold State.dropWork
  repeat' with_reducible first | assumption | rfl | exact modifyAt_length _ _ _ | exact setAt_length _ _ _
                                | exact List.length_map _ | apply modAttn_sound | apply settleFrame_sound
                                | refine Sound.foldl (fun _ _ _ => ?_) _ ?_ | dsimp only

theorem cancelHeld_sound (h : Sound q s) {f : Tag → Bool}  :
    Sound q (State.cancelHeld s f) := by
  unfold State.cancelHeld
  repeat' with_reducible first | assumption | rfl | apply modNet_sound | dsimp only

theorem releaseReq_sound (h : Sound q s) {ctx : Nat}  :
    Sound q (State.releaseReq s ctx) := by
  unfold State.releaseReq
  repeat' with_reducible first | assumption | rfl | apply bumpBy_sound | apply cancelHeld_sound | apply dropUser_sound
                                | apply dropVersions_sound | apply dropWork_sound | apply modAttn_sound | split | dsimp only

theorem endReq_sound (h : Sound q s) {ctx : Nat} {a : Ans}  :
    Sound q (State.endReq s ctx a) := by
  unfold State.endReq
  repeat' with_reducible first | assumption | apply bump_sound | apply finish_sound | apply releaseReq_sound | split
                                | dsimp only

theorem failReq_sound (h : Sound q s) {ctx : Nat} {a : Ans}  :
    Sound q (State.failReq s ctx a) := by
  unfold State.failReq
  repeat' with_reducible first | assumption | apply endReq_sound | split | dsimp only

theorem endReqs_sound (h : Sound q s) {f : Req → Bool} {a : Ans}  :
    Sound q (State.endReqs s f a) := by
  unfold State.endReqs
  repeat' with_reducible first | assumption | apply failReq_sound | refine Sound.foldl (fun _ _ _ => ?_) _ ?_
                                | dsimp only

theorem modTile_sound (h : Sound q s) {p : Nat} {f : Tile → Tile}  :
    Sound q (State.modTile s p f) := by
  unfold State.modTile
  repeat' with_reducible first | assumption | rfl | exact modifyAt_length _ _ _ | exact setAt_length _ _ _
                                | exact List.length_map _ | apply modAttn_sound | dsimp only

theorem modLogical_sound (h : Sound q s) {n : Nat} {f : Logical → Logical}  :
    Sound q (State.modLogical s n f) := by
  unfold State.modLogical
  repeat' with_reducible first | assumption | rfl | exact modifyAt_length _ _ _ | exact setAt_length _ _ _
                                | exact List.length_map _ | apply modAttn_sound | dsimp only

theorem wakeTile_sound (h : Sound q s) {p : Nat}  :
    Sound q (State.wakeTile s p) := by
  unfold State.wakeTile
  repeat' with_reducible first | assumption | apply modTile_sound | split | dsimp only

theorem queueWork_sound (h : Sound q s) {n : Nat} {w : Work}  :
    Sound q (State.queueWork s n w) := by
  unfold State.queueWork
  repeat' with_reducible first | assumption | apply modLogical_sound | apply modTile_sound | apply wakeTile_sound
                                | split | dsimp only

theorem issueWork_sound (h : Sound q s) {n : Nat} {w : Work}  :
    Sound q (State.issueWork s n w) := by
  unfold State.issueWork
  repeat' with_reducible first | assumption | apply modLogical_sound | apply modTile_sound | apply queueWork_sound
                                | apply wakeTile_sound | split | dsimp only

theorem dropGroups_sound (h : Sound q s) {ctx : Nat}  :
    Sound q (State.dropGroups s ctx) := by
  unfold State.dropGroups
  repeat' with_reducible first | assumption | rfl | exact modifyAt_length _ _ _ | exact setAt_length _ _ _
                                | exact List.length_map _ | apply modAttn_sound | dsimp only

theorem touchPage_sound (h : Sound q s) {pid : Nat}  :
    Sound q (State.touchPage s pid) := by
  unfold State.touchPage
  repeat' with_reducible first | assumption | apply modPage_sound | apply wantMove_sound | split | dsimp only

theorem foresee_sound (h : Sound q s) {ctx : Nat}  :
    Sound q (State.foresee s ctx) := by
  unfold State.foresee
  repeat' with_reducible first | assumption | apply failReq_sound | split | dsimp only

theorem foreseeSubst_sound (h : Sound q s) {ctx : Nat}  :
    Sound q (State.foreseeSubst s ctx) := by
  unfold State.foreseeSubst
  repeat' with_reducible first | assumption | apply failReq_sound | split | dsimp only

theorem waitFor_sound (h : Sound q s) {ctx : Nat} {pids : List Nat}  :
    Sound q (State.waitFor s ctx pids) := by
  unfold State.waitFor
  repeat' with_reducible first | assumption | apply bump_sound | apply endReq_sound | apply modReq_sound
                                | apply wantMove_sound | refine Sound.foldl (fun _ _ _ => ?_) _ ?_ | split
                                | dsimp only

theorem stallReq_sound (h : Sound q s) {ctx : Nat} {pids : List Nat}  :
    Sound q (State.stallReq s ctx pids) := by
  unfold State.stallReq
  repeat' with_reducible first | assumption | apply foresee_sound | apply waitFor_sound | split | dsimp only

theorem judgeStalls_sound (h : Sound q s) {pid : Nat}  :
    Sound q (State.judgeStalls s pid) := by
  unfold State.judgeStalls
  repeat' with_reducible first | assumption | apply stallReq_sound | refine Sound.foldl (fun _ _ _ => ?_) _ ?_
                                | dsimp only

theorem issueReq_sound (h : Sound q s) {ctx : Nat}  :
    Sound q (State.issueReq s ctx) := by
  unfold State.issueReq
  repeat' with_reducible first | assumption | apply dropGroups_sound | apply endReq_sound | apply issueWork_sound
                                | apply modReq_sound | apply stallReq_sound | apply touchPage_sound
                                | refine Sound.foldl (fun _ _ _ => ?_) _ ?_ | split | dsimp only


end Sys2Proof.Machine
end

