-- ==== Sys2Proof/Laws/SoundWire.lean ====
section
/-! SUPPORT. That every operation of Machine/Wire.lean keeps what every step keeps. -/
set_option Elab.async false

namespace Sys2Proof.Machine

variable {q : List Instr} {s : State}

theorem modChk_sound (h : Sound q s) {n : Nat} {f : ChkUnit → ChkUnit}  :
    Sound q (State.modChk s n f) := by
  unfold State.modChk
  repeat' with_reducible first | assumption | rfl | apply modRegs_sound | dsimp only

theorem chkHold_sound (h : Sound q s) {qp : Nat} {out : Bool} {bs : List Byte}  :
    Sound q (State.chkHold s qp out bs) := by
  unfold State.chkHold
  repeat' with_reducible first | assumption | apply modChk_sound | refine Sound.foldl (fun _ _ _ => ?_) _ ?_
                                | dsimp only

theorem chkIngress_sound (h : Sound q s) {qp : Nat} {bs : List Byte}  :
    Sound q (State.chkIngress s qp bs).2 := by
  unfold State.chkIngress
  repeat' with_reducible first | assumption | apply bump_sound | apply checkNoted_sound | apply chkHold_sound
                                | apply injected_sound | apply modChk_sound | apply raise_sound
                                | refine Sound.of_snd ?_ (by assumption) | split | dsimp only

theorem chkEgress_sound (h : Sound q s) {qp : Nat} {bs : List Byte}  :
    Sound q (State.chkEgress s qp bs).2 := by
  unfold State.chkEgress
  repeat' with_reducible first | assumption | apply modChk_sound | split | dsimp only

theorem wireOk_sound (h : Sound q s) {i : Nat}  :
    Sound q (State.wireOk s i).2 := by
  unfold State.wireOk
  repeat' with_reducible first | assumption | apply bump_sound | apply injected_sound | apply sramRead_sound
                                | refine Sound.foldl (fun _ _ _ => ?_) _ ?_
                                | refine Sound.foldlSnd (fun _ _ _ => ?_) _ ?_
                                | refine Sound.of_snd ?_ (by assumption) | split | dsimp only

theorem sendPfc_sound (h : Sound q s) {port : Nat} {prio : Nat} {pause : Bool}  :
    Sound q (State.sendPfc s port prio pause) := by
  unfold State.sendPfc
  repeat' with_reducible first | assumption | rfl | exact modifyAt_length _ _ _ | exact setAt_length _ _ _
                                | exact List.length_map _ | apply modNet_sound | apply modPort_sound | split
                                | dsimp only

theorem pace_sound (h : Sound q s) {port : Nat}  :
    Sound q (State.pace s port) := by
  unfold State.pace
  repeat' with_reducible first | assumption | apply sendPfc_sound | refine Sound.foldl (fun _ _ _ => ?_) _ ?_ | split
                                | dsimp only


end Sys2Proof.Machine
end

