-- ==== Sys2Proof/Laws/SoundEnds.lean ====
section
/-! SUPPORT. That every operation of Machine/Ends.lean keeps what every step keeps. -/
set_option Elab.async false

namespace Sys2Proof.Machine

variable {q : List Instr} {s : State}

theorem modRegion_sound (h : Sound q s) {id : W64} {f : Region → Region}  :
    Sound q (State.modRegion s id f) := by
  unfold State.modRegion
  repeat' with_reducible first | assumption | apply modRegions_sound | dsimp only

theorem releaseSlot_sound (h : Sound q s) {a : Append}  :
    Sound q (State.releaseSlot s a) := by
  unfold State.releaseSlot
  repeat' with_reducible first | assumption | apply modRegion_sound | split | dsimp only

theorem answerAppend_sound (h : Sound q s) {a : Append} {ans : Ans}  :
    Sound q (State.answerAppend s a ans) := by
  unfold State.answerAppend
  repeat' with_reducible first | assumption | apply finish_sound | dsimp only

theorem refuseAppend_sound (h : Sound q s) {a : Append} {ans : Ans}  :
    Sound q (State.refuseAppend s a ans) := by
  unfold State.refuseAppend
  repeat' with_reducible first | assumption | apply answerAppend_sound | apply releaseSlot_sound | split | dsimp only

theorem reopenPages_sound (h : Sound q s) {cid : Nat}  :
    Sound q (State.reopenPages s cid) := by
  unfold State.reopenPages
  repeat' with_reducible first | assumption | apply modPage_sound | apply unsealPage_sound
                                | refine Sound.foldl (fun _ _ _ => ?_) _ ?_ | split | dsimp only

theorem discardAppends_sound (h : Sound q s) {cid : Nat} {f : Append → Bool} {ans : Ans}  :
    Sound q (State.discardAppends s cid f ans) := by
  unfold State.discardAppends
  repeat' with_reducible first | assumption | apply bump_sound | apply modConv_sound | apply refuseAppend_sound
                                | apply reopenPages_sound | refine Sound.foldl (fun _ _ _ => ?_) _ ?_ | split
                                | dsimp only

theorem discardTail_sound (h : Sound q s) {cid : Nat}  :
    Sound q (State.discardTail s cid) := by
  unfold State.discardTail
  repeat' with_reducible first | assumption | apply discardAppends_sound | dsimp only

theorem endLease_sound (h : Sound q s) {cid : Nat}  :
    Sound q (State.endLease s cid) := by
  unfold State.endLease
  repeat' with_reducible first | assumption | apply discardTail_sound | apply modConv_sound | split | dsimp only

theorem loseConv_sound (h : Sound q s) {cid : Nat}  :
    Sound q (State.loseConv s cid) := by
  unfold State.loseConv
  repeat' with_reducible first | assumption | apply bump_sound | apply modConv_sound | apply raise_sound | split
                                | dsimp only

theorem poisonPage_sound (h : Sound q s) {pid : Nat}  :
    Sound q (State.poisonPage s pid) := by
  unfold State.poisonPage
  repeat' with_reducible first | assumption | apply dropTarget_sound | apply endReqs_sound | apply loseConv_sound
                                | apply modPage_sound | apply modVersion_sound | apply raise_sound
                                | apply reapPage_sound | refine Sound.foldl (fun _ _ _ => ?_) _ ?_
                                | refine Sound.foldlSnd (fun _ _ _ => ?_) _ ?_ | split | dsimp only

theorem repairOrPoison_sound (h : Sound q s) {pid : Nat}  :
    Sound q (State.repairOrPoison s pid) := by
  unfold State.repairOrPoison
  repeat' with_reducible first | assumption | apply dropTarget_sound | apply freePage_sound | apply judgeStalls_sound
                                | apply modPage_sound | apply poisonPage_sound | apply startRepair_sound
                                | refine Sound.of_snd ?_ (by assumption) | split | dsimp only

theorem soundPage_sound (h : Sound q s) {pid : Nat}  :
    Sound q (State.soundPage s pid).2 := by
  unfold State.soundPage
  repeat' with_reducible first | assumption | apply checkFrame_sound | apply repairOrPoison_sound
                                | apply retireFrame_sound | refine Sound.of_snd ?_ (by assumption) | split
                                | dsimp only

theorem repairFailed_sound (h : Sound q s) {pid : Nat}  :
    Sound q (State.repairFailed s pid) := by
  unfold State.repairFailed
  repeat' with_reducible first | assumption | apply modPage_sound | apply repairOrPoison_sound | apply turnMove_sound
                                | dsimp only

theorem recallFailed_sound (h : Sound q s) {pid : Nat}  :
    Sound q (State.recallFailed s pid) := by
  unfold State.recallFailed
  repeat' with_reducible first | assumption | rfl | apply bump_sound | apply modTiers_sound
                                | apply repairOrPoison_sound | apply turnMove_sound | dsimp only

theorem leaveTarget_sound (h : Sound q s) {pid : Nat} {p : Page}  :
    Sound q (State.leaveTarget s pid p) := by
  unfold State.leaveTarget
  repeat' with_reducible first | assumption | apply dropTarget_sound | apply modPage_sound | apply reapPage_sound
                                | apply repairOrPoison_sound | apply turnMove_sound | split | dsimp only

theorem removeTargets_sound (h : Sound q s) {qp : Nat}  :
    Sound q (State.removeTargets s qp) := by
  unfold State.removeTargets
  repeat' with_reducible first | assumption | rfl | apply leaveTarget_sound | apply modTiers_sound
                                | refine Sound.foldl (fun _ _ _ => ?_) _ ?_ | dsimp only

theorem modDrift_sound (h : Sound q s) {slot : Nat} {f : Drift → Drift}  :
    Sound q (State.modDrift s slot f) := by
  unfold State.modDrift
  repeat' with_reducible first | assumption | rfl | exact modifyAt_length _ _ _ | exact setAt_length _ _ _
                                | exact List.length_map _ | dsimp only | apply setDrifts_sound

theorem dropDriftGates_sound (h : Sound q s) {slot : Nat}  :
    Sound q (State.dropDriftGates s slot) := by
  unfold State.dropDriftGates
  repeat' with_reducible first | assumption | apply modPort_sound | dsimp only

theorem freeKey_sound (h : Sound q s) {k : Nat}  :
    Sound q (State.freeKey s k) := by
  unfold State.freeKey
  repeat' with_reducible first | assumption | apply modRegions_sound | dsimp only

theorem releaseDrift_sound (h : Sound q s) {slot : Nat}  :
    Sound q (State.releaseDrift s slot) := by
  unfold State.releaseDrift
  repeat' with_reducible first | assumption | rfl | apply dropDriftGates_sound | apply dropVersions_sound
                                | apply dropWork_sound | apply freeFrame_sound | apply freeKey_sound
                                | apply modAttn_sound | refine Sound.foldl (fun _ _ _ => ?_) _ ?_ | split | dsimp only

theorem rememberAbort_sound (h : Sound q s) {a : Abort}  :
    Sound q (State.rememberAbort s a) := by
  unfold State.rememberAbort
  repeat' with_reducible first | assumption | dsimp only | apply setAborts_sound

theorem sendMember_sound (h : Sound q s) {d : Drift} {m : Nat} {bs : List Byte}  :
    Sound q (State.sendMember s d m bs) := by
  unfold State.sendMember
  repeat' with_reducible first | assumption | apply post_sound | split | dsimp only

theorem cancelSends_sound (h : Sound q s) {slot : Nat}  :
    Sound q (State.cancelSends s slot) := by
  unfold State.cancelSends
  repeat' with_reducible first | assumption | rfl | exact modifyAt_length _ _ _ | exact setAt_length _ _ _
                                | exact List.length_map _ | apply modNet_sound | split | dsimp only

theorem abortPass_sound (h : Sound q s) {slot : Nat} {a : Abort}  :
    Sound q (State.abortPass s slot a) := by
  unfold State.abortPass
  repeat' with_reducible first | assumption | apply bump_sound | apply cancelSends_sound | apply finish_sound
                                | apply modDrift_sound | apply releaseDrift_sound | split | dsimp only

theorem detectAbort_sound (h : Sound q s) {slot : Nat} {reason : Nat} {origin : Option Nat} {originStatus : Nat} {originReason : Nat} {detail : W64}  :
    Sound q (State.detectAbort s slot reason origin originStatus originReason detail) := by
  unfold State.detectAbort
  repeat' with_reducible first | assumption | apply abortPass_sound | apply bump_sound | apply rememberAbort_sound
                                | apply sendMember_sound | refine Sound.foldl (fun _ _ _ => ?_) _ ?_ | split
                                | dsimp only

theorem abortPasses_sound (h : Sound q s) {f : Drift → Bool} {reason : Nat} {originStatus : Nat} {originReason : Nat}  :
    Sound q (State.abortPasses s f reason originStatus originReason) := by
  unfold State.abortPasses
  repeat' with_reducible first | assumption | apply detectAbort_sound | refine Sound.foldl (fun _ _ _ => ?_) _ ?_
                                | split | dsimp only

theorem writeStamp_sound (h : Sound q s) {j : Nat} {flags : Nat} {lost : Nat} {frames : Nat} {grant : Nat} {st : NodeState}  :
    Sound q (State.writeStamp s j flags lost frames grant st) := by
  unfold State.writeStamp
  repeat' with_reducible first | assumption | apply modPartner_sound | apply post_sound | dsimp only

theorem endWaiting_sound (h : Sound q s) {cid : Nat} {a : Ans}  :
    Sound q (State.endWaiting s cid a) := by
  unfold State.endWaiting
  repeat' with_reducible first | assumption | rfl | apply finish_sound | apply modNet_sound
                                | refine Sound.foldl (fun _ _ _ => ?_) _ ?_ | dsimp only

theorem selfFence_sound (h : Sound q s) {cid : Nat}  :
    Sound q (State.selfFence s cid) := by
  unfold State.selfFence
  repeat' with_reducible first | assumption | apply discardAppends_sound | apply endReqs_sound
                                | apply endWaiting_sound | apply modConv_sound | split | dsimp only

theorem castVote_sound (h : Sound q s) {j : Nat} {cause : Nat}  :
    Sound q (State.castVote s j cause) := by
  unfold State.castVote
  repeat' with_reducible first | assumption | apply bump_sound | apply modPartner_sound | apply post_sound
                                | apply sendDatagram_sound | refine Sound.foldl (fun _ _ _ => ?_) _ ?_ | split
                                | dsimp only

theorem silence_sound (h : Sound q s) {j : Nat} {cause : Nat}  :
    Sound q (State.silence s j cause) := by
  unfold State.silence
  repeat' with_reducible first | assumption | apply bump_sound | apply castVote_sound | apply modPartner_sound
                                | apply selfFence_sound | refine Sound.foldl (fun _ _ _ => ?_) _ ?_ | split
                                | dsimp only

theorem contact_sound (h : Sound q s) {j : Nat}  :
    Sound q (State.contact s j) := by
  unfold State.contact
  repeat' with_reducible first | assumption | apply modPartner_sound | split | dsimp only | apply setConvs_sound

theorem loseParticipant_sound (h : Sound q s) {j : Nat}  :
    Sound q (State.loseParticipant s j) := by
  unfold State.loseParticipant
  repeat' with_reducible first | assumption | apply endReqs_sound | dsimp only

theorem losePeer_sound (h : Sound q s) {j : Nat}  :
    Sound q (State.losePeer s j) := by
  unfold State.losePeer
  repeat' with_reducible first | assumption | apply detectAbort_sound | apply loseParticipant_sound
                                | apply modPartner_sound | apply repairFailed_sound | apply silence_sound
                                | refine Sound.foldl (fun _ _ _ => ?_) _ ?_ | split | dsimp only
                                | apply setConvs_sound

theorem afterError_sound (h : Sound q s) {i : Nat}  :
    Sound q (State.afterError s i) := by
  unfold State.afterError
  repeat' with_reducible first | assumption | apply losePeer_sound | apply removeTargets_sound | split | dsimp only

theorem flushQp_sound (h : Sound q s) {i : Nat}  :
    Sound q (State.flushQp s i) := by
  unfold State.flushQp
  repeat' with_reducible first | assumption | rfl | exact modifyAt_length _ _ _ | exact setAt_length _ _ _
                                | exact List.length_map _ | apply modNet_sound | apply modQp_sound
                                | apply modRegions_sound | dsimp only

theorem qpError_sound (h : Sound q s) {i : Nat} {reason : Nat}  :
    Sound q (State.qpError s i reason) := by
  unfold State.qpError
  repeat' with_reducible first | assumption | apply afterError_sound | apply bump_sound | apply flushQp_sound
                                | apply modQp_sound | apply raise_sound | split | dsimp only

theorem nakError_sound (h : Sound q s) {i : Nat} {psn : Nat} {k : NakKind}  :
    Sound q (State.nakError s i psn k) := by
  unfold State.nakError
  repeat' with_reducible first | assumption | apply qpError_sound | apply sendControl_sound | split | dsimp only

theorem endPool_sound (h : Sound q s) {p : Nat}  :
    Sound q (State.endPool s p) := by
  unfold State.endPool
  repeat' with_reducible first | assumption | apply abortPasses_sound | apply endReqs_sound | dsimp only

theorem failPool_sound (h : Sound q s) {p : Nat}  :
    Sound q (State.failPool s p) := by
  unfold State.failPool
  repeat' with_reducible first | assumption | rfl | apply endPool_sound | apply freeKept_sound | apply modNet_sound
                                | apply modRecover_sound | refine Sound.foldl (fun _ _ _ => ?_) _ ?_ | split
                                | dsimp only

theorem enterFenced_sound (h : Sound q s)   :
    Sound q (State.enterFenced s) := by
  unfold State.enterFenced
  repeat' with_reducible first | assumption | apply abortPasses_sound | apply endReqs_sound | apply finish_sound
                                | apply modNode_sound | apply writeStamp_sound
                                | refine Sound.foldl (fun _ _ _ => ?_) _ ?_ | split | dsimp only


end Sys2Proof.Machine
end

