-- ==== Sys2Proof/Laws/SoundArrive.lean ====
section
/-! SUPPORT. That every operation of Machine/Arrive.lean keeps what every step keeps. -/
set_option Elab.async false

namespace Sys2Proof.Machine

variable {q : List Instr} {s : State}

theorem ackMessage_sound (h : Sound q s) {i : Nat} {n : Nat}  :
    Sound q (State.ackMessage s i n) := by
  unfold State.ackMessage
  repeat' with_reducible first | assumption | apply modQp_sound | apply sendControl_sound | dsimp only

theorem ackNow_sound (h : Sound q s) {i : Nat}  :
    Sound q (State.ackNow s i) := by
  unfold State.ackNow
  repeat' with_reducible first | assumption | apply sendControl_sound | dsimp only

theorem nakGap_sound (h : Sound q s) {i : Nat}  :
    Sound q (State.nakGap s i) := by
  unfold State.nakGap
  repeat' with_reducible first | assumption | apply modQp_sound | apply sendControl_sound | split | dsimp only

theorem inOrder_sound (h : Sound q s) {i : Nat} {psn : Nat} {mute : Bool}  :
    Sound q (State.inOrder s i psn mute).2 := by
  unfold State.inOrder
  generalize psnClass _ _ = c
  cases c with
  | expected => exact h
  | duplicate =>
    dsimp only
    split
    · exact bump_sound h
    · exact ackNow_sound (bump_sound h)
  | ahead => exact nakGap_sound h

theorem receiveMsg_sound (h : Sound q s) {m : RdmaMsg}  :
    Sound q (State.receiveMsg s m).2 := by
  unfold State.receiveMsg
  repeat' with_reducible first | assumption | apply bump_sound | apply modQp_sound | apply nakError_sound
                                | apply nakGap_sound | apply pace_sound | apply sendControl_sound | apply wireOk_sound
                                | refine Sound.of_snd ?_ (by assumption) | split | dsimp only

theorem receiveSend_sound (h : Sound q s) {i : Nat} {n : Nat} {psn : Nat}  :
    Sound q (State.receiveSend s i n psn).2 := by
  unfold State.receiveSend
  repeat' with_reducible first | assumption | apply ackMessage_sound | apply bump_sound | apply inOrder_sound
                                | apply nakError_sound | apply sendControl_sound | apply wireOk_sound
                                | refine Sound.of_snd ?_ (by assumption) | split | dsimp only

theorem receiveRaw_sound (h : Sound q s) {i : Nat} {psn : Nat} {bs : List Byte}  :
    Sound q (State.receiveRaw s i psn bs).2 := by
  unfold State.receiveRaw
  repeat' with_reducible first | assumption | apply chkIngress_sound | apply receiveSend_sound
                                | refine Sound.of_snd ?_ (by assumption) | refine Sound.of_some ?_ (by assumption)
                                | split | dsimp only

theorem openLane_sound (h : Sound q s) {xid : W32}  :
    SomeSound q (State.openLane s xid) := by
  unfold State.openLane
  repeat' with_reducible first | assumption | rfl | apply modNet_sound | apply SomeSound.none | apply SomeSound.some
                                | split | dsimp only

theorem deframe_sound (h : Sound q s) {i : Nat} {c : Cmd}  :
    Sound q (State.deframe s i c).2 := by
  unfold State.deframe
  repeat' with_reducible first | assumption | apply chkIngress_sound | refine Sound.of_snd ?_ (by assumption)
                                | refine Sound.of_some ?_ (by assumption) | split | dsimp only

theorem intake_sound (h : Sound q s) {c : Cmd}  :
    Sound q (State.intake s c).2 := by
  unfold State.intake
  repeat' with_reducible first | assumption | rfl | apply bump_sound | apply deframe_sound | apply finish_sound
                                | apply modNet_sound | apply modQp_sound | apply openLane_sound
                                | apply receiveSend_sound | refine Sound.of_snd ?_ (by assumption)
                                | refine Sound.of_opt ?_ (by assumption) | split | dsimp only

theorem checkCrc_sound (h : Sound q s) {c : Cmd}  :
    Sound q (State.checkCrc s c).2 := by
  unfold State.checkCrc
  repeat' with_reducible first | assumption | apply bump_sound | apply checkNoted_sound | apply checkStruck_sound
                                | apply modQp_sound | refine Sound.of_snd ?_ (by assumption) | split | dsimp only

theorem seqStruck_sound (h : Sound q s)   :
    Sound q (State.seqStruck s).2 := by
  unfold State.seqStruck
  repeat' with_reducible first | assumption | apply injected_sound | apply unitStruck_sound
                                | refine Sound.of_snd ?_ (by assumption) | split | dsimp only

theorem checkSeq_sound (h : Sound q s) {c : Cmd}  :
    Sound q (State.checkSeq s c).2 := by
  unfold State.checkSeq
  split
  · assumption
  · split
    next e =>
    have ht := Sound.of_snd (seqStruck_sound h) e
    extract_lets want got d u
    have hu : Sound q u := modQp_sound ht
    by_cases hd : d ≥ 2 ^ 31
    · rw [if_pos hd]; exact bump_sound ht
    · rw [if_neg hd]
      by_cases h0 : d = 0
      · rw [if_pos h0]; exact hu
      · rw [if_neg h0]; exact bump_sound hu

theorem answerKept_sound (h : Sound q s) {ctx : CmdCtx} {rc : Record} {rp : Reply}  :
    Sound q (State.answerKept s ctx rc rp) := by
  unfold State.answerKept
  repeat' with_reducible first | assumption | apply bump_sound | apply finish_sound | apply setRecord_sound
                                | dsimp only

theorem freeEstimate_sound (h : Sound q s)   :
    Sound q (State.freeEstimate s).2 := by
  unfold State.freeEstimate
  repeat' with_reducible first | assumption | apply drawBelow_sound | refine Sound.of_snd ?_ (by assumption) | split
                                | dsimp only

theorem estimateFor_sound (h : Sound q s) {sub : Nat} {id : W64}  :
    Sound q (State.estimateFor s sub id).2 := by
  unfold State.estimateFor
  repeat' with_reducible first | assumption | apply freeEstimate_sound | refine Sound.of_snd ?_ (by assumption)
                                | split | dsimp only

theorem recordRoom_sound (h : Sound q s) {pool : Nat}  :
    SomeSound q (State.recordRoom s pool) := by
  unfold State.recordRoom
  repeat' with_reducible first | assumption | apply bump_sound | apply closeRecord_sound | apply SomeSound.none
                                | apply SomeSound.some | split | dsimp only

theorem checkIdentity_sound (h : Sound q s) {o : OpSpec} {c : Cmd} {ctx : CmdCtx}  :
    Sound q (State.checkIdentity s o c ctx).2 := by
  unfold State.checkIdentity
  repeat' with_reducible first | assumption | apply answerKept_sound | apply bump_sound | apply estimateFor_sound
                                | apply failPool_sound | apply finish_sound | apply recordRoom_sound
                                | apply setRecord_sound | apply sramRead_sound | apply unitStruck_sound
                                | refine Sound.of_snd ?_ (by assumption) | refine Sound.of_opt ?_ (by assumption)
                                | split | dsimp only

theorem arrive_sound (h : Sound q s) {code : Nat} {c : Cmd}  :
    Sound q (State.arrive s code c).2 := by
  unfold State.arrive
  repeat' with_reducible first | assumption | apply checkCrc_sound | apply checkIdentity_sound | apply checkSeq_sound
                                | apply finish_sound | apply intake_sound | refine Sound.of_snd ?_ (by assumption)
                                | refine Sound.of_some ?_ (by assumption) | refine Sound.of_snd2 ?_ (by assumption)
                                | split | dsimp only

theorem onArrive_sound (h : Sound q s) {code : Nat} {c : Cmd} {f : Cmd → CmdCtx → State → State} (hf : ∀ x0 x1 t, Sound q t → Sound q (f x0 x1 t)) :
    Sound q (State.onArrive s code c f) := by
  unfold State.onArrive
  repeat' with_reducible first | assumption | apply hf | apply arrive_sound | refine Sound.of_snd ?_ (by assumption)
                                | refine Sound.of_some ?_ (by assumption) | refine Sound.of_snd2 ?_ (by assumption)
                                | split | dsimp only


end Sys2Proof.Machine
end

