-- ==== Sys2Proof/Laws/SoundGate.lean ====
section
/-! SUPPORT. That every operation of Machine/Gate.lean keeps what every step keeps. -/
set_option Elab.async false

namespace Sys2Proof.Machine

variable {q : List Instr} {s : State}

theorem leaseCheck_sound (h : Sound q s) {cid : Nat} {key : Nat}  :
    Sound q (State.leaseCheck s cid key).2 := by
  unfold State.leaseCheck
  repeat' with_reducible first | assumption | apply modConv_sound | split | dsimp only

theorem renewLease_sound (h : Sound q s) {cid : Nat}  :
    Sound q (State.renewLease s cid) := by
  unfold State.renewLease
  repeat' with_reducible first | assumption | apply modConv_sound | dsimp only

theorem grantLease_sound (h : Sound q s) {cid : Nat} {key : Nat}  :
    Sound q (State.grantLease s cid key) := by
  unfold State.grantLease
  repeat' with_reducible first | assumption | apply modConv_sound | apply renewLease_sound | dsimp only

theorem refuseArrival_sound (h : Sound q s) {a : Append} {x : Ans × Bool}  :
    Sound q (State.refuseArrival s a x) := by
  unfold State.refuseArrival
  repeat' with_reducible first | assumption | apply answerAppend_sound | apply bump_sound | apply refuseAppend_sound
                                | apply releaseSlot_sound | split | dsimp only

theorem refuseTrailer_sound (h : Sound q s) {a : Append} {x : Ans × Bool} {struck : Bool}  :
    Sound q (State.refuseTrailer s a x struck) := by
  unfold State.refuseTrailer
  repeat' with_reducible first | assumption | apply checkNoted_sound | apply refuseArrival_sound | split | dsimp only

theorem freezeAppend_sound (h : Sound q s) {a : Append} {l : Layout}  :
    Sound q (State.freezeAppend s a l).2 := by
  unfold State.freezeAppend
  refine Sound.foldlSnd (fun p x hp => ?_) _ ?_
  · dsimp only
    split
    · exact hp
    · split
      · exact hp
      · next e =>
        apply Sound.of_snd (freezeToken_sound ?_) rfl
        split at e
        · cases e; exact hp
        · obtain ⟨r, hr, he⟩ := Option.map_eq_some_iff.1 e
          cases he
          exact Sound.of_some (openPage_sound hp) hr
  · dsimp only
    split
    · exact twinCrc_sound h
    · exact h

theorem passAppend_sound (h : Sound q s) {a : Append}  :
    Sound q (State.passAppend s a).2 := by
  unfold State.passAppend
  repeat' with_reducible first | assumption | apply answerAppend_sound | apply bump_sound | apply freezeAppend_sound
                                | apply leaseCheck_sound | apply modConv_sound | apply refuseAppend_sound
                                | apply releaseSlot_sound | apply renewLease_sound
                                | refine Sound.of_snd ?_ (by assumption) | split | dsimp only

theorem takeAcks_sound (h : Sound q s) {cid : Nat}  :
    Sound q (State.takeAcks s cid) := by
  unfold State.takeAcks
  repeat' with_reducible first | assumption | rfl | exact modifyAt_length _ _ _ | exact setAt_length _ _ _
                                | exact List.length_map _ | apply modConv_sound | apply modNet_sound | split
                                | dsimp only

theorem commitAppend_sound (h : Sound q s) {cid : Nat}  :
    Sound q (State.commitAppend s cid) := by
  unfold State.commitAppend
  repeat' with_reducible first | assumption | apply answerAppend_sound | apply modConv_sound | apply releaseSlot_sound
                                | apply takeAcks_sound | split | dsimp only

theorem applyCommits_sound (h : Sound q s) {cid : Nat} {fuel : Nat}  :
    Sound q (State.applyCommits s cid fuel) := by
  induction fuel generalizing s with
  | zero => exact h
  | succ n ih =>
    unfold State.applyCommits
    split
    · exact ih (commitAppend_sound h)
    · exact h

theorem expireLease_sound (h : Sound q s) {cid : Nat}  :
    Sound q (State.expireLease s cid) := by
  unfold State.expireLease
  repeat' with_reducible first | assumption | apply applyCommits_sound | apply endLease_sound | split | dsimp only

theorem passHeld_sound (h : Sound q s) {cid : Nat}  :
    Sound q (State.passHeld s cid) := by
  unfold State.passHeld
  repeat' with_reducible first | assumption | apply modConv_sound | apply passAppend_sound
                                | refine Sound.of_snd ?_ (by assumption) | split | dsimp only

theorem passHelds_sound (h : Sound q s) {cid : Nat} {fuel : Nat}  :
    Sound q (State.passHelds s cid fuel) := by
  induction fuel generalizing s with
  | zero => exact h
  | succ n ih =>
    unfold State.passHelds
    split
    · exact ih (passHeld_sound h)
    · exact h

theorem gateFirst_sound (h : Sound q s) {cid : Nat}  :
    Sound q (State.gateFirst s cid) := by
  unfold State.gateFirst
  repeat' with_reducible first | assumption | apply expireLease_sound | apply passHelds_sound | split | dsimp only

theorem throughGate_sound (h : Sound q s) {cid : Nat} {c : Cmd} {ctx : CmdCtx} {pass : State → State} (hpass : ∀ t, Sound q t → Sound q (pass t)) :
    Sound q (State.throughGate s cid c ctx pass) := by
  unfold State.throughGate
  repeat' with_reducible first | assumption | apply hpass | apply finish_sound | apply gateFirst_sound
                                | apply modConv_sound | split | dsimp only

theorem rowAppend_sound (h : Sound q s) {a : Append} {direct : Bool}  :
    Sound q (State.rowAppend s a direct) := by
  unfold State.rowAppend
  repeat' with_reducible first | assumption | rfl | apply answerAppend_sound | apply gateFirst_sound
                                | apply modConv_sound | apply modNet_sound | apply passAppend_sound
                                | apply refuseAppend_sound | apply releaseSlot_sound
                                | refine Sound.of_snd ?_ (by assumption) | split | dsimp only

theorem writeRegion_sound (h : Sound q s) {r : Region} {off : Nat} {bs : List Byte}  :
    Sound q (State.writeRegion s r off bs) := by
  unfold State.writeRegion
  repeat' with_reducible first | assumption | apply writeFrame_sound | refine Sound.foldl (fun _ _ _ => ?_) _ ?_
                                | split | dsimp only

theorem takeTicket_sound (h : Sound q s) {qp : Nat} {window : W64} {r : Region} {slot : Nat} {ticket : W32} {payload : List Byte} {trailer : List Byte}  :
    Sound q (State.takeTicket s qp window r slot ticket payload trailer) := by
  unfold State.takeTicket
  repeat' with_reducible first | assumption | apply bump_sound | apply checkStruck_sound | apply modQp_sound
                                | apply refuseAppend_sound | apply refuseTrailer_sound | apply rowAppend_sound
                                | refine Sound.of_snd ?_ (by assumption) | split | dsimp only

theorem windowWrite_sound (h : Sound q s) {qp : Nat} {psn : Nat} {window : W64} {slot : Nat} {ticket : W32} {payload : List Byte} {trailer : List Byte}  :
    Sound q (State.windowWrite s qp psn window slot ticket payload trailer) := by
  unfold State.windowWrite
  repeat' with_reducible first | assumption | apply ackMessage_sound | apply inOrder_sound | apply nakError_sound
                                | apply takeTicket_sound | apply wireOk_sound | apply writeRegion_sound
                                | refine Sound.of_snd ?_ (by assumption) | split | dsimp only

theorem inlineAppend_sound (h : Sound q s) {c : Cmd} {ctx : CmdCtx}  :
    Sound q (State.inlineAppend s c ctx) := by
  unfold State.inlineAppend
  repeat' with_reducible first | assumption | apply checkStruck_sound | apply finish_sound | apply refuseTrailer_sound
                                | apply rowAppend_sound | refine Sound.of_snd ?_ (by assumption) | split | dsimp only

theorem execWindowAppend_sound (h : Sound q s) {p : QpPsn} {window : W64} {slot : Nat} {ticket : W32} {payload : List Byte} {trailer : List Byte}  :
    OutSound q (execWindowAppend p window slot ticket payload trailer s) := by
  unfold execWindowAppend
  repeat' with_reducible first | assumption | apply windowWrite_sound | apply OutSound.next | dsimp only

theorem execConvAppend_sound (h : Sound q s) {c : Cmd}  :
    OutSound q (execConvAppend c s) := by
  unfold execConvAppend
  repeat' with_reducible first | assumption | apply inlineAppend_sound | apply onArrive_sound | apply OutSound.next
                                | intro _ | dsimp only

theorem execHeldAppendPass_sound (h : Sound q s) {cid : Nat}  :
    OutSound q (execHeldAppendPass cid s) := by
  unfold execHeldAppendPass
  repeat' with_reducible first | assumption | apply expireLease_sound | apply passHeld_sound | apply OutSound.next
                                | split | dsimp only

theorem execAppendCommit_sound (h : Sound q s) {cid : Nat}  :
    OutSound q (execAppendCommit cid s) := by
  unfold execAppendCommit
  repeat' with_reducible first | assumption | apply commitAppend_sound | apply OutSound.next | dsimp only

theorem execLeaseExpiry_sound (h : Sound q s) {cid : Nat}  :
    OutSound q (execLeaseExpiry cid s) := by
  unfold execLeaseExpiry
  repeat' with_reducible first | assumption | apply expireLease_sound | apply OutSound.next | dsimp only

theorem execGapTimeout_sound (h : Sound q s) {cid : Nat} {uid : Nat}  :
    OutSound q (execGapTimeout cid uid s) := by
  unfold execGapTimeout
  repeat' with_reducible first | assumption | apply bump_sound | apply gateFirst_sound | apply modConv_sound
                                | apply refuseAppend_sound | apply OutSound.next | split | dsimp only

theorem execTwinTimeout_sound (h : Sound q s) {cid : Nat} {uid : Nat}  :
    OutSound q (execTwinTimeout cid uid s) := by
  unfold execTwinTimeout
  repeat' with_reducible first | assumption | apply discardAppends_sound | apply modConv_sound
                                | apply refuseAppend_sound | apply reopenPages_sound | apply OutSound.next | split
                                | dsimp only


end Sys2Proof.Machine
end

