-- ==== Sys2Proof/Laws/SoundGraze.lean ====
section
/-! SUPPORT. That every operation of Machine/Graze.lean keeps what every step keeps. -/
set_option Elab.async false

namespace Sys2Proof.Machine

variable {q : List Instr} {s : State}

theorem readAbsorb_sound (h : Sound q s) {fmt : Nat} {d : AbsorbDescriptor}  :
    Sound q (State.readAbsorb s fmt d).2 := by
  unfold State.readAbsorb
  repeat' with_reducible first | assumption | apply readThaw_sound | refine Sound.of_snd ?_ (by assumption) | split
                                | intro _ | dsimp only

theorem thawAbsorb_sound (h : Sound q s) {g : Graze} {l : Layout} {layer : Nat}  :
    Sound q (State.thawAbsorb s g l layer).2 := by
  unfold State.thawAbsorb
  repeat' with_reducible first | assumption | apply readAbsorb_sound | apply repairOrPoison_sound
                                | refine Sound.foldl (fun _ _ _ => ?_) _ ?_
                                | refine Sound.foldlSnd (fun _ _ _ => ?_) _ ?_
                                | refine Sound.of_snd ?_ (by assumption) | split | dsimp only

theorem holdPages_sound (h : Sound q s) {ctx : Nat} {c : Conv} {l : Layout} {layer : Nat} {snapshot : Nat} {first : Nat} {last : Nat} {away : List Extent}  :
    Sound q (State.holdPages s ctx c l layer snapshot first last away) := by
  unfold State.holdPages
  repeat' with_reducible first | assumption | apply modPage_sound | refine Sound.foldl (fun _ _ _ => ?_) _ ?_
                                | dsimp only

theorem sendForward_sound (h : Sound q s) {ctx : Nat} {k : Nat} {pass : Nat} {rest : List Byte}  :
    Sound q (State.sendForward s ctx k pass rest) := by
  unfold State.sendForward
  repeat' with_reducible first | assumption | apply sendCommand_sound | split | dsimp only

theorem beginReq_sound (h : Sound q s) {ctx : Nat}  :
    Sound q (State.beginReq s ctx) := by
  unfold State.beginReq
  repeat' with_reducible first | assumption | apply endReq_sound | apply issueReq_sound | apply modReq_sound
                                | apply stallReq_sound | apply thawAbsorb_sound
                                | refine Sound.of_snd ?_ (by assumption) | split | dsimp only

theorem resumeStalled_sound (h : Sound q s) {pid : Nat}  :
    Sound q (State.resumeStalled s pid) := by
  unfold State.resumeStalled
  repeat' with_reducible first | assumption | apply beginReq_sound | apply issueReq_sound | apply modReq_sound
                                | refine Sound.foldl (fun _ _ _ => ?_) _ ?_ | split | dsimp only

theorem lateRequests_sound (h : Sound q s)   :
    Sound q (State.lateRequests s) := by
  unfold State.lateRequests
  repeat' with_reducible first | assumption | apply finish_sound | apply modConv_sound
                                | refine Sound.foldl (fun _ _ _ => ?_) _ ?_
                                | refine Sound.foldlSnd (fun _ _ _ => ?_) _ ?_ | split | dsimp only

theorem attendAt_sound (h : Sound q s) {cid : Nat} {cmd : Cmd} {ctx : CmdCtx} {exact : Bool} {cairn : Bool}  :
    Sound q (State.attendAt s cid cmd ctx exact cairn) := by
  unfold State.attendAt
  repeat' with_reducible first | assumption | rfl | exact modifyAt_length _ _ _ | exact setAt_length _ _ _
                                | exact List.length_map _ | apply beginReq_sound | apply endReq_sound
                                | apply finish_sound | apply foresee_sound | apply holdPages_sound
                                | apply modAttn_sound | apply sendForward_sound | apply useVersion_sound
                                | refine Sound.foldl (fun _ _ _ => ?_) _ ?_ | split | dsimp only


end Sys2Proof.Machine
end

