-- ==== Sys2Proof/Laws/SoundConv.lean ====
section
/-! SUPPORT. That every operation of Machine/Conv.lean keeps what every step keeps. -/
set_option Elab.async false

namespace Sys2Proof.Machine

variable {q : List Instr} {s : State}

theorem pressure_sound (h : Sound q s)   :
    OptSound q (State.pressure s) := by
  unfold State.pressure
  repeat' with_reducible first | assumption | apply bump_sound | apply OptSound.none | apply OptSound.some
                                | apply OptSound.ofPair | split | dsimp only

theorem needTwin_sound (h : Sound q s) {cid : Nat}  :
    Sound q (State.needTwin s cid) := by
  unfold State.needTwin
  repeat' with_reducible first | assumption | apply modRecover_sound | split | dsimp only

theorem finishLength_sound (h : Sound q s) {cid : Nat} {ctx : CmdCtx}  :
    Sound q (State.finishLength s cid ctx) := by
  unfold State.finishLength
  repeat' with_reducible first | assumption | apply finishTwinned_sound | apply finish_sound | split | dsimp only

theorem detachConv_sound (hs : Sound q s) {cid : Nat} {h : W64}  :
    Sound q (State.detachConv s cid h) := by
  unfold State.detachConv
  repeat' with_reducible first | assumption | apply modConv_sound | apply modVersion_sound | apply reapVersion_sound
                                | split | dsimp only

theorem leavePage_sound (h : Sound q s) {cid : Nat} {pid : Nat}  :
    Sound q (State.leavePage s cid pid) := by
  unfold State.leavePage
  repeat' with_reducible first | assumption | apply dropRef_sound | apply modConv_sound | apply modPage_sound
                                | dsimp only

theorem blocked_sound (h : Sound q s) {pids : List Nat} {ctx : CmdCtx}  :
    Sound q (State.blocked s pids ctx).2 := by
  unfold State.blocked
  repeat' with_reducible first | assumption | apply bump_sound | apply soundPage_sound | apply wantMove_sound
                                | refine Sound.foldl (fun _ _ _ => ?_) _ ?_ | refine Sound.of_snd ?_ (by assumption)
                                | split | dsimp only

theorem stayAtRow_sound (h : Sound q s) {cid : Nat} {c : Cmd} {ctx : CmdCtx}  :
    Sound q (State.stayAtRow s cid c ctx) := by
  unfold State.stayAtRow
  repeat' with_reducible first | assumption | apply modConv_sound | dsimp only

theorem roomFor_sound (h : Sound q s) {twin : Option Nat} {n : Nat}  :
    OptSound q (State.roomFor s twin n) := by
  unfold State.roomFor
  repeat' with_reducible first | assumption | apply bump_sound | apply OptSound.none | apply OptSound.some
                                | apply OptSound.ofPair | split | dsimp only

theorem copyInto_sound (h : Sound q s) {cid : Nat} {l : Layout} {k : PageKey} {src : Nat} {n : Nat} {tag : Tag}  :
    Sound q (State.copyInto s cid l k src n tag) := by
  unfold State.copyInto
  repeat' with_reducible first | assumption | apply copyRows_sound | apply openPage_sound | apply twinSats_sound
                                | apply twinWhole_sound | refine Sound.of_snd ?_ (by assumption)
                                | refine Sound.of_some ?_ (by assumption) | split | dsimp only

theorem dropMove_sound (h : Sound q s) {cid : Nat} {m : ExtentMove}  :
    Sound q (State.dropMove s cid m) := by
  unfold State.dropMove
  repeat' with_reducible first | assumption | rfl | apply modConv_sound | apply modNet_sound | dsimp only

theorem drawSats_sound (h : Sound q s) {l : Layout} {n : Nat}  :
    Sound q (State.drawSats s l n).2 := by
  unfold State.drawSats
  repeat' with_reducible first | assumption | apply drawBelow_sound | refine Sound.foldl (fun _ _ _ => ?_) _ ?_
                                | refine Sound.foldlSnd (fun _ _ _ => ?_) _ ?_
                                | refine Sound.of_snd ?_ (by assumption) | split | dsimp only

theorem spreadSats_sound (h : Sound q s) {l : Layout} {n : Nat} {total : Nat}  :
    Sound q (State.spreadSats s l n total).2 := by
  unfold State.spreadSats
  repeat' with_reducible first | assumption | apply drawBelow_sound | refine Sound.foldl (fun _ _ _ => ?_) _ ?_
                                | refine Sound.foldlSnd (fun _ _ _ => ?_) _ ?_
                                | refine Sound.foldlSnd2 (fun _ _ _ => ?_) _ ?_
                                | refine Sound.of_snd ?_ (by assumption) | split | dsimp only

theorem copyAway_sound (h : Sound q s) {cid : Nat} {l : Layout} {k : PageKey} {n : Nat}  :
    Sound q (State.copyAway s cid l k n) := by
  unfold State.copyAway
  split
  · exact h
  · next c hb =>
    simp only [Option.bind_eq_some_iff] at hb
    obtain ⟨_, _, hb⟩ := hb
    have hs := Sound.of_some (openPage_sound h) hb
    repeat' with_reducible first | assumption | apply twinSats_sound | apply modPage_sound | apply drawSats_sound | refine Sound.of_snd ?_ (by assumption) | dsimp only | apply twinWhole_sound | apply writeFrame_sound
                                  | apply drawBytes_sound | split

theorem twinShared_sound (h : Sound q s) {cid : Nat}  :
    Sound q (State.twinShared s cid) := by
  unfold State.twinShared
  repeat' with_reducible first | assumption | apply post_sound | split | dsimp only

theorem openConv_sound (h : Sound q s) {c : Cmd} {ctx : CmdCtx}  :
    Sound q (State.openConv s c ctx) := by
  unfold State.openConv
  repeat' with_reducible first | assumption | apply finishTwinned_sound | apply finish_sound | apply grantLease_sound
                                | apply needTwin_sound | apply pressure_sound | refine Sound.of_snd ?_ (by assumption)
                                | refine Sound.of_some ?_ (by assumption) | split | dsimp only | apply setConvs_sound

theorem execConvOpen_sound (h : Sound q s) {c : Cmd}  :
    OutSound q (execConvOpen c s) := by
  unfold execConvOpen
  repeat' with_reducible first | assumption | rfl | apply modNet_sound | apply onArrive_sound | apply openConv_sound
                                | apply throughGate_sound | apply OutSound.next | split | intro _ | dsimp only

theorem sealTails_sound (h : Sound q s) {cid : Nat}  :
    Sound q (State.sealTails s cid) := by
  unfold State.sealTails
  repeat' with_reducible first | assumption | apply leavePage_sound | apply sealPage_sound | apply twinTail_sound
                                | refine Sound.foldl (fun _ _ _ => ?_) _ ?_ | split | dsimp only

theorem sealAt_sound (h : Sound q s) {cid : Nat} {ctx : CmdCtx}  :
    Sound q (State.sealAt s cid ctx) := by
  unfold State.sealAt
  repeat' with_reducible first | assumption | apply discardTail_sound | apply finishLength_sound | apply finish_sound
                                | apply leaseCheck_sound | apply modConv_sound | apply sealTails_sound
                                | refine Sound.of_snd ?_ (by assumption) | split | dsimp only

theorem noPayload_sound (h : Sound q s) {c : Cmd} {ctx : CmdCtx} {f : State → State} (hf : ∀ t, Sound q t → Sound q (f t)) :
    Sound q (State.noPayload s c ctx f) := by
  unfold State.noPayload
  repeat' with_reducible first | assumption | apply hf | apply finish_sound | split | dsimp only

theorem execConvSeal_sound (h : Sound q s) {c : Cmd}  :
    OutSound q (execConvSeal c s) := by
  unfold execConvSeal
  repeat' with_reducible first | assumption | apply noPayload_sound | apply onArrive_sound | apply sealAt_sound
                                | apply throughGate_sound | apply OutSound.next | intro _ | dsimp only

theorem cutMoves_sound (h : Sound q s) {cid : Nat} {page : Nat}  :
    Sound q (State.cutMoves s cid page) := by
  unfold State.cutMoves
  repeat' with_reducible first | assumption | apply dropMove_sound | apply modConv_sound
                                | refine Sound.foldl (fun _ _ _ => ?_) _ ?_ | split | dsimp only

theorem cutConv_sound (h : Sound q s) {cid : Nat} {c : Conv} {l : Layout} {n : Nat} {cmd : Cmd} {ctx : CmdCtx}  :
    Sound q (State.cutConv s cid c l n cmd ctx) := by
  unfold State.cutConv
  repeat' with_reducible first | assumption | apply blocked_sound | apply copyAway_sound | apply copyInto_sound
                                | apply cutMoves_sound | apply detachConv_sound | apply discardTail_sound
                                | apply dropRef_sound | apply finishLength_sound | apply finish_sound
                                | apply leavePage_sound | apply modConv_sound | apply modPage_sound
                                | apply roomFor_sound | apply stayAtRow_sound | apply twinShared_sound
                                | refine Sound.foldl (fun _ _ _ => ?_) _ ?_ | refine Sound.of_snd ?_ (by assumption)
                                | refine Sound.of_some ?_ (by assumption) | split | dsimp only

theorem truncateAt_sound (h : Sound q s) {cid : Nat} {c : Cmd} {ctx : CmdCtx}  :
    Sound q (State.truncateAt s cid c ctx) := by
  unfold State.truncateAt
  repeat' with_reducible first | assumption | apply cutConv_sound | apply finish_sound | apply leaseCheck_sound
                                | refine Sound.foldl (fun _ _ _ => ?_) _ ?_ | refine Sound.of_snd ?_ (by assumption)
                                | split | dsimp only

theorem execConvTruncate_sound (h : Sound q s) {c : Cmd}  :
    OutSound q (execConvTruncate c s) := by
  unfold execConvTruncate
  repeat' with_reducible first | assumption | apply noPayload_sound | apply onArrive_sound | apply throughGate_sound
                                | apply truncateAt_sound | apply OutSound.next | intro _ | dsimp only

theorem makeChild_sound (h : Sound q s) {child : Nat} {pool : Nat} {c : Conv} {l : Layout} {f : Nat} {cut : List (PageKey × Nat)} {away : List PageKey} {ctx : CmdCtx}  :
    Sound q (State.makeChild s child pool c l f cut away ctx) := by
  unfold State.makeChild
  repeat' with_reducible first | assumption | apply addRef_sound | apply copyAway_sound | apply copyInto_sound
                                | apply finishTwinned_sound | apply grantLease_sound | apply modVersion_sound
                                | apply needTwin_sound | apply twinShared_sound
                                | refine Sound.foldl (fun _ _ _ => ?_) _ ?_ | split | dsimp only
                                | apply setConvs_sound

theorem forkAt_sound (h : Sound q s) {cid : Nat} {c : Cmd} {ctx : CmdCtx}  :
    Sound q (State.forkAt s cid c ctx) := by
  unfold State.forkAt
  repeat' with_reducible first | assumption | apply blocked_sound | apply finish_sound | apply makeChild_sound
                                | apply pressure_sound | apply roomFor_sound | apply stayAtRow_sound
                                | refine Sound.of_snd ?_ (by assumption) | refine Sound.of_some ?_ (by assumption)
                                | split | dsimp only

theorem execConvFork_sound (h : Sound q s) {c : Cmd}  :
    OutSound q (execConvFork c s) := by
  unfold execConvFork
  repeat' with_reducible first | assumption | apply forkAt_sound | apply noPayload_sound | apply onArrive_sound
                                | apply throughGate_sound | apply OutSound.next | intro _ | dsimp only

theorem releaseAttach_sound (hs : Sound q s) {cid : Nat} {h : W64}  :
    Sound q (State.releaseAttach s cid h) := by
  unfold State.releaseAttach
  repeat' with_reducible first | assumption | apply modVersion_sound | apply reapVersion_sound | split | dsimp only

theorem leaveRow_sound (h : Sound q s) {cid : Nat} {row : List RowItem}  :
    Sound q (State.leaveRow s cid row) := by
  unfold State.leaveRow
  repeat' with_reducible first | assumption | apply finish_sound | apply modConv_sound | apply openConv_sound
                                | apply refuseAppend_sound | apply releaseAttach_sound
                                | refine Sound.foldl (fun _ _ _ => ?_) _ ?_ | split | dsimp only

theorem closeAt_sound (h : Sound q s) {cid : Nat} {ctx : CmdCtx}  :
    Sound q (State.closeAt s cid ctx) := by
  unfold State.closeAt
  repeat' with_reducible first | assumption | apply detachConv_sound | apply discardTail_sound
                                | apply finishTwinned_sound | apply finish_sound | apply leavePage_sound
                                | apply leaveRow_sound | refine Sound.foldl (fun _ _ _ => ?_) _ ?_ | split
                                | dsimp only | apply setConvs_sound

theorem execConvClose_sound (h : Sound q s) {c : Cmd}  :
    OutSound q (execConvClose c s) := by
  unfold execConvClose
  repeat' with_reducible first | assumption | apply closeAt_sound | apply noPayload_sound | apply onArrive_sound
                                | apply throughGate_sound | apply OutSound.next | intro _ | dsimp only

theorem pinPage_sound (h : Sound q s) {cid : Nat} {pid : Nat}  :
    Sound q (State.pinPage s cid pid) := by
  unfold State.pinPage
  repeat' with_reducible first | assumption | apply modPage_sound | apply wantMove_sound | split | dsimp only

theorem pinAt_sound (h : Sound q s) {cid : Nat} {c : Cmd} {ctx : CmdCtx}  :
    Sound q (State.pinAt s cid c ctx) := by
  unfold State.pinAt
  repeat' with_reducible first | assumption | apply bump_sound | apply finish_sound | apply modPage_sound
                                | apply pinPage_sound | refine Sound.foldl (fun _ _ _ => ?_) _ ?_ | split | dsimp only

theorem execConvPin_sound (h : Sound q s) {c : Cmd}  :
    OutSound q (execConvPin c s) := by
  unfold execConvPin
  repeat' with_reducible first | assumption | apply noPayload_sound | apply onArrive_sound | apply pinAt_sound
                                | apply throughGate_sound | apply OutSound.next | intro _ | dsimp only

theorem statAt_sound (h : Sound q s) {cid : Nat} {c : Cmd} {ctx : CmdCtx}  :
    Sound q (State.statAt s cid c ctx) := by
  unfold State.statAt
  repeat' with_reducible first | assumption | apply finishResult_sound | apply finish_sound | split | dsimp only

theorem execConvStat_sound (h : Sound q s) {c : Cmd}  :
    OutSound q (execConvStat c s) := by
  unfold execConvStat
  repeat' with_reducible first | assumption | apply finish_sound | apply onArrive_sound | apply statAt_sound
                                | apply throughGate_sound | apply OutSound.next | split | intro _ | dsimp only

theorem leaseAt_sound (h : Sound q s) {cid : Nat} {c : Cmd} {ctx : CmdCtx}  :
    Sound q (State.leaseAt s cid c ctx) := by
  unfold State.leaseAt
  repeat' with_reducible first | assumption | apply endLease_sound | apply finish_sound | apply grantLease_sound
                                | apply leaseCheck_sound | apply renewLease_sound
                                | refine Sound.of_snd ?_ (by assumption) | split | dsimp only

theorem execConvLease_sound (h : Sound q s) {c : Cmd}  :
    OutSound q (execConvLease c s) := by
  unfold execConvLease
  repeat' with_reducible first | assumption | apply finish_sound | apply leaseAt_sound | apply onArrive_sound
                                | apply throughGate_sound | apply OutSound.next | split | intro _ | dsimp only


end Sys2Proof.Machine
end

