-- ==== Sys2Proof/Laws/SoundMove.lean ====
section
/-! SUPPORT. That every operation of Machine/Move.lean keeps what every step keeps. -/
set_option Elab.async false

namespace Sys2Proof.Machine

variable {q : List Instr} {s : State}

theorem sendMove_sound (h : Sound q s) {j : Nat} {opcode : Nat} {cid : Nat} {epoch : Nat} {p0 : Nat} {payload : List Byte}  :
    Sound q (State.sendMove s j opcode cid epoch p0 payload) := by
  unfold State.sendMove
  repeat' with_reducible first | assumption | apply drawWord_sound | apply sendCommand_sound
                                | refine Sound.of_snd ?_ (by assumption) | split | dsimp only

theorem twinEntry_sound (h : Sound q s) {cid : Nat} {tag : Tag}  :
    Sound q (State.twinEntry s cid tag) := by
  unfold State.twinEntry
  repeat' with_reducible first | assumption | apply twinRecord_sound | split | dsimp only

theorem startLeg_sound (h : Sound q s) {cid : Nat} {conv : Conv} {dest : Nat} {requester : Option CmdCtx}  :
    Sound q (State.startLeg s cid conv dest requester) := by
  unfold State.startLeg
  repeat' with_reducible first | assumption | apply endLease_sound | apply modConv_sound | apply sendMove_sound
                                | apply twinRecord_sound | split | dsimp only

theorem drainConv_sound (h : Sound q s) {cid : Nat}  :
    Sound q (State.drainConv s cid) := by
  unfold State.drainConv
  repeat' with_reducible first | assumption | apply drawBelow_sound | apply startLeg_sound
                                | refine Sound.of_snd ?_ (by assumption) | split | dsimp only

theorem offerAt_sound (h : Sound q s) {cid : Nat} {c : Cmd} {ctx : CmdCtx}  :
    Sound q (State.offerAt s cid c ctx) := by
  unfold State.offerAt
  repeat' with_reducible first | assumption | apply finish_sound | apply startLeg_sound | split | dsimp only

theorem undoMove_sound (h : Sound q s) {cid : Nat} {a : Ans}  :
    Sound q (State.undoMove s cid a) := by
  unfold State.undoMove
  repeat' with_reducible first | assumption | apply finishAll_sound | apply modConv_sound | split | dsimp only

theorem dropKept_sound (h : Sound q s) {cid : Nat}  :
    Sound q (State.dropKept s cid) := by
  unfold State.dropKept
  repeat' with_reducible first | assumption | apply closeRecord_sound | refine Sound.foldl (fun _ _ _ => ?_) _ ?_
                                | dsimp only

theorem acceptMove_sound (h : Sound q s) {cid : Nat}  :
    Sound q (State.acceptMove s cid) := by
  unfold State.acceptMove
  repeat' with_reducible first | assumption | apply dropKept_sound | apply modConv_sound | split | dsimp only

theorem moveAccepted_sound (h : Sound q s) {cid : Nat} {reply : List (CmdCtx × Ans)}  :
    Sound q (State.moveAccepted s cid reply) := by
  unfold State.moveAccepted
  repeat' with_reducible first | assumption | apply acceptMove_sound | apply finishAll_sound | apply finish_sound
                                | refine Sound.foldl (fun _ _ _ => ?_) _ ?_ | split | dsimp only

theorem moveCommitted_sound (h : Sound q s) {cid : Nat} {reply : List (CmdCtx × Ans)}  :
    Sound q (State.moveCommitted s cid reply) := by
  unfold State.moveCommitted
  repeat' with_reducible first | assumption | apply acceptMove_sound | apply detachConv_sound | apply finishAll_sound
                                | apply finish_sound | apply leavePage_sound | apply modConv_sound
                                | refine Sound.foldl (fun _ _ _ => ?_) _ ?_ | split | dsimp only

theorem attachPages_sound (hs : Sound q s) {cid : Nat} {h : W64}  :
    Sound q (State.attachPages s cid h) := by
  unfold State.attachPages
  repeat' with_reducible first | assumption | apply addRef_sound | apply modConv_sound | apply modVersion_sound
                                | refine Sound.foldl (fun _ _ _ => ?_) _ ?_ | split | dsimp only

theorem installMove_sound (h : Sound q s) {cid : Nat} {from_ : Nat} {im : Image} {slot : Nat}  :
    Sound q (State.installMove s cid from_ im slot) := by
  unfold State.installMove
  repeat' with_reducible first | assumption | apply attachPages_sound | apply sendMove_sound
                                | refine Sound.foldl (fun _ _ _ => ?_) _ ?_ | split | dsimp only
                                | apply setConvs_sound

theorem moveRecorded_sound (h : Sound q s) {cid : Nat}  :
    Sound q (State.moveRecorded s cid) := by
  unfold State.moveRecorded
  repeat' with_reducible first | assumption | apply modConv_sound | apply releaseWaiting_sound | apply sendMove_sound
                                | split | dsimp only

theorem recordMove_sound (h : Sound q s) {cid : Nat}  :
    Sound q (State.recordMove s cid) := by
  unfold State.recordMove
  repeat' with_reducible first | assumption | apply moveRecorded_sound | apply twinEntry_sound | split | dsimp only

theorem takeLeg_sound (h : Sound q s) {c : Cmd} {ctx : CmdCtx}  :
    Sound q (State.takeLeg s c ctx) := by
  unfold State.takeLeg
  repeat' with_reducible first | assumption | apply finish_sound | apply installMove_sound | apply keepAnswer_sound
                                | apply needTwin_sound | apply recordMove_sound | split | dsimp only

theorem execConvMoveOffer_sound (h : Sound q s) {c : Cmd}  :
    OutSound q (execConvMoveOffer c s) := by
  unfold execConvMoveOffer
  repeat' with_reducible first | assumption | apply finish_sound | apply noPayload_sound | apply offerAt_sound
                                | apply onArrive_sound | apply takeLeg_sound | apply throughGate_sound
                                | apply OutSound.next | split | intro _ | dsimp only

theorem execConvMoveAccept_sound (h : Sound q s) {c : Cmd}  :
    OutSound q (execConvMoveAccept c s) := by
  unfold execConvMoveAccept
  repeat' with_reducible first | assumption | apply finish_sound | apply moveAccepted_sound | apply noPayload_sound
                                | apply onArrive_sound | apply OutSound.next | split | intro _ | dsimp only

theorem execConvMoveCommit_sound (h : Sound q s) {c : Cmd}  :
    OutSound q (execConvMoveCommit c s) := by
  unfold execConvMoveCommit
  repeat' with_reducible first | assumption | apply finish_sound | apply moveCommitted_sound | apply noPayload_sound
                                | apply onArrive_sound | apply OutSound.next | split | intro _ | dsimp only

theorem declineExtent_sound (h : Sound q s) {cid : Nat}  :
    Sound q (State.declineExtent s cid) := by
  unfold State.declineExtent
  repeat' with_reducible first | assumption | apply dropMove_sound | split | dsimp only

theorem execMoveLegReply_sound (h : Sound q s) {cid : Nat} {status : BitVec 8} {reason : W16}  :
    OutSound q (execMoveLegReply cid status reason s) := by
  unfold execMoveLegReply
  repeat' with_reducible first | assumption | apply declineExtent_sound | apply undoMove_sound | apply OutSound.next
                                | split | dsimp only

theorem takeConv_sound (h : Sound q s) {cid : Nat} {c : Conv}  :
    Sound q (State.takeConv s cid c) := by
  unfold State.takeConv
  repeat' with_reducible first | assumption | apply endLease_sound | apply modConv_sound | apply recordMove_sound
                                | split | dsimp only

theorem leaveExtent_sound (h : Sound q s) {cid : Nat} {c : Conv} {m : ExtentMove}  :
    Sound q (State.leaveExtent s cid c m) := by
  unfold State.leaveExtent
  repeat' with_reducible first | assumption | apply dropMove_sound | apply leavePage_sound | apply modConv_sound
                                | apply post_sound | apply twinRecord_sound
                                | refine Sound.foldl (fun _ _ _ => ?_) _ ?_ | split | dsimp only
                                | apply setConvs_sound

theorem sendPages_sound (h : Sound q s) {cid : Nat} {dest : Nat} {id : Nat} {pages : List (PageKey × Nat)}  :
    Sound q (State.sendPages s cid dest id pages).2 := by
  unfold State.sendPages
  repeat' with_reducible first | assumption | apply post_sound | apply soundPage_sound
                                | refine Sound.foldl (fun _ _ _ => ?_) _ ?_
                                | refine Sound.foldlSnd (fun _ _ _ => ?_) _ ?_
                                | refine Sound.of_snd ?_ (by assumption) | split | dsimp only

theorem beginMove_sound (h : Sound q s) {cid : Nat} {first : Nat} {last : Nat} {dest : Nat} {copies : Nat}  :
    Sound q (State.beginMove s cid first last dest copies) := by
  unfold State.beginMove
  repeat' with_reducible first | assumption | rfl | apply modConv_sound | apply modNet_sound | dsimp only

theorem drainExtent_sound (h : Sound q s) {cid : Nat} {c : Conv}  :
    Sound q (State.drainExtent s cid c) := by
  unfold State.drainExtent
  repeat' with_reducible first | assumption | apply beginMove_sound | apply drawBelow_sound | apply leaveExtent_sound
                                | apply sendPages_sound | refine Sound.of_snd ?_ (by assumption) | split | dsimp only

theorem execMoveProbeTimer_sound (h : Sound q s) {cid : Nat}  :
    OutSound q (execMoveProbeTimer cid s) := by
  unfold execMoveProbeTimer
  repeat' with_reducible first | assumption | apply drainConv_sound | apply drainExtent_sound | apply modConv_sound
                                | apply sendMove_sound | apply takeConv_sound | apply OutSound.next | split
                                | dsimp only

theorem execOwnerProbeReply_sound (h : Sound q s) {cid : Nat} {owner : Bool} {committed : Bool} {epoch : Nat}  :
    OutSound q (execOwnerProbeReply cid owner committed epoch s) := by
  unfold execOwnerProbeReply
  repeat' with_reducible first | assumption | apply moveAccepted_sound | apply moveCommitted_sound
                                | apply undoMove_sound | apply OutSound.next | split | dsimp only

theorem execOwnerProbe_sound (h : Sound q s) {c : Cmd}  :
    OutSound q (execOwnerProbe c s) := by
  unfold execOwnerProbe
  repeat' with_reducible first | assumption | apply finish_sound | apply modRecover_sound | apply moveCommitted_sound
                                | apply noPayload_sound | apply onArrive_sound | apply OutSound.next | split | intro _
                                | dsimp only

theorem execMoveDeadline_sound (h : Sound q s) {cid : Nat}  :
    OutSound q (execMoveDeadline cid s) := by
  unfold execMoveDeadline
  repeat' with_reducible first | assumption | apply finish_sound | apply modConv_sound | apply OutSound.next | split
                                | dsimp only

theorem takePage_sound (h : Sound q s) {cid : Nat} {slot : Nat} {l : Layout} {k : PageKey} {twin : Option Nat}  :
    Sound q (State.takePage s cid slot l k twin) := by
  unfold State.takePage
  split
  · exact h
  · next f t e =>
    have ht : Sound q t := Sound.of_some (allocFrame_sound h) e
    have hd : Sound q t.drawBytes.2 := drawBytes_sound ht
    have hg : Sound q (match twin.bind fun j => (t.drawBytes.2.takeGrant j).map fun g => (j, g) with
        | some (j, g, s) => (some (j, g), s)
        | none => (none, t.drawBytes.2)).2 := by
      split
      · next hb =>
        simp only [Option.bind_eq_some_iff, Option.map_eq_some_iff] at hb
        obtain ⟨_, _, g, hg, he⟩ := hb
        cases he
        exact Sound.of_some (takeGrant_sound hd) hg
      · exact hd
    exact twinWhole_sound (twinSats_sound (modConv_sound (modPage_sound (sealPage_sound (modPage_sound (drawSats_sound
      (writeFrame_sound (writeFrame_sound (enterPage_sound hg)))))))))

theorem takeExtent_sound (h : Sound q s) {cid : Nat} {first : Nat} {last : Nat}  :
    Sound q (State.takeExtent s cid first last) := by
  unfold State.takeExtent
  repeat' with_reducible first | assumption | apply drawBelow_sound | apply modConv_sound | apply takePage_sound
                                | apply twinEntry_sound | refine Sound.foldl (fun _ _ _ => ?_) _ ?_
                                | refine Sound.of_snd ?_ (by assumption) | split | dsimp only | apply setConvs_sound

theorem sendExtent_sound (h : Sound q s) {cid : Nat} {c : Conv} {first : Nat} {last : Nat} {dest : Nat}  :
    Sound q (State.sendExtent s cid c first last dest) := by
  unfold State.sendExtent
  repeat' with_reducible first | assumption | apply beginMove_sound | apply sendPages_sound
                                | refine Sound.of_snd ?_ (by assumption) | split | dsimp only

theorem execExtentMoveStart_sound (h : Sound q s) {cid : Nat} {first : Nat} {last : Nat} {dest : Nat}  :
    OutSound q (execExtentMoveStart cid first last dest s) := by
  unfold execExtentMoveStart
  repeat' with_reducible first | assumption | apply sendExtent_sound | apply takeExtent_sound | apply OutSound.next
                                | split | dsimp only

theorem execExtentMovePass_sound (h : Sound q s) {cid : Nat}  :
    OutSound q (execExtentMovePass cid s) := by
  unfold execExtentMovePass
  have he : Sound q (s.expireLease cid) := expireLease_sound h
  repeat' with_reducible first | assumption | dsimp only | apply OutSound.next | apply twinRecord_sound | apply dropMove_sound
                                | apply modConv_sound | split

theorem execExtentSourceRelease_sound (h : Sound q s) {cid : Nat} {first : Nat}  :
    OutSound q (execExtentSourceRelease cid first s) := by
  unfold execExtentSourceRelease
  repeat' with_reducible first | assumption | apply dropMove_sound | apply leavePage_sound | apply waitFor_sound
                                | apply OutSound.next | refine Sound.foldl (fun _ _ _ => ?_) _ ?_ | split | dsimp only


end Sys2Proof.Machine
end

