-- ==== Sys2Proof/Laws/SoundRegion.lean ====
section
/-! SUPPORT. That every operation of Machine/Region.lean keeps what every step keeps. -/
set_option Elab.async false

namespace Sys2Proof.Machine

variable {q : List Instr} {s : State}

theorem createRegion_sound (h : Sound q s) {c : Cmd} {ctx : CmdCtx}  :
    Sound q (State.createRegion s c ctx) := by
  unfold State.createRegion
  repeat' with_reducible first | assumption | apply allocFrames_sound | apply drawWord_sound | apply finish_sound
                                | apply modRegions_sound | apply pressure_sound
                                | refine Sound.of_snd ?_ (by assumption) | refine Sound.of_some ?_ (by assumption)
                                | split | dsimp only

theorem takeKey_sound (h : Sound q s) {region : W64} {write : Bool} {read : Bool}  :
    OptSound q (State.takeKey s region write read) := by
  unfold State.takeKey
  repeat' with_reducible first | assumption | apply drawBelow_sound | apply modRegions_sound | apply OptSound.none
                                | apply OptSound.some | apply OptSound.ofPair | refine Sound.of_snd ?_ (by assumption)
                                | split | dsimp only

theorem registerRegion_sound (h : Sound q s) {c : Cmd} {ctx : CmdCtx}  :
    Sound q (State.registerRegion s c ctx) := by
  unfold State.registerRegion
  repeat' with_reducible first | assumption | apply finish_sound | apply noPayload_sound | apply takeKey_sound
                                | refine Sound.of_snd ?_ (by assumption) | refine Sound.of_some ?_ (by assumption)
                                | split | intro _ | dsimp only

theorem revokeKey_sound (h : Sound q s) {i : Nat} {ctx : Option CmdCtx} {region : W64}  :
    Sound q (State.revokeKey s i ctx region) := by
  unfold State.revokeKey
  repeat' with_reducible first | assumption | apply freeKey_sound | apply modRegions_sound | dsimp only

theorem revokeRegion_sound (h : Sound q s) {c : Cmd} {ctx : CmdCtx}  :
    Sound q (State.revokeRegion s c ctx) := by
  unfold State.revokeRegion
  repeat' with_reducible first | assumption | apply finish_sound | apply noPayload_sound | apply revokeKey_sound
                                | split | intro _ | dsimp only

theorem settleRegion_sound (h : Sound q s) {id : W64}  :
    Sound q (State.settleRegion s id) := by
  unfold State.settleRegion
  repeat' with_reducible first | assumption | apply finish_sound | apply freeFrame_sound | apply modRegions_sound
                                | refine Sound.foldl (fun _ _ _ => ?_) _ ?_ | split | dsimp only

theorem endRevoke_sound (h : Sound q s) {v : Revoke}  :
    Sound q (State.endRevoke s v) := by
  unfold State.endRevoke
  repeat' with_reducible first | assumption | apply finish_sound | apply modRegions_sound | apply settleRegion_sound
                                | split | dsimp only

theorem execRevokeComplete_sound (h : Sound q s) {sequence : Nat}  :
    OutSound q (execRevokeComplete sequence s) := by
  unfold execRevokeComplete
  repeat' with_reducible first | assumption | apply endRevoke_sound | apply OutSound.next | split | dsimp only

theorem execRevokeDeadline_sound (h : Sound q s) {sequence : Nat}  :
    OutSound q (execRevokeDeadline sequence s) := by
  unfold execRevokeDeadline
  repeat' with_reducible first | assumption | apply bump_sound | apply endRevoke_sound | apply modQp_sound
                                | apply qpError_sound | apply OutSound.next
                                | refine Sound.foldl (fun _ _ _ => ?_) _ ?_ | split | dsimp only

theorem poisonRegion_sound (h : Sound q s) {id : W64}  :
    Sound q (State.poisonRegion s id) := by
  unfold State.poisonRegion
  repeat' with_reducible first | assumption | apply modRegion_sound | split | dsimp only

theorem checkRegion_sound (h : Sound q s) {id : W64} {r : Region} {off : Nat} {n : Nat}  :
    Sound q (State.checkRegion s id r off n).2 := by
  unfold State.checkRegion
  repeat' with_reducible first | assumption | apply checkFrame_sound | apply poisonRegion_sound
                                | apply retireFrame_sound | refine Sound.foldl (fun _ _ _ => ?_) _ ?_
                                | refine Sound.foldlSnd (fun _ _ _ => ?_) _ ?_
                                | refine Sound.of_snd ?_ (by assumption) | split | dsimp only

theorem publishRefusal_sound (h : Sound q s) {c : Cmd}  :
    OptSound q (State.publishRefusal s c) := by
  unfold State.publishRefusal
  repeat' with_reducible first | assumption | apply pressure_sound | apply OptSound.none | apply OptSound.some
                                | apply OptSound.ofPair | refine Sound.of_snd ?_ (by assumption)
                                | refine Sound.of_some ?_ (by assumption) | split | dsimp only

theorem takeGrants_sound (h : Sound q s) {twins : List Nat} {n : Nat}  :
    Sound q (State.takeGrants s twins n).2 := by
  unfold State.takeGrants
  repeat' with_reducible first | assumption | apply takeGrant_sound | refine Sound.foldl (fun _ _ _ => ?_) _ ?_
                                | refine Sound.foldlSnd (fun _ _ _ => ?_) _ ?_
                                | refine Sound.of_snd ?_ (by assumption) | refine Sound.of_some ?_ (by assumption)
                                | split | dsimp only

theorem beginPublish_sound (h : Sound q s) {c : Cmd} {ctx : CmdCtx}  :
    Sound q (State.beginPublish s c ctx) := by
  unfold State.beginPublish
  repeat' with_reducible first | assumption | apply allocFrames_sound | apply checkRegion_sound | apply finish_sound
                                | apply modRegions_sound | apply publishRefusal_sound | apply takeGrants_sound
                                | refine Sound.of_snd ?_ (by assumption) | refine Sound.of_some ?_ (by assumption)
                                | refine Sound.of_snd2 ?_ (by assumption) | split | dsimp only

theorem attachSubscriber_sound (hs : Sound q s) {h : W64} {sub : Nat}  :
    Sound q (State.attachSubscriber s h sub) := by
  unfold State.attachSubscriber
  repeat' with_reducible first | assumption | apply modVersion_sound | dsimp only

theorem dropPublication_sound (h : Sound q s) {k : Nat}  :
    Sound q (State.dropPublication s k) := by
  unfold State.dropPublication
  repeat' with_reducible first | assumption | apply freeFrame_sound | apply modRegions_sound | apply returnGrant_sound
                                | refine Sound.foldl (fun _ _ _ => ?_) _ ?_ | split | dsimp only

theorem endPublication_sound (h : Sound q s) {k : Nat} {a : Ans}  :
    Sound q (State.endPublication s k a) := by
  unfold State.endPublication
  repeat' with_reducible first | assumption | apply dropPublication_sound | apply finish_sound | split | dsimp only

theorem enterVersion_sound (hs : Sound q s) {h : W64} {p : Publication} {l : Layout} {slot : Nat} {tokens : Nat} {head : Nat} {twins : List Nat}  :
    Sound q (State.enterVersion s h p l slot tokens head twins).2 := by
  unfold State.enterVersion
  repeat' with_reducible first | assumption | rfl | apply modTiers_sound | apply spreadSats_sound
                                | apply useFrame_sound | apply writeFrame_sound
                                | refine Sound.foldl (fun _ _ _ => ?_) _ ?_
                                | refine Sound.foldlSnd (fun _ _ _ => ?_) _ ?_
                                | refine Sound.of_snd ?_ (by assumption) | split | dsimp only

theorem twinVersion_sound (h : Sound q s) {k : Nat} {pids : List Nat} {second : Bool}  :
    Sound q (State.twinVersion s k pids second).2 := by
  unfold State.twinVersion
  repeat' with_reducible first | assumption | apply twinWrite_sound | refine Sound.foldl (fun _ _ _ => ?_) _ ?_
                                | refine Sound.foldlSnd (fun _ _ _ => ?_) _ ?_ | split | dsimp only

theorem tellVersion_sound (hs : Sound q s) {h : W64} {name : W64}  :
    Sound q (State.tellVersion s h name) := by
  unfold State.tellVersion
  repeat' with_reducible first | assumption | apply post_sound | refine Sound.foldl (fun _ _ _ => ?_) _ ?_ | split
                                | dsimp only

theorem newVersion_sound (hs : Sound q s) {k : Nat} {p : Publication} {h : W64}  :
    Sound q (State.newVersion s k p h) := by
  unfold State.newVersion
  repeat' with_reducible first | assumption | apply drawWord_sound | apply endPublication_sound
                                | apply enterVersion_sound | apply freeFrame_sound | apply modRegions_sound
                                | apply modVersion_sound | apply returnGrant_sound | apply tellVersion_sound
                                | apply twinVersion_sound | refine Sound.foldl (fun _ _ _ => ?_) _ ?_
                                | refine Sound.of_snd ?_ (by assumption) | split | dsimp only

theorem publishHeld_sound (hs : Sound q s) {k : Nat} {p : Publication} {h : W64} {v : Version}  :
    Sound q (State.publishHeld s k p h v) := by
  unfold State.publishHeld
  repeat' with_reducible first | assumption | apply attachSubscriber_sound | apply endPublication_sound
                                | apply modRegions_sound | apply tellVersion_sound | split | dsimp only

theorem decidePublication_sound (h : Sound q s) {k : Nat} {p : Publication}  :
    Sound q (State.decidePublication s k p) := by
  unfold State.decidePublication
  repeat' with_reducible first | assumption | apply bump_sound | apply endPublication_sound | apply newVersion_sound
                                | apply publishHeld_sound | split | dsimp only

theorem decideNext_sound (h : Sound q s) {name : W64} {fuel : Nat}  :
    Sound q (State.decideNext s name fuel) := by
  induction fuel generalizing s with
  | zero => exact h
  | succ n ih =>
    unfold State.decideNext
    split
    · exact h
    · split
      · exact ih (decidePublication_sound h)
      · exact h

theorem copyDone_sound (h : Sound q s) {k : Nat}  :
    Sound q (State.copyDone s k) := by
  unfold State.copyDone
  repeat' with_reducible first | assumption | apply decideNext_sound | apply endPublication_sound
                                | apply modRegions_sound | split | dsimp only

theorem execPublishCopyDone_sound (h : Sound q s) {publication : Nat}  :
    OutSound q (execPublishCopyDone publication s) := by
  unfold execPublishCopyDone
  repeat' with_reducible first | assumption | apply copyDone_sound | apply OutSound.next | dsimp only

theorem camInsert_sound (hs : Sound q s) {h : W64}  :
    Sound q (State.camInsert s h) := by
  unfold State.camInsert
  repeat' with_reducible first | assumption | apply bump_sound | apply modVersion_sound
                                | refine Sound.foldl (fun _ _ _ => ?_) _ ?_
                                | refine Sound.foldlSnd (fun _ _ _ => ?_) _ ?_ | split | dsimp only

theorem verifyHits_sound (h : Sound q s) {model : W64} {chunk : Nat} {toks : List Byte} {k : Nat} {hits : List (W64 × Version)}  :
    Sound q (State.verifyHits s model chunk toks k hits).2 := by
  induction hits generalizing s with
  | nil => exact h
  | cons x rest ih =>
    unfold State.verifyHits
    split
    next e1 =>
    split
    next e2 =>
    have h2 := Sound.of_snd (injected_sound (Sound.of_snd (sramRead_sound h) e1)) e2
    split
    · exact h2
    · exact ih (bump_sound h2)

theorem lookupFrom_sound (h : Sound q s) {model : W64} {chunk : Nat} {toks : List Byte} {chain : List (List Byte)} {k : Nat}  :
    Sound q (State.lookupFrom s model chunk toks chain k).2 := by
  induction k generalizing s with
  | zero => exact h
  | succ n ih =>
    unfold State.lookupFrom
    split
    · next e => exact Sound.of_snd (verifyHits_sound h) e
    · next e => exact ih (Sound.of_snd (verifyHits_sound h) e)

theorem execPrefixLookup_sound (h : Sound q s) {c : Cmd}  :
    OutSound q (execPrefixLookup c s) := by
  unfold execPrefixLookup
  repeat' with_reducible first | assumption | apply finish_sound | apply lookupFrom_sound | apply onArrive_sound
                                | apply OutSound.next | refine Sound.of_snd ?_ (by assumption)
                                | refine Sound.of_some ?_ (by assumption) | refine Sound.of_snd2 ?_ (by assumption)
                                | split | intro _ | dsimp only

theorem takePublishAcks_sound (hs : Sound q s) {k : Nat} {h : W64}  :
    Sound q (State.takePublishAcks s k h) := by
  unfold State.takePublishAcks
  repeat' with_reducible first | assumption | rfl | apply modNet_sound | apply modVersion_sound | dsimp only

theorem execPublishTwinned_sound (h : Sound q s) {publication : Nat}  :
    OutSound q (execPublishTwinned publication s) := by
  unfold execPublishTwinned
  repeat' with_reducible first | assumption | apply attachSubscriber_sound | apply camInsert_sound
                                | apply decideNext_sound | apply endPublication_sound | apply freeVersion_sound
                                | apply modVersion_sound | apply takePublishAcks_sound | apply OutSound.next | split
                                | dsimp only

theorem execPublishTimeout_sound (h : Sound q s) {publication : Nat}  :
    OutSound q (execPublishTimeout publication s) := by
  unfold execPublishTimeout
  repeat' with_reducible first | assumption | apply decideNext_sound | apply endPublication_sound
                                | apply freeVersion_sound | apply OutSound.next | split | dsimp only

theorem commitPrefix_sound (h : Sound q s) {cid : Nat} {ctx : CmdCtx}  :
    Sound q (State.commitPrefix s cid ctx) := by
  unfold State.commitPrefix
  repeat' with_reducible first | assumption | apply finishTwinned_sound | apply modConv_sound | split | dsimp only

theorem attachPrefix_sound (hs : Sound q s) {cid : Nat} {c : Conv} {h : W64} {v : Version} {l : Layout} {cmd : Cmd} {ctx : CmdCtx}  :
    Sound q (State.attachPrefix s cid c h v l cmd ctx) := by
  unfold State.attachPrefix
  repeat' with_reducible first | assumption | rfl | exact modifyAt_length _ _ _ | exact setAt_length _ _ _
                                | exact List.length_map _ | apply attachPages_sound | apply blocked_sound
                                | apply commitPrefix_sound | apply copyInto_sound | apply discardTail_sound
                                | apply finish_sound | apply leavePage_sound | apply modConv_sound
                                | apply modNet_sound | apply releaseAttach_sound | apply roomFor_sound
                                | apply stayAtRow_sound | refine Sound.foldl (fun _ _ _ => ?_) _ ?_
                                | refine Sound.of_snd ?_ (by assumption) | refine Sound.of_some ?_ (by assumption)
                                | split | dsimp only

theorem attachAt_sound (hs : Sound q s) {cid : Nat} {h : W64} {cmd : Cmd} {ctx : CmdCtx}  :
    Sound q (State.attachAt s cid h cmd ctx) := by
  unfold State.attachAt
  repeat' with_reducible first | assumption | apply attachPrefix_sound | apply finishTwinned_sound
                                | apply finish_sound | apply modConv_sound | apply releaseAttach_sound | split
                                | dsimp only

theorem attachRegion_sound (h : Sound q s) {c : Cmd} {ctx : CmdCtx}  :
    Sound q (State.attachRegion s c ctx) := by
  unfold State.attachRegion
  repeat' with_reducible first | assumption | apply attachAt_sound | apply attachSubscriber_sound | apply finish_sound
                                | apply modVersion_sound | apply noPayload_sound | apply throughGate_sound | split
                                | intro _ | dsimp only

theorem detachAt_sound (hs : Sound q s) {cid : Nat} {h : W64} {ctx : CmdCtx}  :
    Sound q (State.detachAt s cid h ctx) := by
  unfold State.detachAt
  repeat' with_reducible first | assumption | apply detachConv_sound | apply finishTwinned_sound | apply finish_sound
                                | split | dsimp only

theorem destroyRegion_sound (h : Sound q s) {id : W64} {r : Region} {ctx : CmdCtx}  :
    Sound q (State.destroyRegion s id r ctx) := by
  unfold State.destroyRegion
  repeat' with_reducible first | assumption | apply finish_sound | apply modRegion_sound | apply revokeKey_sound
                                | apply settleRegion_sound | refine Sound.foldl (fun _ _ _ => ?_) _ ?_ | split
                                | dsimp only

theorem detachRegion_sound (h : Sound q s) {c : Cmd} {ctx : CmdCtx}  :
    Sound q (State.detachRegion s c ctx) := by
  unfold State.detachRegion
  repeat' with_reducible first | assumption | apply destroyRegion_sound | apply detachAt_sound | apply finish_sound
                                | apply modVersion_sound | apply noPayload_sound | apply reapVersion_sound
                                | apply throughGate_sound | split | intro _ | dsimp only

theorem execSpillTargetAdd_sound (h : Sound q s) {c : Cmd}  :
    OutSound q (execSpillTargetAdd c s) := by
  unfold execSpillTargetAdd
  repeat' with_reducible first | assumption | rfl | apply finish_sound | apply modTiers_sound | apply onArrive_sound
                                | apply OutSound.next | split | intro _ | dsimp only


end Sys2Proof.Machine
end

