-- ==== Sys2Proof/Laws/SoundNear.lean ====
section
/-! SUPPORT. That every operation of Machine/Near.lean keeps what every step keeps. -/
set_option Elab.async false

namespace Sys2Proof.Machine

variable {q : List Instr} {s : State}

theorem readRange_sound (h : Sound q s) {id : W64} {off : Nat} {n : Nat}  :
    Sound q (State.readRange s id off n).2 := by
  unfold State.readRange
  repeat' with_reducible first | assumption | apply checkRegion_sound | apply soundPage_sound
                                | refine Sound.foldl (fun _ _ _ => ?_) _ ?_
                                | refine Sound.foldlSnd (fun _ _ _ => ?_) _ ?_
                                | refine Sound.of_snd ?_ (by assumption) | split | dsimp only

theorem writeRange_sound (h : Sound q s) {id : W64} {off : Nat} {bs : List Byte}  :
    Sound q (State.writeRange s id off bs) := by
  unfold State.writeRange
  repeat' with_reducible first | assumption | apply writeRegion_sound | split | dsimp only

theorem queueNear_sound (h : Sound q s) {ctx : CmdCtx} {kind : NearKind} {region : W64} {off : Nat} {n : Nat} {own : Option Nat}  :
    Sound q (State.queueNear s ctx kind region off n own) := by
  unfold State.queueNear
  repeat' with_reducible first | assumption | apply modRegions_sound | dsimp only

theorem nearArrive_sound (h : Sound q s) {c : Cmd} {ctx : CmdCtx} {kind : NearKind}  :
    Sound q (State.nearArrive s c ctx kind) := by
  unfold State.nearArrive
  repeat' with_reducible first | assumption | apply finish_sound | apply queueNear_sound | split | dsimp only

theorem fillRegion_sound (h : Sound q s) {c : Cmd} {ctx : CmdCtx}  :
    Sound q (State.fillRegion s c ctx) := by
  unfold State.fillRegion
  repeat' with_reducible first | assumption | apply finish_sound | apply nearArrive_sound | split | dsimp only

theorem copyRegion_sound (h : Sound q s) {c : Cmd} {ctx : CmdCtx}  :
    Sound q (State.copyRegion s c ctx) := by
  unfold State.copyRegion
  repeat' with_reducible first | assumption | apply finish_sound | apply nearArrive_sound | split | dsimp only

theorem compareRegion_sound (h : Sound q s) {c : Cmd} {ctx : CmdCtx}  :
    Sound q (State.compareRegion s c ctx) := by
  unfold State.compareRegion
  repeat' with_reducible first | assumption | apply finish_sound | apply queueNear_sound | split | dsimp only

theorem countRefused_sound (h : Sound q s) {a : Ans}  :
    Sound q (State.countRefused s a) := by
  unfold State.countRefused
  repeat' with_reducible first | assumption | apply bump_sound | split | dsimp only

theorem reduceInto_sound (h : Sound q s) {id : W64} {off : Nat} {record : List Byte}  :
    Sound q (State.reduceInto s id off record).2 := by
  unfold State.reduceInto
  repeat' with_reducible first | assumption | apply bump_sound | apply countRefused_sound | apply readRange_sound
                                | apply writeRange_sound | refine Sound.of_snd ?_ (by assumption) | split | dsimp only

theorem reduceRegion_sound (h : Sound q s) {c : Cmd} {ctx : CmdCtx}  :
    Sound q (State.reduceRegion s c ctx) := by
  unfold State.reduceRegion
  repeat' with_reducible first | assumption | apply checkNoted_sound | apply checkStruck_sound
                                | apply countRefused_sound | apply finish_sound | apply queueNear_sound
                                | refine Sound.of_snd ?_ (by assumption) | split | dsimp only


end Sys2Proof.Machine
end

