-- ==== Sys2Proof/Laws/SoundArbiter.lean ====
section
/-! SUPPORT. That every operation of Machine/Arbiter.lean keeps what every step keeps. -/
set_option Elab.async false

namespace Sys2Proof.Machine

variable {q : List Instr} {s : State}

theorem arbiterPass_sound (h : Sound q s) {c : Cmd} {ctx : CmdCtx}  :
    Sound q (State.arbiterPass s c ctx) := by
  unfold State.arbiterPass
  repeat' with_reducible first | assumption | apply attachRegion_sound | apply beginPublish_sound
                                | apply compareRegion_sound | apply copyRegion_sound | apply createRegion_sound
                                | apply detachRegion_sound | apply fillRegion_sound | apply reduceRegion_sound
                                | apply registerRegion_sound | apply revokeRegion_sound | split | dsimp only

theorem passWaiting_sound (h : Sound q s) {fuel : Nat}  :
    Sound q (State.passWaiting s fuel) := by
  induction fuel generalizing s with
  | zero => exact h
  | succ n ih =>
    unfold State.passWaiting
    split
    · exact h
    · exact ih (arbiterPass_sound (modRegions_sound h))

theorem passRegions_sound (h : Sound q s)   :
    Sound q (State.passRegions s) := by
  unfold State.passRegions
  repeat' with_reducible first | assumption | apply passWaiting_sound | dsimp only

theorem atArbiter_sound (h : Sound q s) {c : Cmd} {ctx : CmdCtx} {pass : State → State} (hpass : ∀ t, Sound q t → Sound q (pass t)) :
    Sound q (State.atArbiter s c ctx pass) := by
  unfold State.atArbiter
  repeat' with_reducible first | assumption | apply hpass | apply modRegions_sound | apply passRegions_sound | split
                                | dsimp only

theorem execRegionCreate_sound (h : Sound q s) {c : Cmd}  :
    OutSound q (execRegionCreate c s) := by
  unfold execRegionCreate
  repeat' with_reducible first | assumption | apply atArbiter_sound | apply createRegion_sound | apply onArrive_sound
                                | apply OutSound.next | intro _ | dsimp only

theorem execRegionRegister_sound (h : Sound q s) {c : Cmd}  :
    OutSound q (execRegionRegister c s) := by
  unfold execRegionRegister
  repeat' with_reducible first | assumption | apply atArbiter_sound | apply onArrive_sound
                                | apply registerRegion_sound | apply OutSound.next | intro _ | dsimp only

theorem execRegionRevoke_sound (h : Sound q s) {c : Cmd}  :
    OutSound q (execRegionRevoke c s) := by
  unfold execRegionRevoke
  repeat' with_reducible first | assumption | apply atArbiter_sound | apply onArrive_sound | apply revokeRegion_sound
                                | apply OutSound.next | intro _ | dsimp only

theorem execRegionPublish_sound (h : Sound q s) {c : Cmd}  :
    OutSound q (execRegionPublish c s) := by
  unfold execRegionPublish
  repeat' with_reducible first | assumption | apply atArbiter_sound | apply beginPublish_sound | apply onArrive_sound
                                | apply OutSound.next | intro _ | dsimp only

theorem execRegionAttach_sound (h : Sound q s) {c : Cmd}  :
    OutSound q (execRegionAttach c s) := by
  unfold execRegionAttach
  repeat' with_reducible first | assumption | apply atArbiter_sound | apply attachRegion_sound | apply onArrive_sound
                                | apply OutSound.next | intro _ | dsimp only

theorem execRegionDetach_sound (h : Sound q s) {c : Cmd}  :
    OutSound q (execRegionDetach c s) := by
  unfold execRegionDetach
  repeat' with_reducible first | assumption | apply atArbiter_sound | apply detachRegion_sound | apply onArrive_sound
                                | apply OutSound.next | intro _ | dsimp only

theorem execNearFill_sound (h : Sound q s) {c : Cmd}  :
    OutSound q (execNearFill c s) := by
  unfold execNearFill
  repeat' with_reducible first | assumption | apply atArbiter_sound | apply fillRegion_sound | apply onArrive_sound
                                | apply OutSound.next | intro _ | dsimp only

theorem execNearCopy_sound (h : Sound q s) {c : Cmd}  :
    OutSound q (execNearCopy c s) := by
  unfold execNearCopy
  repeat' with_reducible first | assumption | apply atArbiter_sound | apply copyRegion_sound | apply onArrive_sound
                                | apply OutSound.next | intro _ | dsimp only

theorem execNearCompare_sound (h : Sound q s) {c : Cmd}  :
    OutSound q (execNearCompare c s) := by
  unfold execNearCompare
  repeat' with_reducible first | assumption | apply atArbiter_sound | apply compareRegion_sound | apply onArrive_sound
                                | apply OutSound.next | intro _ | dsimp only

theorem execNearReduce_sound (h : Sound q s) {c : Cmd}  :
    OutSound q (execNearReduce c s) := by
  unfold execNearReduce
  repeat' with_reducible first | assumption | apply atArbiter_sound | apply onArrive_sound | apply reduceRegion_sound
                                | apply OutSound.next | intro _ | dsimp only

theorem execAttachLeaseExpiry_sound (h : Sound q s) {handle : Nat} {subscriber : Nat}  :
    OutSound q (execAttachLeaseExpiry handle subscriber s) := by
  unfold execAttachLeaseExpiry
  repeat' with_reducible first | assumption | apply bump_sound | apply modVersion_sound | apply reapVersion_sound
                                | apply OutSound.next | split | dsimp only


end Sys2Proof.Machine
end

