-- ==== Sys2Proof/Laws/SoundAttn.lean ====
section
/-! SUPPORT. That every operation of Machine/Attn.lean keeps what every step keeps. -/
set_option Elab.async false

namespace Sys2Proof.Machine

variable {q : List Instr} {s : State}

theorem readPageFor_sound (h : Sound q s) {ctx : Nat} {pid : Nat}  :
    Sound q (State.readPageFor s ctx pid).2 := by
  unfold State.readPageFor
  repeat' with_reducible first | assumption | apply soundPage_sound | apply stallReq_sound
                                | refine Sound.of_snd ?_ (by assumption) | split | dsimp only

theorem ownCandidates_sound (h : Sound q s) {ctx : Nat} {r : Req} {l : Layout}  :
    Sound q (State.ownCandidates s ctx r l).2 := by
  unfold State.ownCandidates
  repeat' with_reducible first | assumption | apply readPageFor_sound | refine Sound.foldl (fun _ _ _ => ?_) _ ?_
                                | refine Sound.foldlSnd (fun _ _ _ => ?_) _ ?_
                                | refine Sound.of_snd ?_ (by assumption) | split | dsimp only

theorem openForward_sound (h : Sound q s) {f : Forward} {cmd : Cmd} {ctx : CmdCtx} {c : Conv} {l : Layout} {g : Graze} {exact : Bool} {cairn : Bool}  :
    Sound q (State.openForward s f cmd ctx c l g exact cairn) := by
  unfold State.openForward
  repeat' with_reducible first | assumption | rfl | exact modifyAt_length _ _ _ | exact setAt_length _ _ _
                                | exact List.length_map _ | apply beginReq_sound | apply endReq_sound
                                | apply foresee_sound | apply holdPages_sound | apply modAttn_sound
                                | apply useVersion_sound | refine Sound.foldl (fun _ _ _ => ?_) _ ?_ | split
                                | dsimp only

theorem takeForward_sound (h : Sound q s) {cmd : Cmd} {ctx : CmdCtx} {exact : Bool} {cairn : Bool}  :
    Sound q (State.takeForward s cmd ctx exact cairn) := by
  unfold State.takeForward
  repeat' with_reducible first | assumption | apply finish_sound | apply openForward_sound | split | dsimp only

theorem startSumming_sound (h : Sound q s) {ctx : Nat} {r : Req} {l : Layout} {anchors : List Int} {selected : List (List (Nat × W32))}  :
    Sound q (State.startSumming s ctx r l anchors selected) := by
  unfold State.startSumming
  repeat' with_reducible first | assumption | apply issueReq_sound | apply modReq_sound | dsimp only

theorem continueForward_sound (h : Sound q s) {cmd : Cmd} {ctx : CmdCtx}  :
    Sound q (State.continueForward s cmd ctx) := by
  unfold State.continueForward
  repeat' with_reducible first | assumption | apply bump_sound | apply checkNoted_sound | apply endReq_sound
                                | apply finish_sound | apply modReq_sound | apply release_sound
                                | apply startSumming_sound | apply unitStruck_sound
                                | refine Sound.of_snd ?_ (by assumption) | split | dsimp only

theorem takeAttention_sound (h : Sound q s) {c : Cmd} {ctx : CmdCtx}  :
    Sound q (State.takeAttention s c ctx) := by
  unfold State.takeAttention
  repeat' with_reducible first | assumption | apply attendAt_sound | apply continueForward_sound
                                | apply takeForward_sound | apply throughGate_sound | split | intro _ | dsimp only

theorem execAttnGraze_sound (h : Sound q s) {c : Cmd}  :
    OutSound q (execAttnGraze c s) := by
  unfold execAttnGraze
  repeat' with_reducible first | assumption | apply onArrive_sound | apply takeAttention_sound | apply OutSound.next
                                | intro _ | dsimp only

theorem execAttnGrazeExact_sound (h : Sound q s) {c : Cmd}  :
    OutSound q (execAttnGrazeExact c s) := by
  unfold execAttnGrazeExact
  repeat' with_reducible first | assumption | apply onArrive_sound | apply takeAttention_sound | apply OutSound.next
                                | intro _ | dsimp only

theorem execAttnCairn_sound (h : Sound q s) {c : Cmd}  :
    OutSound q (execAttnCairn c s) := by
  unfold execAttnCairn
  repeat' with_reducible first | assumption | apply onArrive_sound | apply takeAttention_sound | apply OutSound.next
                                | intro _ | dsimp only

theorem execGrazeForward_sound (h : Sound q s) {c : Cmd}  :
    OutSound q (execGrazeForward c s) := by
  unfold execGrazeForward
  repeat' with_reducible first | assumption | apply onArrive_sound | apply takeAttention_sound | apply OutSound.next
                                | intro _ | dsimp only

theorem execContinueForward_sound (h : Sound q s) {c : Cmd}  :
    OutSound q (execContinueForward c s) := by
  unfold execContinueForward
  repeat' with_reducible first | assumption | apply onArrive_sound | apply takeAttention_sound | apply OutSound.next
                                | intro _ | dsimp only

theorem sendContinues_sound (h : Sound q s) {ctx : Nat} {r : Req} {rest : Nat → Participant → List Byte}  :
    Sound q (State.sendContinues s ctx r rest) := by
  unfold State.sendContinues
  repeat' with_reducible first | assumption | apply sendForward_sound | refine Sound.foldl (fun _ _ _ => ?_) _ ?_
                                | split | dsimp only

theorem advance_sound (h : Sound q s) {ctx : Nat}  :
    Sound q (State.advance s ctx) := by
  unfold State.advance
  repeat' with_reducible first | assumption | apply endReq_sound | apply modReq_sound | apply sendContinues_sound
                                | apply startSumming_sound | split | dsimp only

theorem regionNode_sound (h : Sound q s)   :
    Sound q (State.regionNode s).2 := by
  unfold State.regionNode
  repeat' with_reducible first | assumption | apply drawBelow_sound | refine Sound.of_snd ?_ (by assumption) | split
                                | dsimp only

theorem recordDelivered_sound (h : Sound q s) {ctx : Nat}  :
    Sound q (State.recordDelivered s ctx) := by
  unfold State.recordDelivered
  repeat' with_reducible first | assumption | apply advance_sound | apply endReq_sound | apply modReq_sound | split
                                | dsimp only

theorem reduceOwn_sound (h : Sound q s) {ctx : Nat} {r : Req} {record : List Byte}  :
    Sound q (State.reduceOwn s ctx r record) := by
  unfold State.reduceOwn
  repeat' with_reducible first | assumption | apply drawWord_sound | apply endReq_sound | apply modReq_sound
                                | apply queueNear_sound | apply regionNode_sound | apply sendCommand_sound
                                | refine Sound.of_snd ?_ (by assumption) | split | dsimp only

theorem hostOwn_sound (h : Sound q s) {ctx : Nat} {r : Req} {record : List Byte}  :
    Sound q (State.hostOwn s ctx r record) := by
  unfold State.hostOwn
  repeat' with_reducible first | assumption | apply endReq_sound | apply modReq_sound | apply writeChain_sound | split
                                | dsimp only

theorem landAtHome_sound (h : Sound q s) {r : Req} {record : List Byte}  :
    Sound q (State.landAtHome s r record) := by
  unfold State.landAtHome
  repeat' with_reducible first | assumption | apply post_sound | dsimp only

theorem ownSum_sound (h : Sound q s) {ctx : Nat} {r : Req} {l : Layout}  :
    Sound q (State.ownSum s ctx r l) := by
  unfold State.ownSum
  repeat' with_reducible first | assumption | apply advance_sound | apply bump_sound | apply endReq_sound
                                | apply hostOwn_sound | apply landAtHome_sound | apply modReq_sound
                                | apply reduceOwn_sound | split | dsimp only

theorem firstDone_sound (h : Sound q s) {ctx : Nat} {r : Req} {record : List Byte}  :
    Sound q (State.firstDone s ctx r record) := by
  unfold State.firstDone
  repeat' with_reducible first | assumption | apply advance_sound | apply landAtHome_sound | apply modReq_sound
                                | split | dsimp only

theorem partialComplete_sound (h : Sound q s) {ctx : Nat}  :
    Sound q (State.partialComplete s ctx) := by
  unfold State.partialComplete
  repeat' with_reducible first | assumption | apply firstDone_sound | apply modReq_sound | apply ownCandidates_sound
                                | apply ownSum_sound | refine Sound.of_snd ?_ (by assumption)
                                | refine Sound.of_some ?_ (by assumption) | refine Sound.of_snd2 ?_ (by assumption)
                                | split | dsimp only

theorem execNearReduceReply_sound (h : Sound q s) {ctx : Nat} {status : BitVec 8} {reason : W16}  :
    OutSound q (execNearReduceReply ctx status reason s) := by
  unfold execNearReduceReply
  repeat' with_reducible first | assumption | apply endReq_sound | apply recordDelivered_sound | apply OutSound.next
                                | split | dsimp only

theorem sampleReply_sound (h : Sound q s) {node : Nat} {t : Nat}  :
    Sound q (State.sampleReply s node t) := by
  unfold State.sampleReply
  repeat' with_reducible first | assumption | rfl | apply modAttn_sound | dsimp only

theorem placeRecord_sound (h : Sound q s) {ctx : Nat} {k : Nat} {b : List Byte}  :
    Sound q (State.placeRecord s ctx k b) := by
  unfold State.placeRecord
  repeat' with_reducible first | assumption | apply advance_sound | apply bump_sound | apply endReq_sound
                                | apply modReq_sound | apply sampleReply_sound
                                | refine Sound.foldl (fun _ _ _ => ?_) _ ?_ | split | dsimp only

theorem placeHeld_sound (h : Sound q s) {ctx : Nat} {fuel : Nat}  :
    Sound q (State.placeHeld s ctx fuel) := by
  induction fuel generalizing s with
  | zero => exact h
  | succ n ih =>
    unfold State.placeHeld
    split
    · exact h
    · split
      · exact h
      · exact ih (placeRecord_sound (modReq_sound h))

theorem placeTurn_sound (h : Sound q s) {ctx : Nat}  :
    Sound q (State.placeTurn s ctx) := by
  unfold State.placeTurn
  repeat' with_reducible first | assumption | apply placeHeld_sound | dsimp only

theorem placeAll_sound (h : Sound q s)   :
    Sound q (State.placeAll s) := by
  unfold State.placeAll
  repeat' with_reducible first | assumption | apply placeTurn_sound | refine Sound.foldl (fun _ _ _ => ?_) _ ?_
                                | dsimp only

theorem execHomePartialComplete_sound (h : Sound q s) {ctx : Nat}  :
    OutSound q (execHomePartialComplete ctx s) := by
  unfold execHomePartialComplete
  repeat' with_reducible first | assumption | apply partialComplete_sound | apply placeTurn_sound
                                | apply OutSound.next | dsimp only

theorem execLandingRecordPlace_sound (h : Sound q s) {p : QpPsn} {slot : Nat} {data : List Byte}  :
    OutSound q (execLandingRecordPlace p slot data s) := by
  unfold execLandingRecordPlace
  repeat' with_reducible first | assumption | apply ackMessage_sound | apply bump_sound | apply checkFailed_sound
                                | apply checkStruck_sound | apply inOrder_sound | apply modReq_sound
                                | apply placeTurn_sound | apply unitStruck_sound | apply wireOk_sound
                                | apply OutSound.next | refine Sound.of_snd ?_ (by assumption) | split | dsimp only

theorem partFailed_sound (h : Sound q s) {ctx : Nat} {r : Req} {k : Nat} {status : Nat} {reason : Nat} {p0 : Nat}  :
    Sound q (State.partFailed s ctx r k status reason p0) := by
  unfold State.partFailed
  repeat' with_reducible first | assumption | apply endReq_sound | apply modReq_sound
                                | refine Sound.foldl (fun _ _ _ => ?_) _ ?_ | split | dsimp only

theorem execParticipantReply_sound (h : Sound q s) {ctx : Nat} {participant : Nat} {status : BitVec 8} {reason : W16} {param0 : W64}  :
    OutSound q (execParticipantReply ctx participant status reason param0 s) := by
  unfold execParticipantReply
  repeat' with_reducible first | assumption | apply advance_sound | apply foresee_sound | apply modReq_sound
                                | apply partFailed_sound | apply sampleReply_sound | apply OutSound.next | split
                                | dsimp only

theorem execResultRecordDone_sound (h : Sound q s) {ctx : Nat}  :
    OutSound q (execResultRecordDone ctx s) := by
  unfold execResultRecordDone
  repeat' with_reducible first | assumption | rfl | apply endReq_sound | apply modAttn_sound | apply OutSound.next
                                | split | dsimp only

theorem execGrazeDeadline_sound (h : Sound q s) {ctx : Nat}  :
    OutSound q (execGrazeDeadline ctx s) := by
  unfold execGrazeDeadline
  repeat' with_reducible first | assumption | apply failReq_sound | apply OutSound.next | split | dsimp only

theorem execParticipantDeadline_sound (h : Sound q s) {ctx : Nat}  :
    OutSound q (execParticipantDeadline ctx s) := by
  unfold execParticipantDeadline
  repeat' with_reducible first | assumption | apply endReq_sound | apply OutSound.next | split | dsimp only

theorem fetchResult_sound (h : Sound q s) {c : Cmd} {ctx : CmdCtx}  :
    Sound q (State.fetchResult s c ctx) := by
  unfold State.fetchResult
  repeat' with_reducible first | assumption | apply estimateFor_sound | apply finish_sound | apply setRecord_sound
                                | refine Sound.of_snd ?_ (by assumption) | split | dsimp only

theorem releaseResult_sound (h : Sound q s) {c : Cmd} {ctx : CmdCtx}  :
    Sound q (State.releaseResult s c ctx) := by
  unfold State.releaseResult
  repeat' with_reducible first | assumption | apply closeRecord_sound | apply finish_sound | apply noPayload_sound
                                | split | intro _ | dsimp only

theorem resultPass_sound (h : Sound q s) {c : Cmd} {ctx : CmdCtx}  :
    Sound q (State.resultPass s c ctx) := by
  unfold State.resultPass
  repeat' with_reducible first | assumption | apply fetchResult_sound | apply releaseResult_sound | split | dsimp only

theorem atResult_sound (h : Sound q s) {c : Cmd} {ctx : CmdCtx}  :
    Sound q (State.atResult s c ctx) := by
  unfold State.atResult
  repeat' with_reducible first | assumption | rfl | apply modNet_sound | apply resultPass_sound | split | dsimp only

theorem passFetches_sound (h : Sound q s)   :
    Sound q (State.passFetches s) := by
  unfold State.passFetches
  repeat' with_reducible first | assumption | rfl | apply modNet_sound | apply resultPass_sound
                                | refine Sound.foldl (fun _ _ _ => ?_) _ ?_ | dsimp only

theorem execResultFetch_sound (h : Sound q s) {c : Cmd}  :
    OutSound q (execResultFetch c s) := by
  unfold execResultFetch
  repeat' with_reducible first | assumption | apply atResult_sound | apply onArrive_sound | apply OutSound.next
                                | intro _ | dsimp only

theorem execResultRelease_sound (h : Sound q s) {c : Cmd}  :
    OutSound q (execResultRelease c s) := by
  unfold execResultRelease
  repeat' with_reducible first | assumption | apply atResult_sound | apply onArrive_sound | apply OutSound.next
                                | intro _ | dsimp only

theorem execRecordKeepExpiry_sound (h : Sound q s) {subscriber : Nat} {requestId : W64}  :
    OutSound q (execRecordKeepExpiry subscriber requestId s) := by
  unfold execRecordKeepExpiry
  repeat' with_reducible first | assumption | apply closeRecord_sound | apply OutSound.next | split | dsimp only

theorem execLayoutDefine_sound (h : Sound q s) {c : Cmd}  :
    OutSound q (execLayoutDefine c s) := by
  unfold execLayoutDefine
  repeat' with_reducible first | assumption | rfl | apply finish_sound | apply modAttn_sound | apply onArrive_sound
                                | apply OutSound.next | split | intro _ | dsimp only

theorem execModifierLoad_sound (h : Sound q s) {c : Cmd}  :
    OutSound q (execModifierLoad c s) := by
  unfold execModifierLoad
  repeat' with_reducible first | assumption | rfl | apply finish_sound | apply modAttn_sound | apply onArrive_sound
                                | apply OutSound.next | split | intro _ | dsimp only


end Sys2Proof.Machine
end

