-- ==== Sys2Proof/Laws/SoundEngine.lean ====
section
/-! SUPPORT. That every operation of Machine/Engine.lean keeps what every step keeps. -/
set_option Elab.async false

namespace Sys2Proof.Machine

variable {q : List Instr} {s : State}

theorem endNear_sound (h : Sound q s) {k : Nat} {a : Ans}  :
    Sound q (State.endNear s k a) := by
  unfold State.endNear
  repeat' with_reducible first | assumption | apply endReq_sound | apply finish_sound | apply modRegions_sound
                                | apply recordDelivered_sound | split | dsimp only

theorem execNearCommandStart_sound (h : Sound q s) {sequence : Nat}  :
    OutSound q (execNearCommandStart sequence s) := by
  unfold execNearCommandStart
  repeat' with_reducible first | assumption | apply endNear_sound | apply modRegions_sound | apply wantMove_sound
                                | apply OutSound.next | refine Sound.foldl (fun _ _ _ => ?_) _ ?_ | split | dsimp only

theorem nearBytes_sound (h : Sound q s) {n : Near}  :
    Sound q (State.nearBytes s n).2 := by
  unfold State.nearBytes
  repeat' with_reducible first | assumption | apply readRange_sound | refine Sound.of_snd ?_ (by assumption) | split
                                | dsimp only

theorem runNear_sound (h : Sound q s) {n : Near}  :
    Sound q (State.runNear s n).2 := by
  unfold State.runNear
  repeat' with_reducible first | assumption | apply nearBytes_sound | apply readRange_sound | apply reduceInto_sound
                                | apply sramRead_sound | apply writeRange_sound
                                | refine Sound.of_snd ?_ (by assumption) | split | dsimp only

theorem execNearCommandDone_sound (h : Sound q s) {sequence : Nat}  :
    OutSound q (execNearCommandDone sequence s) := by
  unfold execNearCommandDone
  repeat' with_reducible first | assumption | apply endNear_sound | apply runNear_sound | apply OutSound.next
                                | refine Sound.of_snd ?_ (by assumption) | split | dsimp only

theorem execNearDeadlineCut_sound (h : Sound q s) {sequence : Nat} {written : List Nat}  :
    OutSound q (execNearDeadlineCut sequence written s) := by
  unfold execNearDeadlineCut
  repeat' with_reducible first | assumption | apply endNear_sound | apply nearBytes_sound | apply writeRange_sound
                                | apply OutSound.next | refine Sound.foldl (fun _ _ _ => ?_) _ ?_
                                | refine Sound.of_snd ?_ (by assumption) | split | dsimp only


end Sys2Proof.Machine
end

