-- ==== Sys2Proof/Laws/SoundRow.lean ====
section
/-! SUPPORT. That every operation of Machine/Row.lean keeps what every step keeps. -/
set_option Elab.async false

namespace Sys2Proof.Machine

variable {q : List Instr} {s : State}

theorem passCommand_sound (h : Sound q s) {cid : Nat} {c : Cmd} {ctx : CmdCtx}  :
    Sound q (State.passCommand s cid c ctx) := by
  unfold State.passCommand
  repeat' with_reducible first | assumption | apply attachAt_sound | apply attendAt_sound | apply closeAt_sound
                                | apply detachAt_sound | apply forkAt_sound | apply leaseAt_sound
                                | apply offerAt_sound | apply openConv_sound | apply pinAt_sound | apply sealAt_sound
                                | apply statAt_sound | apply truncateAt_sound | split | dsimp only

theorem passOpen_sound (h : Sound q s) {cid : Nat} {c : Cmd} {ctx : CmdCtx}  :
    Sound q (State.passOpen s cid c ctx) := by
  unfold State.passOpen
  repeat' with_reducible first | assumption | rfl | apply modNet_sound | apply openConv_sound | split | dsimp only

theorem passRow_sound (h : Sound q s) {cid : Nat}  :
    Sound q (State.passRow s cid) := by
  unfold State.passRow
  repeat' with_reducible first | assumption | apply gateFirst_sound | apply modConv_sound | apply passAppend_sound
                                | apply passCommand_sound | apply passOpen_sound
                                | refine Sound.of_snd ?_ (by assumption) | split | dsimp only

theorem execGateRowPass_sound (h : Sound q s) {cid : Nat}  :
    OutSound q (execGateRowPass cid s) := by
  unfold execGateRowPass
  repeat' with_reducible first | assumption | apply passRow_sound | apply OutSound.next | dsimp only


end Sys2Proof.Machine
end

