-- ==== Sys2Proof/Laws/SoundTile.lean ====
section
/-! SUPPORT. That every operation of Machine/Tile.lean keeps what every step keeps. -/
set_option Elab.async false

namespace Sys2Proof.Machine

variable {q : List Instr} {s : State}

theorem execRowGroupAccept_sound (h : Sound q s) {tile : Nat}  :
    OutSound q (execRowGroupAccept tile s) := by
  unfold execRowGroupAccept
  repeat' with_reducible first | assumption | apply modTile_sound | apply OutSound.next | split | dsimp only

theorem keepStaged_sound (h : Sound q s) {tile : Nat} {i : Nat} {w : Work}  :
    Sound q (State.keepStaged s tile i w) := by
  unfold State.keepStaged
  repeat' with_reducible first | assumption | apply modTile_sound | dsimp only

theorem takeOff_sound (h : Sound q s) {tile : Nat} {i : Nat}  :
    Sound q (State.takeOff s tile i) := by
  unfold State.takeOff
  repeat' with_reducible first | assumption | apply modTile_sound | dsimp only

theorem emitWork_sound (h : Sound q s) {tile : Nat} {i : Nat} {w : Work}  :
    Sound q (State.emitWork s tile i w) := by
  unfold State.emitWork
  repeat' with_reducible first | assumption | apply keepStaged_sound | apply modDrift_sound | apply modReq_sound
                                | apply settleFrame_sound | apply takeOff_sound
                                | refine Sound.foldl (fun _ _ _ => ?_) _ ?_ | split | dsimp only

theorem restartPass_sound (h : Sound q s) {ctx : Nat}  :
    Sound q (State.restartPass s ctx) := by
  unfold State.restartPass
  repeat' with_reducible first | assumption | apply dropWork_sound | apply modReq_sound | split | dsimp only

theorem unreadableAt_sound (h : Sound q s) {w : Work} {pid : Nat}  :
    Sound q (State.unreadableAt s w pid) := by
  unfold State.unreadableAt
  repeat' with_reducible first | assumption | apply detectAbort_sound | apply repairOrPoison_sound
                                | apply restartPass_sound | apply stallReq_sound | split | dsimp only

theorem breachAt_sound (h : Sound q s) {w : Work} {high : Option (W32 × Nat)}  :
    Sound q (State.breachAt s w high) := by
  unfold State.breachAt
  repeat' with_reducible first | assumption | apply bump_sound | apply detectAbort_sound | apply endReq_sound | split
                                | dsimp only

theorem samplePage_sound (h : Sound q s) {layout : Nat} {since : Nat}  :
    Sound q (State.samplePage s layout since) := by
  unfold State.samplePage
  repeat' with_reducible first | assumption | rfl | apply modAttn_sound | dsimp only

theorem giveWork_sound (h : Sound q s) {n : Nat} {w : Work}  :
    Sound q (State.giveWork s n w) := by
  unfold State.giveWork
  repeat' with_reducible first | assumption | apply issueWork_sound | apply modLogical_sound | apply modReq_sound
                                | apply modTile_sound | split | dsimp only

theorem takeAbandoned_sound (h : Sound q s) {n : Nat} {w : Work}  :
    Sound q (State.takeAbandoned s n w) := by
  unfold State.takeAbandoned
  repeat' with_reducible first | assumption | apply modLogical_sound | dsimp only

theorem moveWork_sound (h : Sound q s) {n : Nat} {w : Work}  :
    Sound q (State.moveWork s n w) := by
  unfold State.moveWork
  repeat' with_reducible first | assumption | apply endReq_sound | apply giveWork_sound | apply takeAbandoned_sound
                                | split | dsimp only

theorem chooseSubstitute_sound (h : Sound q s) {n : Nat}  :
    Sound q (State.chooseSubstitute s n) := by
  unfold State.chooseSubstitute
  repeat' with_reducible first | assumption | apply abortPasses_sound | apply modLogical_sound | apply modTile_sound
                                | apply moveWork_sound | refine Sound.foldl (fun _ _ _ => ?_) _ ?_ | split
                                | dsimp only

theorem foreseeStep_sound (h : Sound q s) {slot : Nat}  :
    Sound q (State.foreseeStep s slot) := by
  unfold State.foreseeStep
  repeat' with_reducible first | assumption | apply detectAbort_sound | split | dsimp only

theorem foreseeSubstitute_sound (h : Sound q s) {n : Nat}  :
    Sound q (State.foreseeSubstitute s n) := by
  unfold State.foreseeSubstitute
  repeat' with_reducible first | assumption | apply foreseeStep_sound | apply foreseeSubst_sound
                                | refine Sound.foldl (fun _ _ _ => ?_) _ ?_ | split | dsimp only

theorem checkSpares_sound (h : Sound q s) {before : Nat}  :
    Sound q (State.checkSpares s before) := by
  unfold State.checkSpares
  repeat' with_reducible first | assumption | apply raise_sound | split | dsimp only

theorem reportTile_sound (h : Sound q s) {p : Nat} {cause : TileFault} {injected : Bool}  :
    Sound q (State.reportTile s p cause injected) := by
  unfold State.reportTile
  repeat' with_reducible first | assumption | apply bump_sound | apply injected_sound | apply modBlock_sound
                                | apply raise_sound | refine Sound.of_snd ?_ (by assumption) | split | dsimp only

theorem failTile_sound (h : Sound q s) {p : Nat} {cause : TileFault} {injected : Bool}  :
    Sound q (State.failTile s p cause injected) := by
  unfold State.failTile
  repeat' with_reducible first | assumption | apply bump_sound | apply checkSpares_sound
                                | apply chooseSubstitute_sound | apply foreseeSubstitute_sound
                                | apply modLogical_sound | apply modTile_sound | apply reportTile_sound | split
                                | dsimp only

theorem execTileFail_sound (h : Sound q s) {tile : Nat} {cause : TileFault}  :
    OutSound q (execTileFail tile cause s) := by
  unfold execTileFail
  repeat' with_reducible first | assumption | apply failTile_sound | apply OutSound.next
                                | refine Sound.foldl (fun _ _ _ => ?_) _ ?_ | dsimp only

theorem execSpareBind_sound (h : Sound q s) {logical : Nat} {testPassed : Bool}  :
    OutSound q (execSpareBind logical testPassed s) := by
  unfold execSpareBind
  repeat' with_reducible first | assumption | apply bump_sound | apply checkSpares_sound | apply failTile_sound
                                | apply modLogical_sound | apply modTile_sound | apply OutSound.next | split
                                | dsimp only

theorem execSpareTest_sound (h : Sound q s) {tile : Nat} {testPassed : Bool}  :
    OutSound q (execSpareTest tile testPassed s) := by
  unfold execSpareTest
  repeat' with_reducible first | assumption | apply failTile_sound | apply modTile_sound | apply OutSound.next | split
                                | dsimp only

theorem execTileClockStop_sound (h : Sound q s) {tile : Nat}  :
    OutSound q (execTileClockStop tile s) := by
  unfold execTileClockStop
  repeat' with_reducible first | assumption | apply modTile_sound | apply OutSound.next | split | dsimp only

theorem execTileGate_sound (h : Sound q s) {tile : Nat}  :
    OutSound q (execTileGate tile s) := by
  unfold execTileGate
  repeat' with_reducible first | assumption | apply modTile_sound | apply OutSound.next | split | dsimp only

theorem execTileWake_sound (h : Sound q s) {tile : Nat}  :
    OutSound q (execTileWake tile s) := by
  unfold execTileWake
  repeat' with_reducible first | assumption | apply modTile_sound | apply OutSound.next | split | dsimp only

theorem noteHigh_sound (h : Sound q s) {w : Work} {high : Option (W32 × Nat)}  :
    Sound q (State.noteHigh s w high) := by
  unfold State.noteHigh
  repeat' with_reducible first | assumption | apply modDrift_sound | apply modReq_sound | split | dsimp only

theorem readDescriptor_sound (h : Sound q s) {l : Layout} {d : Descriptor} {values : Bool}  :
    Sound q (State.readDescriptor s l d values).2 := by
  unfold State.readDescriptor
  repeat' with_reducible first | assumption | apply readThaw_sound | refine Sound.of_snd ?_ (by assumption) | split
                                | intro _ | dsimp only

theorem noteLate_sound (h : Sound q s) {d : Descriptor}  :
    Sound q (State.noteLate s d) := by
  unfold State.noteLate
  repeat' with_reducible first | assumption | apply bump_sound | split | dsimp only

theorem workDescriptor_sound (h : Sound q s) {tile : Nat} {i : Nat} {w : Work} {d : Descriptor} {j : Job}  :
    Sound q (State.workDescriptor s tile i w d j) := by
  unfold State.workDescriptor
  repeat' with_reducible first | assumption | apply breachAt_sound | apply bumpBy_sound | apply emitWork_sound
                                | apply modTile_sound | apply noteHigh_sound | apply noteLate_sound
                                | apply readDescriptor_sound | apply samplePage_sound | apply unreadableAt_sound
                                | refine Sound.of_snd ?_ (by assumption) | refine Sound.of_some ?_ (by assumption)
                                | split | dsimp only

theorem execTileDescriptor_sound (h : Sound q s) {tile : Nat}  :
    OutSound q (execTileDescriptor tile s) := by
  unfold execTileDescriptor
  repeat' with_reducible first | assumption | apply failTile_sound | apply injected_sound | apply modTile_sound
                                | apply poisonConsumedAt_sound | apply takeOff_sound | apply unreadableAt_sound
                                | apply wordCorrected_sound | apply workDescriptor_sound | apply OutSound.next
                                | refine Sound.foldl (fun _ _ _ => ?_) _ ?_ | refine Sound.of_snd ?_ (by assumption)
                                | split | dsimp only


end Sys2Proof.Machine
end

