-- ==== Sys2Proof/Laws/SoundDrift.lean ====
section
/-! SUPPORT. That every operation of Machine/Drift.lean keeps what every step keeps. -/
set_option Elab.async false

namespace Sys2Proof.Machine

variable {q : List Instr} {s : State}

theorem sendNeighbours_sound (h : Sound q s) {d : Drift} {bs : List Byte}  :
    Sound q (State.sendNeighbours s d bs) := by
  unfold State.sendNeighbours
  repeat' with_reducible first | assumption | apply sendMember_sound | dsimp only

theorem advanceBlock_sound (h : Sound q s) {slot : Nat} {n : Nat}  :
    Sound q (State.advanceBlock s slot n) := by
  unfold State.advanceBlock
  repeat' with_reducible first | assumption | apply advance_sound | apply modDrift_sound | dsimp only

theorem postBlock_sound (h : Sound q s) {slot : Nat} {n : Nat}  :
    Sound q (State.postBlock s slot n) := by
  unfold State.postBlock
  repeat' with_reducible first | assumption | apply modDrift_sound | apply post_sound | split | dsimp only

theorem startAccum_sound (h : Sound q s) {slot : Nat}  :
    Sound q (State.startAccum s slot) := by
  unfold State.startAccum
  repeat' with_reducible first | assumption | apply modDrift_sound | apply queueWork_sound
                                | refine Sound.foldl (fun _ _ _ => ?_) _ ?_ | split | dsimp only

theorem readForPass_sound (h : Sound q s) {slot : Nat} {id : W64} {off : Nat} {n : Nat}  :
    Sound q (State.readForPass s slot id off n).2 := by
  unfold State.readForPass
  repeat' with_reducible first | assumption | apply detectAbort_sound | apply readRange_sound
                                | refine Sound.of_snd ?_ (by assumption) | split | dsimp only

theorem checkPassFrame_sound (h : Sound q s) {slot : Nat} {f : Nat}  :
    Sound q (State.checkPassFrame s slot f).2 := by
  unfold State.checkPassFrame
  repeat' with_reducible first | assumption | apply checkFrame_sound | apply detectAbort_sound
                                | apply retireFrame_sound | refine Sound.of_snd ?_ (by assumption) | split
                                | dsimp only

theorem freezeBlockPage_sound (hs : Sound q s) {slot : Nat} {d : Drift} {l : Layout} {staging : List Byte} {h : Nat} {i : Nat} {f : Nat}  :
    Sound q (State.freezeBlockPage s slot d l staging h i f) := by
  unfold State.freezeBlockPage
  repeat' with_reducible first | assumption | apply bumpBy_sound | apply checkPassFrame_sound | apply writeFrame_sound
                                | refine Sound.foldl (fun _ _ _ => ?_) _ ?_ | refine Sound.of_snd ?_ (by assumption)
                                | split | dsimp only

theorem readyIfDone_sound (h : Sound q s) {slot : Nat}  :
    Sound q (State.readyIfDone s slot) := by
  unfold State.readyIfDone
  repeat' with_reducible first | assumption | apply modDrift_sound | apply sendNeighbours_sound
                                | apply startAccum_sound | split | dsimp only

theorem execDriftBlockFrozen_sound (h : Sound q s) {slot : Nat}  :
    OutSound q (execDriftBlockFrozen slot s) := by
  unfold execDriftBlockFrozen
  repeat' with_reducible first | assumption | apply advanceBlock_sound | apply freezeBlockPage_sound
                                | apply modDrift_sound | apply postBlock_sound | apply readForPass_sound
                                | apply readyIfDone_sound | apply OutSound.next
                                | refine Sound.foldl (fun _ _ _ => ?_) _ ?_ | refine Sound.of_snd ?_ (by assumption)
                                | refine Sound.of_some ?_ (by assumption) | split | dsimp only

theorem execDriftPrepDone_sound (h : Sound q s) {slot : Nat}  :
    OutSound q (execDriftPrepDone slot s) := by
  unfold execDriftPrepDone
  repeat' with_reducible first | assumption | apply detectAbort_sound | apply modDrift_sound | apply readForPass_sound
                                | apply readyIfDone_sound | apply thawAbsorb_sound | apply OutSound.next
                                | refine Sound.of_snd ?_ (by assumption) | refine Sound.of_some ?_ (by assumption)
                                | split | dsimp only

theorem takeReady_sound (h : Sound q s) {qp : Nat} {slot : Nat} {b : List Byte}  :
    Sound q (State.takeReady s qp slot b) := by
  unfold State.takeReady
  repeat' with_reducible first | assumption | apply detectAbort_sound | apply modDrift_sound | apply postBlock_sound
                                | split | dsimp only

theorem takeReadies_sound (h : Sound q s) {slot : Nat}  :
    Sound q (State.takeReadies s slot) := by
  unfold State.takeReadies
  repeat' with_reducible first | assumption | apply takeReady_sound | refine Sound.foldl (fun _ _ _ => ?_) _ ?_
                                | dsimp only | apply setReadies_sound

theorem keepReady_sound (h : Sound q s) {qp : Nat} {b : List Byte}  :
    Sound q (State.keepReady s qp b) := by
  unfold State.keepReady
  repeat' with_reducible first | assumption | dsimp only | apply setReadies_sound

theorem armPass_sound (h : Sound q s) {slot : Nat} {d : Drift} {l : Layout} {ctx : CmdCtx}  :
    Sound q (State.armPass s slot d l ctx) := by
  unfold State.armPass
  repeat' with_reducible first | assumption | rfl | exact modifyAt_length _ _ _ | exact setAt_length _ _ _
                                | exact List.length_map _ | apply allocFrames_sound | apply drawWord_sound
                                | apply finish_sound | apply modAttn_sound | apply modDrift_sound
                                | apply modPort_sound | apply release_sound | apply takeKey_sound
                                | apply takeReadies_sound | apply useVersion_sound
                                | refine Sound.foldl (fun _ _ _ => ?_) _ ?_ | refine Sound.of_snd ?_ (by assumption)
                                | refine Sound.of_some ?_ (by assumption) | split | dsimp only

theorem cancelPass_sound (h : Sound q s) {c : Cmd} {ctx : CmdCtx}  :
    Sound q (State.cancelPass s c ctx) := by
  unfold State.cancelPass
  repeat' with_reducible first | assumption | apply detectAbort_sound | apply finish_sound | apply release_sound
                                | split | dsimp only

theorem takeArm_sound (h : Sound q s) {c : Cmd} {ctx : CmdCtx}  :
    Sound q (State.takeArm s c ctx) := by
  unfold State.takeArm
  repeat' with_reducible first | assumption | apply armPass_sound | apply cancelPass_sound | apply finish_sound
                                | split | dsimp only

theorem execAttnDriftArm_sound (h : Sound q s) {c : Cmd}  :
    OutSound q (execAttnDriftArm c s) := by
  unfold execAttnDriftArm
  repeat' with_reducible first | assumption | apply onArrive_sound | apply takeArm_sound | apply OutSound.next
                                | intro _ | dsimp only

theorem execDriftReadyRecv_sound (h : Sound q s) {p : QpPsn} {message : List Byte}  :
    OutSound q (execDriftReadyRecv p message s) := by
  unfold execDriftReadyRecv
  repeat' with_reducible first | assumption | apply keepReady_sound | apply receiveRaw_sound | apply takeReady_sound
                                | apply OutSound.next | refine Sound.of_snd ?_ (by assumption)
                                | refine Sound.of_some ?_ (by assumption) | split | dsimp only

theorem execDriftReadyDeadline_sound (h : Sound q s) {slot : Nat}  :
    OutSound q (execDriftReadyDeadline slot s) := by
  unfold execDriftReadyDeadline
  repeat' with_reducible first | assumption | apply detectAbort_sound | apply OutSound.next | split | dsimp only

theorem execDriftBeatSend_sound (h : Sound q s) {slot : Nat}  :
    OutSound q (execDriftBeatSend slot s) := by
  unfold execDriftBeatSend
  repeat' with_reducible first | assumption | apply modDrift_sound | apply release_sound | apply sendNeighbours_sound
                                | apply OutSound.next | split | dsimp only

theorem execDriftBeatRecv_sound (h : Sound q s) {p : QpPsn} {message : List Byte}  :
    OutSound q (execDriftBeatRecv p message s) := by
  unfold execDriftBeatRecv
  repeat' with_reducible first | assumption | apply modDrift_sound | apply receiveRaw_sound | apply OutSound.next
                                | refine Sound.of_snd ?_ (by assumption) | refine Sound.of_some ?_ (by assumption)
                                | split | dsimp only

theorem execDriftBeatSilence_sound (h : Sound q s) {slot : Nat} {side : Side}  :
    OutSound q (execDriftBeatSilence slot side s) := by
  unfold execDriftBeatSilence
  repeat' with_reducible first | assumption | apply bump_sound | apply detectAbort_sound | apply release_sound
                                | apply OutSound.next | split | dsimp only

theorem closeWindow_sound (h : Sound q s) {slot : Nat}  :
    Sound q (State.closeWindow s slot) := by
  unfold State.closeWindow
  repeat' with_reducible first | assumption | apply detectAbort_sound | apply modDrift_sound | split | dsimp only

theorem execDriftWindowClose_sound (h : Sound q s) {slot : Nat}  :
    OutSound q (execDriftWindowClose slot s) := by
  unfold execDriftWindowClose
  repeat' with_reducible first | assumption | apply closeWindow_sound | apply OutSound.next | split | dsimp only

theorem execDriftStepStart_sound (h : Sound q s) {slot : Nat}  :
    OutSound q (execDriftStepStart slot s) := by
  unfold execDriftStepStart
  repeat' with_reducible first | assumption | apply closeWindow_sound | apply foreseeStep_sound | apply modDrift_sound
                                | apply startAccum_sound | apply OutSound.next | split | dsimp only

theorem execDriftAccumDone_sound (h : Sound q s) {slot : Nat}  :
    OutSound q (execDriftAccumDone slot s) := by
  unfold execDriftAccumDone
  repeat' with_reducible first | assumption | apply modDrift_sound | apply startAccum_sound | apply OutSound.next
                                | split | dsimp only

theorem sealsHold_sound (h : Sound q s) {slot : Nat} {fs : List Nat}  :
    Sound q (State.sealsHold s slot fs).2 := by
  unfold State.sealsHold
  repeat' with_reducible first | assumption | apply checkPassFrame_sound | apply verifySeal_sound
                                | refine Sound.foldl (fun _ _ _ => ?_) _ ?_
                                | refine Sound.foldlSnd (fun _ _ _ => ?_) _ ?_
                                | refine Sound.of_snd ?_ (by assumption) | split | dsimp only

theorem landBlock_sound (h : Sound q s) {slot : Nat} {imm : W32}  :
    Sound q (State.landBlock s slot imm) := by
  unfold State.landBlock
  repeat' with_reducible first | assumption | apply advanceBlock_sound | apply detectAbort_sound
                                | apply modDrift_sound | apply postBlock_sound | apply sealsHold_sound
                                | apply startAccum_sound | refine Sound.of_snd ?_ (by assumption) | split | dsimp only

theorem execDriftBlockLand_sound (h : Sound q s) {qp : Nat} {imm : W32}  :
    OutSound q (execDriftBlockLand qp imm s) := by
  unfold execDriftBlockLand
  repeat' with_reducible first | assumption | apply bump_sound | apply landBlock_sound | apply OutSound.next | split
                                | dsimp only

theorem takeAbort_sound (h : Sound q s) {a : Abort}  :
    Sound q (State.takeAbort s a) := by
  unfold State.takeAbort
  repeat' with_reducible first | assumption | apply abortPass_sound | apply bump_sound | apply release_sound
                                | apply rememberAbort_sound | apply sendNeighbours_sound | split | dsimp only

theorem execDriftAbortRecv_sound (h : Sound q s) {p : QpPsn} {message : List Byte}  :
    OutSound q (execDriftAbortRecv p message s) := by
  unfold execDriftAbortRecv
  repeat' with_reducible first | assumption | apply receiveRaw_sound | apply takeAbort_sound | apply OutSound.next
                                | refine Sound.of_snd ?_ (by assumption) | refine Sound.of_some ?_ (by assumption)
                                | split | dsimp only

theorem execDriftAbortForget_sound (h : Sound q s) {ring : Nat} {takeover : Nat}  :
    OutSound q (execDriftAbortForget ring takeover s) := by
  unfold execDriftAbortForget
  repeat' with_reducible first | assumption | apply OutSound.next | dsimp only | apply setAborts_sound

theorem execDriftRelease_sound (h : Sound q s) {slot : Nat}  :
    OutSound q (execDriftRelease slot s) := by
  unfold execDriftRelease
  repeat' with_reducible first | assumption | apply dropDriftGates_sound | apply modDrift_sound | apply release_sound
                                | apply writeChain_sound | apply OutSound.next
                                | refine Sound.foldl (fun _ _ _ => ?_) _ ?_ | split | dsimp only

theorem endPass_sound (h : Sound q s) {slot : Nat} {a : Ans}  :
    Sound q (State.endPass s slot a) := by
  unfold State.endPass
  repeat' with_reducible first | assumption | apply cancelSends_sound | apply finish_sound | apply modDrift_sound
                                | apply releaseDrift_sound | split | dsimp only | apply setReleased_sound

theorem execDriftResultAcked_sound (h : Sound q s) {slot : Nat}  :
    OutSound q (execDriftResultAcked slot s) := by
  unfold execDriftResultAcked
  repeat' with_reducible first | assumption | rfl | apply bump_sound | apply endPass_sound | apply modDrift_sound
                                | apply modNet_sound | apply OutSound.next | split | dsimp only

theorem execDriftResultDeadline_sound (h : Sound q s) {slot : Nat}  :
    OutSound q (execDriftResultDeadline slot s) := by
  unfold execDriftResultDeadline
  repeat' with_reducible first | assumption | apply endPass_sound | apply release_sound | apply OutSound.next | split
                                | dsimp only


end Sys2Proof.Machine
end

