-- ==== Sys2Proof/Laws/SoundShaper.lean ====
section
/-! SUPPORT. That every operation of Machine/Shaper.lean keeps what every step keeps. -/
set_option Elab.async false

namespace Sys2Proof.Machine

variable {q : List Instr} {s : State}

theorem settleCredit_sound (h : Sound q s) {port : Nat} {cls : Nat} {t : Nat}  :
    Sound q (State.settleCredit s port cls t) := by
  unfold State.settleCredit
  repeat' with_reducible first | assumption | apply modPort_sound | refine Sound.foldl (fun _ _ _ => ?_) _ ?_ | split
                                | dsimp only

theorem settlePort_sound (h : Sound q s) {port : Nat} {t : Nat}  :
    Sound q (State.settlePort s port t) := by
  unfold State.settlePort
  repeat' with_reducible first | assumption | apply settleCredit_sound | refine Sound.foldl (fun _ _ _ => ?_) _ ?_
                                | dsimp only

theorem settleCredits_sound (h : Sound q s)   :
    Sound q (State.settleCredits s) := by
  unfold State.settleCredits
  repeat' with_reducible first | assumption | apply settlePort_sound | refine Sound.foldl (fun _ _ _ => ?_) _ ?_
                                | dsimp only

theorem settleWrite_sound (h : Sound q s)   :
    Sound q (State.settleWrite s) := by
  unfold State.settleWrite
  repeat' with_reducible first | assumption | apply modPort_sound | apply settlePort_sound
                                | refine Sound.foldl (fun _ _ _ => ?_) _ ?_ | dsimp only

theorem spendCredit_sound (h : Sound q s) {port : Nat} {cls : Nat} {bytes : Nat}  :
    Sound q (State.spendCredit s port cls bytes) := by
  unfold State.spendCredit
  repeat' with_reducible first | assumption | apply modPort_sound | split | dsimp only


end Sys2Proof.Machine
end

