-- ==== Sys2Proof/Laws/SoundTier.lean ====
section
/-! SUPPORT. That every operation of Machine/Tier.lean keeps what every step keeps. -/
set_option Elab.async false

namespace Sys2Proof.Machine

variable {q : List Instr} {s : State}

theorem noteMove_sound (h : Sound q s) {t : Tier}  :
    Sound q (State.noteMove s t) := by
  unfold State.noteMove
  repeat' with_reducible first | assumption | rfl | apply modTiers_sound | split | dsimp only

theorem sealHolds_sound (h : Sound q s) {pid : Nat} {p : Page} {frame : List Byte}  :
    Sound q (State.sealHolds s pid p frame).2 := by
  unfold State.sealHolds
  repeat' with_reducible first | assumption | apply verifySeal_sound | refine Sound.of_snd ?_ (by assumption) | split
                                | dsimp only

theorem tryMove_sound (h : Sound q s) {pid : Nat} {k : MoveKind} {t : Tier}  :
    Sound q (State.tryMove s pid k t) := by
  unfold State.tryMove
  repeat' with_reducible first | assumption | apply startMove_sound | apply Sound.getD
                                | refine Sound.of_opt ?_ (by assumption) | dsimp only

theorem startRecall_sound (h : Sound q s) {pid : Nat}  :
    Sound q (State.startRecall s pid) := by
  unfold State.startRecall
  repeat' with_reducible first | assumption | rfl | apply judgeStalls_sound | apply modPage_sound
                                | apply modTiers_sound | apply post_sound | apply startMove_sound
                                | refine Sound.of_opt ?_ (by assumption) | split | dsimp only

theorem startQueued_sound (h : Sound q s) {pid : Nat}  :
    Sound q (State.startQueued s pid) := by
  unfold State.startQueued
  repeat' with_reducible first | assumption | apply modPage_sound | apply repairOrPoison_sound
                                | apply startRecall_sound | apply tryMove_sound | split | dsimp only

theorem enterTarget_sound (h : Sound q s) {pid : Nat} {p : Page}  :
    Sound q (State.enterTarget s pid p) := by
  unfold State.enterTarget
  repeat' with_reducible first | assumption | apply freePage_sound | apply modPage_sound | apply resumeStalled_sound
                                | apply sealPage_sound | apply startQueued_sound | apply twinWhole_sound
                                | apply useFrame_sound | apply wantMove_sound | split | dsimp only

theorem switchPage_sound (h : Sound q s) {pid : Nat}  :
    Sound q (State.switchPage s pid) := by
  unfold State.switchPage
  repeat' with_reducible first | assumption | apply bump_sound | apply enterTarget_sound | apply leaveFrame_sound
                                | apply noteMove_sound | apply soundPage_sound | apply writeFrame_sound
                                | refine Sound.of_snd ?_ (by assumption) | split | dsimp only

theorem execMoveSwitchPoint_sound (h : Sound q s) {page : Nat}  :
    OutSound q (execMoveSwitchPoint page s) := by
  unfold execMoveSwitchPoint
  repeat' with_reducible first | assumption | apply switchPage_sound | apply OutSound.next | split | dsimp only

theorem execHotEvict_sound (h : Sound q s)   :
    OutSound q (execHotEvict s) := by
  unfold execHotEvict
  repeat' with_reducible first | assumption | rfl | apply modTiers_sound | apply tryMove_sound | apply OutSound.next
                                | split | dsimp only

theorem spillPage_sound (h : Sound q s) {pid : Nat} {target : Nat} {slot : Nat}  :
    Sound q (State.spillPage s pid target slot) := by
  unfold State.spillPage
  repeat' with_reducible first | assumption | rfl | apply modPage_sound | apply modTiers_sound | apply modTrust_sound
                                | apply post_sound | apply soundPage_sound | refine Sound.of_snd ?_ (by assumption)
                                | split | dsimp only

theorem execWarmEvict_sound (h : Sound q s)   :
    OutSound q (execWarmEvict s) := by
  unfold execWarmEvict
  repeat' with_reducible first | assumption | rfl | apply modTiers_sound | apply spillPage_sound | apply OutSound.next
                                | split | dsimp only

theorem execSpillImageAck_sound (h : Sound q s) {page : Nat}  :
    OutSound q (execSpillImageAck page s) := by
  unfold execSpillImageAck
  repeat' with_reducible first | assumption | rfl | apply bump_sound | apply freePage_sound | apply leaveFrame_sound
                                | apply modNet_sound | apply modPage_sound | apply noteMove_sound
                                | apply startQueued_sound | apply OutSound.next | split | dsimp only

theorem execPromoteStart_sound (h : Sound q s) {page : Nat}  :
    OutSound q (execPromoteStart page s) := by
  unfold execPromoteStart
  repeat' with_reducible first | assumption | apply tryMove_sound | apply OutSound.next | split | dsimp only

theorem execPromotedPageHotMove_sound (h : Sound q s) {page : Nat}  :
    OutSound q (execPromotedPageHotMove page s) := by
  unfold execPromotedPageHotMove
  repeat' with_reducible first | assumption | apply allocReserve_sound | apply modPage_sound | apply OutSound.next
                                | refine Sound.of_snd ?_ (by assumption) | refine Sound.of_some ?_ (by assumption)
                                | split | dsimp only

theorem execRecallStart_sound (h : Sound q s) {page : Nat}  :
    OutSound q (execRecallStart page s) := by
  unfold execRecallStart
  repeat' with_reducible first | assumption | apply startRecall_sound | apply OutSound.next | split | dsimp only

theorem freeLanding_sound (h : Sound q s) {target : Nat} {slot : Nat}  :
    Sound q (State.freeLanding s target slot) := by
  unfold State.freeLanding
  repeat' with_reducible first | assumption | rfl | apply modTiers_sound | dsimp only

theorem landRecall_sound (h : Sound q s) {target : Nat} {slot : Nat} {pid : Nat} {image : List Byte}  :
    Sound q (State.landRecall s target slot pid image) := by
  unfold State.landRecall
  repeat' with_reducible first | assumption | rfl | apply bump_sound | apply checkFailed_sound
                                | apply checkStruck_sound | apply enterTarget_sound | apply freeLanding_sound
                                | apply freeSpill_sound | apply modPage_sound | apply modTiers_sound
                                | apply recallFailed_sound | apply sealHolds_sound | apply writeFrame_sound
                                | refine Sound.of_snd ?_ (by assumption) | split | dsimp only

theorem placeImage_sound (h : Sound q s) {qp : Nat} {ticket : Nat} {image : List Byte}  :
    Sound q (State.placeImage s qp ticket image).2 := by
  unfold State.placeImage
  repeat' with_reducible first | assumption | apply nakError_sound | apply writeRegion_sound | split | dsimp only

theorem execRecallLanding_sound (h : Sound q s) {p : QpPsn} {ticket : W32} {image : List Byte}  :
    OutSound q (execRecallLanding p ticket image s) := by
  unfold execRecallLanding
  repeat' with_reducible first | assumption | apply ackMessage_sound | apply inOrder_sound | apply injected_sound
                                | apply landRecall_sound | apply placeImage_sound | apply wireOk_sound
                                | apply OutSound.next | refine Sound.of_snd ?_ (by assumption) | split | dsimp only

theorem execRecallTimeout_sound (h : Sound q s) {page : Nat}  :
    OutSound q (execRecallTimeout page s) := by
  unfold execRecallTimeout
  repeat' with_reducible first | assumption | apply freeLanding_sound | apply recallFailed_sound | apply OutSound.next
                                | refine Sound.foldl (fun _ _ _ => ?_) _ ?_ | split | dsimp only

theorem installRepair_sound (h : Sound q s) {pid : Nat} {p : Page} {frame : List Byte}  :
    Sound q (State.installRepair s pid p frame) := by
  unfold State.installRepair
  repeat' with_reducible first | assumption | apply enterTarget_sound | apply freeSpill_sound | apply leaveFrame_sound
                                | apply modPage_sound | apply writeFrame_sound | split | dsimp only

theorem landRepair_sound (h : Sound q s) {page : Nat} {b : List Byte}  :
    Sound q (State.landRepair s page b) := by
  unfold State.landRepair
  repeat' with_reducible first | assumption | apply installRepair_sound | apply repairFailed_sound
                                | apply sealHolds_sound | refine Sound.of_snd ?_ (by assumption) | split | dsimp only

theorem execRepairCopyLand_sound (h : Sound q s) {page : Nat} {copy : Option RdmaMsg}  :
    OutSound q (execRepairCopyLand page copy s) := by
  unfold execRepairCopyLand
  repeat' with_reducible first | assumption | apply ackMessage_sound | apply ackNow_sound | apply bump_sound
                                | apply landRepair_sound | apply receiveMsg_sound | apply repairFailed_sound
                                | apply OutSound.next | refine Sound.of_snd ?_ (by assumption) | split | dsimp only

theorem resumeRepairs_sound (h : Sound q s)   :
    Sound q (State.resumeRepairs s) := by
  unfold State.resumeRepairs
  repeat' with_reducible first | assumption | apply repairOrPoison_sound | refine Sound.foldl (fun _ _ _ => ?_) _ ?_
                                | dsimp only

theorem scrubCorrected_sound (h : Sound q s) {t : Tier} {f : Nat}  :
    Sound q (State.scrubCorrected s t f) := by
  unfold State.scrubCorrected
  repeat' with_reducible first | assumption | rfl | apply modTiers_sound | split | dsimp only

theorem refetchTwin_sound (h : Sound q s) {f : Nat} {owner : Nat} {index : Nat}  :
    Sound q (State.refetchTwin s f owner index) := by
  unfold State.refetchTwin
  repeat' with_reducible first | assumption | apply allocReserve_sound | apply modPartner_sound
                                | apply modRecover_sound | apply post_sound | apply retireFrame_sound
                                | refine Sound.of_snd ?_ (by assumption) | refine Sound.of_some ?_ (by assumption)
                                | split | dsimp only

theorem regrant_sound (h : Sound q s) {f : Nat} {owner : Nat} {index : Nat}  :
    Sound q (State.regrant s f owner index) := by
  unfold State.regrant
  repeat' with_reducible first | assumption | apply allocReserve_sound | apply modPartner_sound
                                | apply retireFrame_sound | refine Sound.of_snd ?_ (by assumption)
                                | refine Sound.of_some ?_ (by assumption) | split | dsimp only

theorem scrubFound_sound (h : Sound q s) {t : Tier} {f : Nat} {found : ReadClass}  :
    Sound q (State.scrubFound s t f found) := by
  unfold State.scrubFound
  repeat' with_reducible first | assumption | apply detectAbort_sound | apply poisonRegion_sound
                                | apply refetchTwin_sound | apply regrant_sound | apply repairOrPoison_sound
                                | apply retireFrame_sound | split | dsimp only

theorem execScrubPass_sound (h : Sound q s) {tier : Tier} {frame : Nat}  :
    OutSound q (execScrubPass tier frame s) := by
  unfold execScrubPass
  repeat' with_reducible first | assumption | apply checkWords_sound | apply scrubCorrected_sound
                                | apply scrubFound_sound | apply OutSound.next | apply OutSound.fault
                                | refine Sound.of_snd ?_ (by assumption) | split | dsimp only


end Sys2Proof.Machine
end

