-- ==== Sys2Proof/Laws/SoundRdma.lean ====
section
/-! SUPPORT. That every operation of Machine/Rdma.lean keeps what every step keeps. -/
set_option Elab.async false

namespace Sys2Proof.Machine

variable {q : List Instr} {s : State}

theorem setCopy_sound (h : Sound q s) {c : TwinCopy}  :
    Sound q (State.setCopy s c) := by
  unfold State.setCopy
  repeat' with_reducible first | assumption | apply modRecover_sound | dsimp only

theorem placeTwin_sound (h : Sound q s) {owner : Nat} {pos : Nat} {bs : List Byte}  :
    Sound q (State.placeTwin s owner pos bs) := by
  unfold State.placeTwin
  repeat' with_reducible first | assumption | apply clearFrame_sound | apply setCopy_sound | apply useFrame_sound
                                | apply writeFrame_sound | split | dsimp only

theorem takeWhole_sound (h : Sound q s) {owner : Nat} {index : Nat} {verify : Bool}  :
    Sound q (State.takeWhole s owner index verify) := by
  unfold State.takeWhole
  repeat' with_reducible first | assumption | apply refetchTwin_sound | apply setCopy_sound | apply verifySeal_sound
                                | refine Sound.of_snd ?_ (by assumption) | split | dsimp only

theorem takeRow_sound (h : Sound q s) {owner : Nat} {index : Nat} {off : Nat}  :
    Sound q (State.takeRow s owner index off) := by
  unfold State.takeRow
  repeat' with_reducible first | assumption | apply setCopy_sound | split | dsimp only

theorem takeTail_sound (h : Sound q s) {owner : Nat} {index : Nat}  :
    Sound q (State.takeTail s owner index) := by
  unfold State.takeTail
  repeat' with_reducible first | assumption | apply setCopy_sound | split | dsimp only

theorem takeCrc_sound (h : Sound q s) {owner : Nat} {cid : Nat} {b : List Byte}  :
    Sound q (State.takeCrc s owner cid b) := by
  unfold State.takeCrc
  repeat' with_reducible first | assumption | apply modRecover_sound | refine Sound.foldl (fun _ _ _ => ?_) _ ?_
                                | split | dsimp only

theorem takeSats_sound (h : Sound q s) {owner : Nat} {cid : Nat} {b : List Byte}  :
    Sound q (State.takeSats s owner cid b) := by
  unfold State.takeSats
  repeat' with_reducible first | assumption | apply modRecover_sound | apply twinSats_sound
                                | refine Sound.foldl (fun _ _ _ => ?_) _ ?_ | split | dsimp only

theorem takeShared_sound (h : Sound q s) {owner : Nat} {cid : Nat} {b : List Byte}  :
    Sound q (State.takeShared s owner cid b) := by
  unfold State.takeShared
  repeat' with_reducible first | assumption | apply modRecover_sound | apply twinShared_sound | dsimp only

theorem takeVersion_sound (h : Sound q s) {owner : Nat} {b : List Byte}  :
    Sound q (State.takeVersion s owner b) := by
  unfold State.takeVersion
  repeat' with_reducible first | assumption | apply modRecover_sound | dsimp only

theorem takeFreed_sound (h : Sound q s) {owner : Nat} {b : List Byte}  :
    Sound q (State.takeFreed s owner b) := by
  unfold State.takeFreed
  repeat' with_reducible first | assumption | apply modRecover_sound | apply useFrame_sound
                                | refine Sound.foldl (fun _ _ _ => ?_) _ ?_ | split | dsimp only

theorem dropRecordOf_sound (h : Sound q s) {key : Nat}  :
    Sound q (State.dropRecordOf s key) := by
  unfold State.dropRecordOf
  repeat' with_reducible first | assumption | apply modRecover_sound | apply twinSats_sound | apply twinShared_sound
                                | dsimp only

theorem takeRecord_sound (h : Sound q s) {owner : Nat} {pos : Nat} {b : List Byte}  :
    Sound q (State.takeRecord s owner pos b) := by
  unfold State.takeRecord
  repeat' with_reducible first | assumption | apply dropRecordOf_sound | apply modRecover_sound | apply takeCrc_sound
                                | apply takeFreed_sound | apply takeSats_sound | apply takeShared_sound
                                | apply takeVersion_sound | split | dsimp only

theorem takeTwinImm_sound (h : Sound q s) {owner : Nat} {imm : W32} {pos : Nat} {data : List Byte}  :
    Sound q (State.takeTwinImm s owner imm pos data) := by
  unfold State.takeTwinImm
  repeat' with_reducible first | assumption | apply takeRecord_sound | apply takeRow_sound | apply takeTail_sound
                                | apply takeWhole_sound | split | dsimp only

theorem awaitLate_sound (h : Sound q s) {qp : Nat} {key : W32}  :
    Sound q (State.awaitLate s qp key) := by
  unfold State.awaitLate
  repeat' with_reducible first | assumption | apply modRegions_sound | split | dsimp only

theorem placeDrift_sound (h : Sound q s) {slot : Nat} {off : Nat} {bs : List Byte}  :
    Sound q (State.placeDrift s slot off bs) := by
  unfold State.placeDrift
  repeat' with_reducible first | assumption | apply writeFrame_sound | refine Sound.foldl (fun _ _ _ => ?_) _ ?_
                                | split | dsimp only

theorem place_sound (h : Sound q s) {t : WriteTarget} {off : Nat} {bs : List Byte}  :
    Sound q (State.place s t off bs) := by
  unfold State.place
  repeat' with_reducible first | assumption | apply placeDrift_sound | apply placeTwin_sound | apply writeRange_sound
                                | split | dsimp only

theorem takeImm_sound (h : Sound q s) {qp : Nat} {t : WriteTarget} {off : Nat} {len : Nat} {imm : W32}  :
    Sound q (State.takeImm s qp t off len imm) := by
  unfold State.takeImm
  repeat' with_reducible first | assumption | apply bump_sound | apply takeTicket_sound | apply takeTwinImm_sound
                                | split | dsimp only

theorem settleWaits_sound (h : Sound q s) {i : Nat}  :
    Sound q (State.settleWaits s i) := by
  unfold State.settleWaits
  repeat' with_reducible first | assumption | apply modRegions_sound | dsimp only

theorem endAdmitted_sound (h : Sound q s) {i : Nat}  :
    Sound q (State.endAdmitted s i) := by
  unfold State.endAdmitted
  repeat' with_reducible first | assumption | apply modQp_sound | apply settleWaits_sound | dsimp only

theorem placePart_sound (h : Sound q s) {m : RdmaMsg} {a : Admitted}  :
    Sound q (State.placePart s m a) := by
  unfold State.placePart
  repeat' with_reducible first | assumption | apply ackNow_sound | apply endAdmitted_sound | apply modQp_sound
                                | apply place_sound | apply takeImm_sound | split | dsimp only

theorem execRdmaWriteRecv_sound (h : Sound q s) {m : RdmaMsg}  :
    OutSound q (execRdmaWriteRecv m s) := by
  unfold execRdmaWriteRecv
  repeat' with_reducible first | assumption | apply ackNow_sound | apply awaitLate_sound | apply bump_sound
                                | apply nakError_sound | apply placePart_sound | apply receiveMsg_sound
                                | apply OutSound.next | refine Sound.of_snd ?_ (by assumption) | split | dsimp only

theorem respond_sound (h : Sound q s) {qp : Nat} {psn : Nat} {op : WireOp}  :
    Sound q (State.respond s qp psn op) := by
  unfold State.respond
  repeat' with_reducible first | assumption | rfl | exact modifyAt_length _ _ _ | exact setAt_length _ _ _
                                | exact List.length_map _ | apply modNet_sound | apply post_sound | split | dsimp only

theorem execRdmaReadRecv_sound (h : Sound q s) {m : RdmaMsg}  :
    OutSound q (execRdmaReadRecv m s) := by
  unfold execRdmaReadRecv
  repeat' with_reducible first | assumption | apply awaitLate_sound | apply bump_sound | apply modQp_sound
                                | apply nakError_sound | apply readRange_sound | apply receiveMsg_sound
                                | apply respond_sound | apply OutSound.next | refine Sound.of_snd ?_ (by assumption)
                                | split | dsimp only

theorem execTwinWriteRecv_sound (h : Sound q s) {qp : Nat} {psn : Nat} {imm : W32} {offset : Nat} {data : List Byte}  :
    OutSound q (execTwinWriteRecv qp psn imm offset data s) := by
  unfold execTwinWriteRecv
  repeat' with_reducible first | assumption | apply ackMessage_sound | apply ackNow_sound | apply bump_sound
                                | apply nakError_sound | apply placeTwin_sound | apply receiveMsg_sound
                                | apply takeTwinImm_sound | apply OutSound.next
                                | refine Sound.of_snd ?_ (by assumption) | split | dsimp only

theorem armTimer_sound (h : Sound q s) {i : Nat}  :
    Sound q (State.armTimer s i) := by
  unfold State.armTimer
  repeat' with_reducible first | assumption | apply modQp_sound | split | dsimp only

theorem tagAcked_sound (h : Sound q s) {t : Tag}  :
    Sound q (State.tagAcked s t) := by
  unfold State.tagAcked
  repeat' with_reducible first | assumption | rfl | exact modifyAt_length _ _ _ | exact setAt_length _ _ _
                                | exact List.length_map _ | apply commitPrefix_sound | apply modNet_sound
                                | apply modPartner_sound | apply moveRecorded_sound | apply recordDelivered_sound
                                | apply releaseWaiting_sound | split | dsimp only

theorem takeAck_sound (h : Sound q s) {i : Nat} {psn : Nat}  :
    Sound q (State.takeAck s i psn) := by
  unfold State.takeAck
  repeat' with_reducible first | assumption | apply armTimer_sound | apply contact_sound | apply modQp_sound
                                | apply tagAcked_sound | refine Sound.foldl (fun _ _ _ => ?_) _ ?_ | split
                                | dsimp only

theorem resend_sound (h : Sound q s) {i : Nat}  :
    Sound q (State.resend s i) := by
  unfold State.resend
  repeat' with_reducible first | assumption | rfl | exact modifyAt_length _ _ _ | exact setAt_length _ _ _
                                | exact List.length_map _ | apply modNet_sound | apply modQp_sound | split
                                | dsimp only

theorem retry_sound (h : Sound q s) {i : Nat}  :
    Sound q (State.retry s i) := by
  unfold State.retry
  repeat' with_reducible first | assumption | apply modQp_sound | apply qpError_sound | apply resend_sound | split
                                | dsimp only

theorem execRdmaAckRecv_sound (h : Sound q s) {qp : Nat} {psn : Nat}  :
    OutSound q (execRdmaAckRecv qp psn s) := by
  unfold execRdmaAckRecv
  repeat' with_reducible first | assumption | apply injected_sound | apply takeAck_sound | apply OutSound.next
                                | refine Sound.of_snd ?_ (by assumption) | split | dsimp only

theorem execRdmaNakRecv_sound (h : Sound q s) {qp : Nat} {psn : Nat} {kind : NakKind}  :
    OutSound q (execRdmaNakRecv qp psn kind s) := by
  unfold execRdmaNakRecv
  repeat' with_reducible first | assumption | apply qpError_sound | apply retry_sound | apply takeAck_sound
                                | apply OutSound.next | split | dsimp only

theorem execAckTimeout_sound (h : Sound q s) {qp : Nat}  :
    OutSound q (execAckTimeout qp s) := by
  unfold execAckTimeout
  repeat' with_reducible first | assumption | apply bump_sound | apply modQp_sound | apply retry_sound
                                | apply OutSound.next | split | dsimp only

theorem execRnrNakRecv_sound (h : Sound q s) {qp : Nat} {timerNs : Nat}  :
    OutSound q (execRnrNakRecv qp timerNs s) := by
  unfold execRnrNakRecv
  repeat' with_reducible first | assumption | apply modQp_sound | apply qpError_sound | apply OutSound.next | split
                                | dsimp only

theorem execRnrTimerExpiry_sound (h : Sound q s) {qp : Nat}  :
    OutSound q (execRnrTimerExpiry qp s) := by
  unfold execRnrTimerExpiry
  repeat' with_reducible first | assumption | apply modQp_sound | apply resend_sound | apply OutSound.next | split
                                | dsimp only

theorem execCePacketRecv_sound (h : Sound q s) {qp : Nat}  :
    OutSound q (execCePacketRecv qp s) := by
  unfold execCePacketRecv
  repeat' with_reducible first | assumption | apply bump_sound | apply modQp_sound | apply sendControl_sound
                                | apply OutSound.next | split | dsimp only

theorem execCnpRecv_sound (h : Sound q s) {qp : Nat}  :
    OutSound q (execCnpRecv qp s) := by
  unfold execCnpRecv
  repeat' with_reducible first | assumption | apply bump_sound | apply modQp_sound | apply OutSound.next | split
                                | dsimp only

theorem execRateRecoveryPeriod_sound (h : Sound q s) {qp : Nat}  :
    OutSound q (execRateRecoveryPeriod qp s) := by
  unfold execRateRecoveryPeriod
  repeat' with_reducible first | assumption | apply modQp_sound | apply OutSound.next | split | dsimp only

theorem execPauseFrameRecv_sound (h : Sound q s) {port : Nat} {priority : Nat} {pause : Bool}  :
    OutSound q (execPauseFrameRecv port priority pause s) := by
  unfold execPauseFrameRecv
  repeat' with_reducible first | assumption | apply modPort_sound | apply settleCredit_sound | apply OutSound.next
                                | split | dsimp only

theorem execPfcStormTimer_sound (h : Sound q s) {port : Nat} {priority : Nat}  :
    OutSound q (execPfcStormTimer port priority s) := by
  unfold execPfcStormTimer
  repeat' with_reducible first | assumption | apply bump_sound | apply drawBelow_sound | apply modPort_sound
                                | apply settleCredit_sound | apply watchdogFired_sound | apply OutSound.next
                                | refine Sound.of_snd ?_ (by assumption) | split | dsimp only

theorem execPortLinkLoss_sound (h : Sound q s) {port : Nat}  :
    OutSound q (execPortLinkLoss port s) := by
  unfold execPortLinkLoss
  repeat' with_reducible first | assumption | apply modPort_sound | apply settleCredits_sound | apply OutSound.next
                                | dsimp only

theorem execPortLinkUp_sound (h : Sound q s) {port : Nat}  :
    OutSound q (execPortLinkUp port s) := by
  unfold execPortLinkUp
  repeat' with_reducible first | assumption | apply injected_sound | apply modPort_sound | apply settleCredits_sound
                                | apply OutSound.next | refine Sound.of_snd ?_ (by assumption) | split | dsimp only

theorem execRepairFetch_sound (h : Sound q s) {p : QpPsn} {cid : Nat} {layer : Nat} {head : Nat} {page : Nat} {frame : Nat}  :
    OutSound q (execRepairFetch p cid layer head page frame s) := by
  unfold execRepairFetch
  repeat' with_reducible first | assumption | apply bump_sound | apply checkFrame_sound | apply post_sound
                                | apply receiveSend_sound | apply retireFrame_sound | apply OutSound.next
                                | refine Sound.of_snd ?_ (by assumption) | split | dsimp only


end Sys2Proof.Machine
end

