-- ==== Sys2Proof/Laws/SoundEgress.lean ====
section
/-! SUPPORT. That every operation of Machine/Egress.lean keeps what every step keeps. -/
set_option Elab.async false

namespace Sys2Proof.Machine

variable {q : List Instr} {s : State}

theorem countFitHolds_sound (h : Sound q s) {port : Nat}  :
    Sound q (State.countFitHolds s port) := by
  unfold State.countFitHolds
  repeat' with_reducible first | assumption | rfl | exact modifyAt_length _ _ _ | exact setAt_length _ _ _
                                | exact List.length_map _ | apply bumpBy_sound | apply modNet_sound | split
                                | dsimp only

theorem frameUnits_sound (h : Sound q s) {m : Msg}  :
    Sound q (State.frameUnits s m).2 := by
  unfold State.frameUnits
  repeat' with_reducible first | assumption | apply chkEgress_sound | apply chkHold_sound
                                | refine Sound.foldl (fun _ _ _ => ?_) _ ?_
                                | refine Sound.foldlSnd (fun _ _ _ => ?_) _ ?_
                                | refine Sound.of_snd ?_ (by assumption) | split | dsimp only

theorem messageSent_sound (h : Sound q s) {m : Msg}  :
    Sound q (State.messageSent s m) := by
  unfold State.messageSent
  repeat' with_reducible first | assumption | rfl | apply armTimer_sound | apply modDrift_sound | apply modNet_sound
                                | apply modQp_sound | apply settleWaits_sound | split | dsimp only

theorem sendFrame_sound (h : Sound q s) {port : Nat} {m : Msg}  :
    Sound q (State.sendFrame s port m) := by
  unfold State.sendFrame
  repeat' with_reducible first | assumption | rfl | exact modifyAt_length _ _ _ | exact setAt_length _ _ _
                                | exact List.length_map _ | apply frameUnits_sound | apply messageSent_sound
                                | apply modNet_sound | apply modPort_sound | apply modQp_sound
                                | apply spendCredit_sound | refine Sound.of_snd ?_ (by assumption) | split
                                | dsimp only

theorem sendReady_sound (h : Sound q s) {port : Nat} {w : Sent}  :
    Sound q (State.sendReady s port w) := by
  unfold State.sendReady
  repeat' with_reducible first | assumption | rfl | apply modNet_sound | apply modPort_sound | apply spendCredit_sound
                                | dsimp only

theorem sendChoice_sound (h : Sound q s) {port : Nat} {c : Choice}  :
    Sound q (State.sendChoice s port c) := by
  unfold State.sendChoice
  repeat' with_reducible first | assumption | apply sendFrame_sound | apply sendReady_sound | split | dsimp only

theorem dropDeficits_sound (h : Sound q s) {port : Nat} {cls : Nat}  :
    Sound q (State.dropDeficits s port cls) := by
  unfold State.dropDeficits
  repeat' with_reducible first | assumption | apply modPort_sound | dsimp only

theorem serveClass_sound (h : Sound q s) {port : Nat} {cls : Nat}  :
    Sound q (State.serveClass s port cls) := by
  unfold State.serveClass
  repeat' with_reducible first | assumption | apply dropDeficits_sound | apply modPort_sound | apply sendChoice_sound
                                | split | dsimp only

theorem execEgressFrameSelect_sound (h : Sound q s) {port : Nat}  :
    OutSound q (execEgressFrameSelect port s) := by
  unfold execEgressFrameSelect
  repeat' with_reducible first | assumption | apply countFitHolds_sound | apply serveClass_sound
                                | apply settlePort_sound | apply OutSound.next | split | dsimp only

theorem execGateEntryInstant_sound (h : Sound q s) {port : Nat}  :
    OutSound q (execGateEntryInstant port s) := by
  unfold execGateEntryInstant
  repeat' with_reducible first | assumption | apply modPort_sound | apply settleCredit_sound | apply OutSound.next
                                | split | dsimp only

theorem execGclChangeEffect_sound (h : Sound q s) {port : Nat}  :
    OutSound q (execGclChangeEffect port s) := by
  unfold execGclChangeEffect
  repeat' with_reducible first | assumption | apply bump_sound | apply modPort_sound | apply settlePort_sound
                                | apply OutSound.next | split | dsimp only


end Sys2Proof.Machine
end

