-- ==== Sys2Proof/Laws/SoundTwin.lean ====
section
/-! SUPPORT. That every operation of Machine/Twin.lean keeps what every step keeps. -/
set_option Elab.async false

namespace Sys2Proof.Machine

variable {q : List Instr} {s : State}

theorem bindPartner_sound (h : Sound q s) {j : Nat}  :
    Sound q (State.bindPartner s j) := by
  unfold State.bindPartner
  repeat' with_reducible first | assumption | apply modRecover_sound | dsimp only

theorem knowNode_sound (h : Sound q s) {j : Nat}  :
    Sound q (State.knowNode s j) := by
  unfold State.knowNode
  repeat' with_reducible first | assumption | apply modRecover_sound | split | dsimp only

theorem bindTwin_sound (h : Sound q s) {j : Nat} {second : Nat}  :
    Sound q (State.bindTwin s j second) := by
  unfold State.bindTwin
  repeat' with_reducible first | assumption | apply bindPartner_sound | apply drawWord_sound | apply modNode_sound
                                | refine Sound.of_snd ?_ (by assumption) | split | dsimp only

theorem awaitTwin_sound (h : Sound q s) {ctx : CmdCtx}  :
    Sound q (State.awaitTwin s ctx) := by
  unfold State.awaitTwin
  repeat' with_reducible first | assumption | rfl | apply modNet_sound | dsimp only

theorem execTwinBind_sound (h : Sound q s) {c : Cmd}  :
    OutSound q (execTwinBind c s) := by
  unfold execTwinBind
  repeat' with_reducible first | assumption | apply awaitTwin_sound | apply bindTwin_sound | apply drawBelow_sound
                                | apply finish_sound | apply noPayload_sound | apply onArrive_sound
                                | apply OutSound.next | refine Sound.of_snd ?_ (by assumption) | split | intro _
                                | dsimp only

theorem grantFrames_sound (h : Sound q s) {j : Nat} {n : Nat}  :
    Sound q (State.grantFrames s j n).2 := by
  unfold State.grantFrames
  repeat' with_reducible first | assumption | apply modPartner_sound | apply takeFrame_sound
                                | refine Sound.foldl (fun _ _ _ => ?_) _ ?_ | refine Sound.of_snd ?_ (by assumption)
                                | split | dsimp only

theorem takeNewGrant_sound (h : Sound q s) {j : Nat} {n : Nat}  :
    Sound q (State.takeNewGrant s j n) := by
  unfold State.takeNewGrant
  repeat' with_reducible first | assumption | apply modPartner_sound | dsimp only

theorem resyncPage_sound (h : Sound q s) {j : Nat} {pid : Nat}  :
    Sound q (State.resyncPage s j pid) := by
  unfold State.resyncPage
  repeat' with_reducible first | assumption | apply modPage_sound | apply returnGrant_sound | apply soundPage_sound
                                | apply takeGrant_sound | apply twinSats_sound | apply twinWhole_sound
                                | apply wantMove_sound | refine Sound.of_snd ?_ (by assumption)
                                | refine Sound.of_some ?_ (by assumption) | split | dsimp only

theorem resyncConv_sound (h : Sound q s) {cid : Nat}  :
    Sound q (State.resyncConv s cid) := by
  unfold State.resyncConv
  repeat' with_reducible first | assumption | apply modRecover_sound | apply resyncPage_sound | apply twinShared_sound
                                | refine Sound.foldl (fun _ _ _ => ?_) _ ?_ | split | dsimp only

theorem resumeResync_sound (h : Sound q s) {j : Nat}  :
    Sound q (State.resumeResync s j) := by
  unfold State.resumeResync
  repeat' with_reducible first | assumption | apply resyncConv_sound | refine Sound.foldl (fun _ _ _ => ?_) _ ?_
                                | refine Sound.foldlSnd (fun _ _ _ => ?_) _ ?_ | split | dsimp only

theorem resumeResyncs_sound (h : Sound q s)   :
    Sound q (State.resumeResyncs s) := by
  unfold State.resumeResyncs
  repeat' with_reducible first | assumption | apply resumeResync_sound | refine Sound.foldl (fun _ _ _ => ?_) _ ?_
                                | dsimp only

theorem settleSole_sound (h : Sound q s)   :
    Sound q (State.settleSole s) := by
  unfold State.settleSole
  repeat' with_reducible first | assumption | apply modRecover_sound | split | dsimp only

theorem releaseRows_sound (h : Sound q s) {pid : Nat}  :
    Sound q (State.releaseRows s pid) := by
  unfold State.releaseRows
  repeat' with_reducible first | assumption | rfl | exact modifyAt_length _ _ _ | exact setAt_length _ _ _
                                | exact List.length_map _ | apply modNet_sound | split | dsimp only

theorem execResyncCopyAck_sound (h : Sound q s) {page : Nat}  :
    OutSound q (execResyncCopyAck page s) := by
  unfold execResyncCopyAck
  repeat' with_reducible first | assumption | rfl | apply bump_sound | apply modNet_sound | apply modRecover_sound
                                | apply releaseRows_sound | apply settleSole_sound | apply OutSound.next | split
                                | dsimp only

theorem recordAssigned_sound (h : Sound q s) {cid : Nat}  :
    Sound q (State.recordAssigned s cid) := by
  unfold State.recordAssigned
  repeat' with_reducible first | assumption | apply twinRecord_sound | split | dsimp only

theorem assignAll_sound (h : Sound q s)   :
    Sound q (State.assignAll s) := by
  unfold State.assignAll
  repeat' with_reducible first | assumption | apply modConv_sound | apply modPartner_sound | apply modRecover_sound
                                | apply recordAssigned_sound | apply resyncConv_sound | apply settleSole_sound
                                | refine Sound.foldl (fun _ _ _ => ?_) _ ?_
                                | refine Sound.foldlSnd (fun _ _ _ => ?_) _ ?_ | split | dsimp only

theorem nextOffer_sound (h : Sound q s) {lost : Nat}  :
    Sound q (State.nextOffer s lost) := by
  unfold State.nextOffer
  repeat' with_reducible first | assumption | apply knowNode_sound | apply modRecover_sound | apply raise_sound
                                | apply writeStamp_sound | split | dsimp only

theorem takeAnswer_sound (h : Sound q s) {j : Nat} {lost : Nat} {frames : Nat}  :
    Sound q (State.takeAnswer s j lost frames) := by
  unfold State.takeAnswer
  repeat' with_reducible first | assumption | apply assignAll_sound | apply bindPartner_sound | apply modPartner_sound
                                | apply modRecover_sound | apply nextOffer_sound | apply takeNewGrant_sound | split
                                | dsimp only

theorem answerOffer_sound (h : Sound q s) {j : Nat} {lost : Nat} {frames : Nat}  :
    Sound q (State.answerOffer s j lost frames) := by
  unfold State.answerOffer
  repeat' with_reducible first | assumption | apply grantFrames_sound | apply modPartner_sound
                                | apply writeStamp_sound | refine Sound.of_snd ?_ (by assumption) | split | dsimp only

theorem execStandinOfferTimeout_sound (h : Sound q s)   :
    OutSound q (execStandinOfferTimeout s) := by
  unfold execStandinOfferTimeout
  repeat' with_reducible first | assumption | apply nextOffer_sound | apply OutSound.next | split | dsimp only

theorem execStampSend_sound (h : Sound q s) {partner : Nat}  :
    OutSound q (execStampSend partner s) := by
  unfold execStampSend
  repeat' with_reducible first | assumption | apply drawBelow_sound | apply grantFrames_sound | apply modPartner_sound
                                | apply writeStamp_sound | apply OutSound.next
                                | refine Sound.of_snd ?_ (by assumption) | split | dsimp only

theorem stampHolds_sound (h : Sound q s) {j : Nat} {b : List Byte}  :
    Sound q (State.stampHolds s j b).2 := by
  unfold State.stampHolds
  repeat' with_reducible first | assumption | apply checkFailed_sound | apply checkStruck_sound
                                | refine Sound.of_snd ?_ (by assumption) | split | dsimp only

theorem applyStamp_sound (h : Sound q s) {j : Nat} {b : List Byte}  :
    Sound q (State.applyStamp s j b) := by
  unfold State.applyStamp
  repeat' with_reducible first | assumption | apply answerOffer_sound | apply knowNode_sound
                                | apply loseParticipant_sound | apply modPartner_sound | apply resumeResync_sound
                                | apply silence_sound | apply takeAnswer_sound | apply takeNewGrant_sound | split
                                | dsimp only

theorem execStampRecv_sound (h : Sound q s) {p : QpPsn} {message : List Byte}  :
    OutSound q (execStampRecv p message s) := by
  unfold execStampRecv
  repeat' with_reducible first | assumption | apply ackMessage_sound | apply applyStamp_sound | apply bump_sound
                                | apply inOrder_sound | apply injected_sound | apply modRecover_sound
                                | apply stampHolds_sound | apply wireOk_sound | apply OutSound.next
                                | refine Sound.of_snd ?_ (by assumption) | split | dsimp only

theorem execPartnerSilence_sound (h : Sound q s) {partner : Nat}  :
    OutSound q (execPartnerSilence partner s) := by
  unfold execPartnerSilence
  repeat' with_reducible first | assumption | apply silence_sound | apply OutSound.next | split | dsimp only

theorem layoutFor_sound (h : Sound q s) {l : Layout}  :
    Sound q (State.layoutFor s l).2 := by
  unfold State.layoutFor
  repeat' with_reducible first | assumption | rfl | apply modAttn_sound | split | dsimp only

theorem enterPromotion_sound (h : Sound q s) {x : Nat} {cid : Nat} {r : TwinRecord}  :
    Sound q (State.enterPromotion s x cid r) := by
  unfold State.enterPromotion
  repeat' with_reducible first | assumption | apply layoutFor_sound | refine Sound.of_snd ?_ (by assumption) | split
                                | dsimp only | apply setConvs_sound

theorem answerLost_sound (h : Sound q s) {x : Nat}  :
    Sound q (State.answerLost s x) := by
  unfold State.answerLost
  repeat' with_reducible first | assumption | apply releaseWaiting_sound | refine Sound.foldl (fun _ _ _ => ?_) _ ?_
                                | dsimp only

theorem dropTwin_sound (h : Sound q s) {x : Nat}  :
    Sound q (State.dropTwin s x) := by
  unfold State.dropTwin
  repeat' with_reducible first | assumption | rfl | apply modTiers_sound | split | dsimp only | apply setConvs_sound

theorem clearLost_sound (h : Sound q s) {x : Nat}  :
    Sound q (State.clearLost s x) := by
  unfold State.clearLost
  repeat' with_reducible first | assumption | apply freeFrame_sound | apply modPartner_sound | apply modRecover_sound
                                | refine Sound.foldl (fun _ _ _ => ?_) _ ?_ | split | dsimp only

theorem versionCopies_sound (h : Sound q s) {v : TwinVersion}  :
    Sound q (State.versionCopies s v).2 := by
  unfold State.versionCopies
  repeat' with_reducible first | assumption | apply checkFrame_sound | apply retireFrame_sound
                                | apply verifySeal_sound | refine Sound.foldl (fun _ _ _ => ?_) _ ?_
                                | refine Sound.foldlSnd (fun _ _ _ => ?_) _ ?_
                                | refine Sound.of_snd ?_ (by assumption) | split | dsimp only

theorem promoteFrame_sound (hs : Sound q s) {h : W64} {slot : Nat} {head : Nat} {l : Layout} {tokens : Nat} {c : TwinCopy} {k : Nat}  :
    Sound q (State.promoteFrame s h slot head l tokens c k).2 := by
  unfold State.promoteFrame
  repeat' with_reducible first | assumption | rfl | apply modTiers_sound | apply setCopy_sound
                                | apply spreadSats_sound | apply useFrame_sound
                                | refine Sound.of_snd ?_ (by assumption) | split | dsimp only

theorem promoteVersion_sound (h : Sound q s) {v : TwinVersion}  :
    Sound q (State.promoteVersion s v) := by
  unfold State.promoteVersion
  repeat' with_reducible first | assumption | apply camInsert_sound | apply drawWord_sound | apply modRegions_sound
                                | apply promoteFrame_sound | apply versionCopies_sound
                                | refine Sound.foldl (fun _ _ _ => ?_) _ ?_
                                | refine Sound.foldlSnd (fun _ _ _ => ?_) _ ?_
                                | refine Sound.of_snd ?_ (by assumption) | refine Sound.of_some ?_ (by assumption)
                                | split | dsimp only

theorem declareLost_sound (h : Sound q s) {x : Nat}  :
    Sound q (State.declareLost s x) := by
  unfold State.declareLost
  repeat' with_reducible first | assumption | apply answerLost_sound | apply assignAll_sound | apply clearLost_sound
                                | apply dropTwin_sound | apply enterPromotion_sound | apply modPartner_sound
                                | apply modRecover_sound | apply nextOffer_sound | apply promoteVersion_sound
                                | apply qpError_sound | refine Sound.foldl (fun _ _ _ => ?_) _ ?_
                                | refine Sound.foldlSnd (fun _ _ _ => ?_) _ ?_ | split | dsimp only

theorem execTwinResync_sound (h : Sound q s) {c : Cmd}  :
    OutSound q (execTwinResync c s) := by
  unfold execTwinResync
  repeat' with_reducible first | assumption | apply declareLost_sound | apply finish_sound | apply noPayload_sound
                                | apply onArrive_sound | apply OutSound.next | split | intro _ | dsimp only

theorem heatPage_sound (h : Sound q s) {pid : Nat} {f : Nat}  :
    Sound q (State.heatPage s pid f) := by
  unfold State.heatPage
  repeat' with_reducible first | assumption | apply allocReserve_sound | apply freeFrame_sound | apply modPage_sound
                                | apply writeFrame_sound | refine Sound.of_snd ?_ (by assumption)
                                | refine Sound.of_some ?_ (by assumption) | split | dsimp only

theorem copySats_sound (h : Sound q s) {c : TwinCopy} {slot : Nat} {fill : Nat} {total : Nat}  :
    Sound q (State.copySats s c slot fill total).2 := by
  unfold State.copySats
  repeat' with_reducible first | assumption | apply spreadSats_sound | apply twinSats_sound | apply Sound.getD
                                | refine Sound.of_snd ?_ (by assumption) | split | dsimp only

theorem copyHome_sound (h : Sound q s) {c : TwinCopy} {slot : Nat} {need : Nat}  :
    Sound q (State.copyHome s c slot need).2 := by
  unfold State.copyHome
  repeat' with_reducible first | assumption | rfl | apply copySats_sound | apply heatPage_sound | apply modTiers_sound
                                | apply setCopy_sound | apply unsealPage_sound | apply useFrame_sound
                                | refine Sound.of_snd ?_ (by assumption) | split | dsimp only

theorem copyGood_sound (h : Sound q s) {c : TwinCopy}  :
    Sound q (State.copyGood s c).2 := by
  unfold State.copyGood
  repeat' with_reducible first | assumption | apply checkFrame_sound | apply retireFrame_sound
                                | apply verifySeal_sound | refine Sound.of_snd ?_ (by assumption) | split | dsimp only

theorem promotePage_sound (h : Sound q s) {owner : Nat} {cid : Nat} {slot : Nat} {k : PageKey} {need : Nat}  :
    Sound q (State.promotePage s owner cid slot k need).2 := by
  unfold State.promotePage
  repeat' with_reducible first | assumption | apply addRef_sound | apply copyGood_sound | apply copyHome_sound
                                | apply modConv_sound | refine Sound.of_snd ?_ (by assumption) | split | dsimp only

theorem announceExtent_sound (h : Sound q s) {owner : Nat} {cid : Nat} {home : Nat} {r : TwinRecord}  :
    Sound q (State.announceExtent s owner cid home r) := by
  unfold State.announceExtent
  repeat' with_reducible first | assumption | apply post_sound | refine Sound.foldl (fun _ _ _ => ?_) _ ?_
                                | dsimp only

theorem endPromotion_sound (h : Sound q s) {owner : Nat} {cid : Nat} {r : TwinRecord} {lengths : List Nat} {whole : Bool}  :
    Sound q (State.endPromotion s owner cid r lengths whole) := by
  unfold State.endPromotion
  repeat' with_reducible first | assumption | apply announceExtent_sound | apply bump_sound | apply clearLost_sound
                                | apply loseConv_sound | apply modConv_sound | apply modRecover_sound
                                | apply resyncConv_sound | apply settleSole_sound | apply twinRecord_sound | split
                                | dsimp only

theorem promotePages_sound (h : Sound q s) {owner : Nat} {cid : Nat} {r : TwinRecord} {lengths : List Nat}  :
    Sound q (State.promotePages s owner cid r lengths).2 := by
  unfold State.promotePages
  repeat' with_reducible first | assumption | apply attachPages_sound | apply promotePage_sound
                                | refine Sound.foldl (fun _ _ _ => ?_) _ ?_
                                | refine Sound.foldlSnd (fun _ _ _ => ?_) _ ?_
                                | refine Sound.of_snd ?_ (by assumption) | split | dsimp only

theorem execConvPromotion_sound (h : Sound q s) {cid : Nat}  :
    OutSound q (execConvPromotion cid s) := by
  unfold execConvPromotion
  repeat' with_reducible first | assumption | apply endPromotion_sound | apply modRecover_sound
                                | apply promotePages_sound | apply OutSound.next
                                | refine Sound.of_snd ?_ (by assumption) | split | dsimp only

theorem execPoolFail_sound (h : Sound q s) {pool : Nat}  :
    OutSound q (execPoolFail pool s) := by
  unfold execPoolFail
  repeat' with_reducible first | assumption | apply failPool_sound | apply OutSound.next | dsimp only


end Sys2Proof.Machine
end

