-- ==== Sys2Proof/Laws/SoundRegs.lean ====
section
/-! SUPPORT. That every operation of Machine/Regs.lean keeps what every step keeps. -/
set_option Elab.async false

namespace Sys2Proof.Machine

variable {q : List Instr} {s : State}

theorem modInj_sound (h : Sound q s) {n : Nat} {f : InjSlot → InjSlot}  :
    Sound q (State.modInj s n f) := by
  unfold State.modInj
  repeat' with_reducible first | assumption | rfl | exact modifyAt_length _ _ _ | exact setAt_length _ _ _
                                | exact List.length_map _ | apply modRegs_sound | dsimp only

theorem armSlot_sound (h : Sound q s) {n : Nat}  :
    Sound q (State.armSlot s n) := by
  unfold State.armSlot
  repeat' with_reducible first | assumption | apply modInj_sound | dsimp only

theorem disarmSlot_sound (h : Sound q s) {n : Nat}  :
    Sound q (State.disarmSlot s n) := by
  unfold State.disarmSlot
  repeat' with_reducible first | assumption | apply modInj_sound | dsimp only

theorem disarmBlock_sound (h : Sound q s) {block : Nat}  :
    Sound q (State.disarmBlock s block) := by
  unfold State.disarmBlock
  repeat' with_reducible first | assumption | rfl | exact modifyAt_length _ _ _ | exact setAt_length _ _ _
                                | exact List.length_map _ | apply modRegs_sound | split | dsimp only

theorem disarmAll_sound (h : Sound q s)   :
    Sound q (State.disarmAll s) := by
  unfold State.disarmAll
  repeat' with_reducible first | assumption | rfl | exact modifyAt_length _ _ _ | exact setAt_length _ _ _
                                | exact List.length_map _ | apply modRegs_sound | dsimp only

theorem startCheck_sound (h : Sound q s) {b : Nat} {waiter : Option CmdCtx}  :
    Sound q (State.startCheck s b waiter) := by
  unfold State.startCheck
  repeat' with_reducible first | assumption | apply checkFailed_sound | apply injected_sound | apply modBlock_sound
                                | refine Sound.of_snd ?_ (by assumption) | split | dsimp only

theorem afterRead_sound (h : Sound q s) {a : Nat}  :
    Sound q (State.afterRead s a) := by
  unfold State.afterRead
  repeat' with_reducible first | assumption | rfl | apply modChk_sound | apply modClk_sound | apply modRegs_sound
                                | apply sramRead_sound | refine Sound.of_snd ?_ (by assumption) | split | dsimp only

theorem readRegs_sound (h : Sound q s) {a : Nat} {n : Nat}  :
    Sound q (State.readRegs s a n).2 := by
  unfold State.readRegs
  repeat' with_reducible first | assumption | apply afterRead_sound | refine Sound.foldl (fun _ _ _ => ?_) _ ?_
                                | refine Sound.foldlSnd (fun _ _ _ => ?_) _ ?_ | dsimp only

theorem readCommand_sound (h : Sound q s) {c : Cmd} {ctx : CmdCtx}  :
    Sound q (State.readCommand s c ctx) := by
  unfold State.readCommand
  repeat' with_reducible first | assumption | apply finish_sound | apply readRegs_sound
                                | refine Sound.of_snd ?_ (by assumption) | split | dsimp only

theorem execRegRead_sound (h : Sound q s) {c : Cmd}  :
    OutSound q (execRegRead c s) := by
  unfold execRegRead
  repeat' with_reducible first | assumption | apply noPayload_sound | apply onArrive_sound | apply readCommand_sound
                                | apply OutSound.next | intro _ | dsimp only

theorem bringUp_sound (h : Sound q s) {i : Nat} {q1 : Qp}  :
    Sound q (State.bringUp s i q1) := by
  unfold State.bringUp
  repeat' with_reducible first | assumption | rfl | apply modNet_sound | apply modRegs_sound | split | dsimp only

theorem establishNodes_sound (h : Sound q s)   :
    Sound q (State.establishNodes s) := by
  unfold State.establishNodes
  repeat' with_reducible first | assumption | apply bringUp_sound | refine Sound.foldl (fun _ _ _ => ?_) _ ?_ | split
                                | dsimp only

theorem establishQp_sound (h : Sound q s)   :
    ExSound q (State.establishQp s) := by
  unfold State.establishQp
  repeat' with_reducible first | assumption | apply bringUp_sound | apply ExSound.error | apply ExSound.ok | split
                                | dsimp only

theorem resetQp_sound (h : Sound q s)   :
    Sound q (State.resetQp s) := by
  unfold State.resetQp
  repeat' with_reducible first | assumption | rfl | apply modNet_sound | apply qpError_sound | dsimp only

theorem changeList_sound (h : Sound q s)   :
    ExSound q (State.changeList s) := by
  unfold State.changeList
  repeat' with_reducible first | assumption | apply modPort_sound | apply ExSound.error | apply ExSound.ok | split
                                | dsimp only

theorem refuseIf_sound (h : Sound q s) {bad : Bool} {reason : Nat}  :
    ExSound q (refuseIf bad reason s) := by
  unfold refuseIf
  repeat' with_reducible first | assumption | apply ExSound.error | apply ExSound.ok | split | dsimp only

theorem tierWrite_sound (h : Sound q s) {b : Nat} {off : Nat} {v : Nat}  :
    ExSound q (State.tierWrite s b off v) := by
  unfold State.tierWrite
  repeat' with_reducible first | assumption | rfl | apply modRegs_sound | apply refuseIf_sound | apply ExSound.error
                                | apply ExSound.ok | refine Sound.of_ok ?_ (by assumption) | split | dsimp only

theorem rdmaWrite_sound (h : Sound q s) {off : Nat} {v : Nat} {w : Nat}  :
    ExSound q (State.rdmaWrite s off v w) := by
  unfold State.rdmaWrite
  repeat' with_reducible first | assumption | rfl | apply establishQp_sound | apply modRegs_sound
                                | apply resetQp_sound | apply ExSound.error | apply ExSound.ok
                                | refine Sound.of_ok ?_ (by assumption) | split | dsimp only

theorem schedWrite_sound (h : Sound q s) {off : Nat} {v : Nat} {w : Nat}  :
    ExSound q (State.schedWrite s off v w) := by
  unfold State.schedWrite
  repeat' with_reducible first | assumption | rfl | exact modifyAt_length _ _ _ | exact setAt_length _ _ _
                                | exact List.length_map _ | apply changeList_sound | apply modPort_sound
                                | apply modRegs_sound | apply refuseIf_sound | apply settleWrite_sound
                                | apply ExSound.error | apply ExSound.ok | refine Sound.foldl (fun _ _ _ => ?_) _ ?_
                                | refine Sound.of_ok ?_ (by assumption) | split | dsimp only

theorem chkWrite_sound (h : Sound q s) {off : Nat} {v : Nat}  :
    ExSound q (State.chkWrite s off v) := by
  unfold State.chkWrite
  repeat' with_reducible first | assumption | rfl | apply modRegs_sound | apply ExSound.error | apply ExSound.ok
                                | apply Sound.getD | split | dsimp only

theorem injWrite_sound (h : Sound q s) {off : Nat} {v : Nat} {w : Nat}  :
    ExSound q (State.injWrite s off v w) := by
  unfold State.injWrite
  repeat' with_reducible first | assumption | apply armSlot_sound | apply disarmSlot_sound | apply modInj_sound
                                | apply ExSound.error | apply ExSound.ok | split | dsimp only

theorem popEvent_sound (h : Sound q s)   :
    Sound q (State.popEvent s) := by
  exact h.ofDrive rfl rfl (Nat.le_trans (List.length_drop ▸ Nat.sub_le _ _) h.events) rfl rfl

theorem plainWrite_sound (h : Sound q s) {b : Nat} {off : Nat} {v : Nat} {w : Nat}  :
    ExSound q (State.plainWrite s b off v w) := by
  unfold State.plainWrite
  repeat' with_reducible first | assumption | rfl | apply modRegsDrive_sound | apply driveAlert_sound
                                | apply makeKeepRoom_sound | apply modRegs_sound | apply popEvent_sound
                                | apply refuseIf_sound | apply ExSound.error | apply ExSound.ok
                                | refine Sound.of_ok ?_ (by assumption) | split | dsimp only

theorem commonWrite_sound (h : Sound q s) {b : Nat} {off : Nat} {v : Nat} {w : Nat} {m : Nat} {ctx : CmdCtx}  :
    ExSound q (State.commonWrite s b off v w m ctx) := by
  unfold State.commonWrite
  repeat' with_reducible first | assumption | apply disarmBlock_sound | apply injected_sound | apply modBlock_sound
                                | apply startCheck_sound | apply ExSound.error | apply ExSound.ok
                                | refine Sound.of_snd ?_ (by assumption) | split | dsimp only

theorem writeReg_sound (h : Sound q s) {a : Nat} {data : Nat} {mask : Nat} {ctx : CmdCtx}  :
    ExSound q (State.writeReg s a data mask ctx) := by
  unfold State.writeReg
  repeat' with_reducible first | assumption | apply chkWrite_sound | apply commonWrite_sound | apply injWrite_sound
                                | apply plainWrite_sound | apply rdmaWrite_sound | apply schedWrite_sound
                                | apply tierWrite_sound | apply ExSound.error | apply ExSound.ok
                                | refine Sound.of_ok ?_ (by assumption) | split | dsimp only

theorem writeCommand_sound (h : Sound q s) {c : Cmd} {ctx : CmdCtx}  :
    Sound q (State.writeCommand s c ctx) := by
  unfold State.writeCommand
  repeat' with_reducible first | assumption | apply finish_sound | apply writeReg_sound
                                | refine Sound.of_ok ?_ (by assumption) | split | dsimp only

theorem regWritePacket_sound (h : Sound q s) {c : Cmd}  :
    Sound q (State.regWritePacket s c) := by
  unfold State.regWritePacket
  repeat' with_reducible first | assumption | apply noPayload_sound | apply onArrive_sound | apply writeCommand_sound
                                | intro _ | dsimp only

theorem execRegWrite_sound (h : Sound q s) {c : Cmd}  :
    OutSound q (execRegWrite c s) := by
  unfold execRegWrite
  repeat' with_reducible first | assumption | apply regWritePacket_sound | apply OutSound.next | dsimp only

theorem execBlockEnable_sound (h : Sound q s) {c : Cmd}  :
    OutSound q (execBlockEnable c s) := by
  unfold execBlockEnable
  repeat' with_reducible first | assumption | apply regWritePacket_sound | apply OutSound.next | dsimp only

theorem execBlockDisable_sound (h : Sound q s) {c : Cmd}  :
    OutSound q (execBlockDisable c s) := by
  unfold execBlockDisable
  repeat' with_reducible first | assumption | apply regWritePacket_sound | apply OutSound.next | dsimp only

theorem execQpsEstablish_sound (h : Sound q s) {c : Cmd}  :
    OutSound q (execQpsEstablish c s) := by
  unfold execQpsEstablish
  repeat' with_reducible first | assumption | apply regWritePacket_sound | apply OutSound.next | dsimp only

theorem execQpsReset_sound (h : Sound q s) {c : Cmd}  :
    OutSound q (execQpsReset c s) := by
  unfold execQpsReset
  repeat' with_reducible first | assumption | apply regWritePacket_sound | apply OutSound.next | dsimp only

theorem execGclChange_sound (h : Sound q s) {c : Cmd}  :
    OutSound q (execGclChange c s) := by
  unfold execGclChange
  repeat' with_reducible first | assumption | apply regWritePacket_sound | apply OutSound.next | dsimp only

theorem execInjArm_sound (h : Sound q s) {c : Cmd}  :
    OutSound q (execInjArm c s) := by
  unfold execInjArm
  repeat' with_reducible first | assumption | apply regWritePacket_sound | apply OutSound.next | dsimp only

theorem execInjDisarm_sound (h : Sound q s) {c : Cmd}  :
    OutSound q (execInjDisarm c s) := by
  unfold execInjDisarm
  repeat' with_reducible first | assumption | apply regWritePacket_sound | apply OutSound.next | dsimp only

theorem execInjBlockDisarm_sound (h : Sound q s) {c : Cmd}  :
    OutSound q (execInjBlockDisarm c s) := by
  unfold execInjBlockDisarm
  repeat' with_reducible first | assumption | apply regWritePacket_sound | apply OutSound.next | dsimp only

theorem execChkUnitEnable_sound (h : Sound q s) {c : Cmd}  :
    OutSound q (execChkUnitEnable c s) := by
  unfold execChkUnitEnable
  repeat' with_reducible first | assumption | apply regWritePacket_sound | apply OutSound.next | dsimp only

theorem execEvtPop_sound (h : Sound q s) {c : Cmd}  :
    OutSound q (execEvtPop c s) := by
  unfold execEvtPop
  repeat' with_reducible first | assumption | apply regWritePacket_sound | apply OutSound.next | dsimp only

theorem execInjDelayExpiry_sound (h : Sound q s) {slot : Nat}  :
    OutSound q (execInjDelayExpiry slot s) := by
  unfold execInjDelayExpiry
  repeat' with_reducible first | assumption | apply modInj_sound | apply OutSound.next | apply Sound.getD | split
                                | dsimp only

theorem endServe_sound (h : Sound q s)   :
    Sound q (State.endServe s) := by
  unfold State.endServe
  repeat' with_reducible first | assumption | rfl | exact modifyAt_length _ _ _ | exact setAt_length _ _ _
                                | exact List.length_map _ | apply drawBelow_sound | apply finish_sound
                                | apply modNode_sound | apply modRecover_sound
                                | refine Sound.foldl (fun _ _ _ => ?_) _ ?_ | refine Sound.of_snd ?_ (by assumption)
                                | split | dsimp only | apply setBlocks_sound

theorem execBlockCheckDone_sound (h : Sound q s) {block : Nat}  :
    OutSound q (execBlockCheckDone block s) := by
  unfold execBlockCheckDone
  repeat' with_reducible first | assumption | apply endServe_sound | apply finish_sound | apply modBlock_sound
                                | apply OutSound.next | split | dsimp only


end Sys2Proof.Machine
end

