-- ==== Sys2Proof/Laws/SoundNode.lean ====
section
/-! SUPPORT. That every operation of Machine/Node.lean keeps what every step keeps. -/
set_option Elab.async false

namespace Sys2Proof.Machine

variable {q : List Instr} {s : State}

theorem execNodeQuery_sound (h : Sound q s) {c : Cmd}  :
    OutSound q (execNodeQuery c s) := by
  unfold execNodeQuery
  repeat' with_reducible first | assumption | apply finish_sound | apply noPayload_sound | apply onArrive_sound
                                | apply OutSound.next | intro _ | dsimp only

theorem takeProfile_sound (h : Sound q s) {p : Profile}  :
    Sound q (State.takeProfile s p) := by
  unfold State.takeProfile
  repeat' with_reducible first | assumption | rfl | apply modNode_sound | apply modRegs_sound | dsimp only

theorem loadProfile_sound (h : Sound q s) {env : List Byte} {ctx : CmdCtx}  :
    Sound q (State.loadProfile s env ctx) := by
  unfold State.loadProfile
  repeat' with_reducible first | assumption | apply disarmAll_sound | apply finish_sound | apply modTrust_sound
                                | apply takeProfile_sound | split | dsimp only

theorem execNodeProfileLoad_sound (h : Sound q s) {c : Cmd}  :
    OutSound q (execNodeProfileLoad c s) := by
  unfold execNodeProfileLoad
  repeat' with_reducible first | assumption | apply loadProfile_sound | apply onArrive_sound | apply OutSound.next
                                | intro _ | dsimp only

theorem reoffer_sound (h : Sound q s)   :
    Sound q (State.reoffer s) := by
  unfold State.reoffer
  repeat' with_reducible first | assumption | apply modRecover_sound | apply nextOffer_sound | apply Sound.getD
                                | split | dsimp only

theorem takeFabric_sound (h : Sound q s) {f : Fabric}  :
    Sound q (State.takeFabric s f) := by
  unfold State.takeFabric
  repeat' with_reducible first | assumption | apply enterFenced_sound | apply establishNodes_sound
                                | apply modNode_sound | apply reoffer_sound | split | dsimp only

theorem loadFabric_sound (h : Sound q s) {b : List Byte} {ctx : CmdCtx}  :
    Sound q (State.loadFabric s b ctx) := by
  unfold State.loadFabric
  repeat' with_reducible first | assumption | apply finish_sound | apply takeFabric_sound | split | dsimp only

theorem execFabricTableLoad_sound (h : Sound q s) {c : Cmd}  :
    OutSound q (execFabricTableLoad c s) := by
  unfold execFabricTableLoad
  repeat' with_reducible first | assumption | apply loadFabric_sound | apply onArrive_sound | apply OutSound.next
                                | intro _ | dsimp only

theorem execNodeServe_sound (h : Sound q s) {c : Cmd}  :
    OutSound q (execNodeServe c s) := by
  unfold execNodeServe
  repeat' with_reducible first | assumption | apply endServe_sound | apply finish_sound | apply modNode_sound
                                | apply noPayload_sound | apply onArrive_sound | apply startCheck_sound
                                | apply OutSound.next | refine Sound.foldl (fun _ _ _ => ?_) _ ?_ | split | intro _
                                | dsimp only

theorem migratePage_sound (h : Sound q s) {pid : Nat}  :
    Sound q (State.migratePage s pid) := by
  unfold State.migratePage
  repeat' with_reducible first | assumption | apply allocFrame_sound | apply leaveFrame_sound | apply modPage_sound
                                | apply soundPage_sound | apply wantMove_sound | apply writeFrame_sound
                                | refine Sound.of_snd ?_ (by assumption) | refine Sound.of_some ?_ (by assumption)
                                | split | dsimp only

theorem migrateStack_sound (h : Sound q s) {k : Nat}  :
    Sound q (State.migrateStack s k) := by
  unfold State.migrateStack
  repeat' with_reducible first | assumption | apply migratePage_sound | refine Sound.foldl (fun _ _ _ => ?_) _ ?_
                                | dsimp only

theorem drainTile_sound (h : Sound q s) {p : Nat}  :
    Sound q (State.drainTile s p) := by
  unfold State.drainTile
  repeat' with_reducible first | assumption | apply checkSpares_sound | apply chooseSubstitute_sound
                                | apply foreseeSubstitute_sound | apply modLogical_sound | apply modTile_sound | split
                                | dsimp only

theorem startDrain_sound (h : Sound q s) {scope : Nat} {unit : Nat}  :
    Sound q (State.startDrain s scope unit) := by
  unfold State.startDrain
  repeat' with_reducible first | assumption | apply abortPasses_sound | apply drainTile_sound
                                | apply migrateStack_sound | apply modNode_sound | apply modPort_sound
                                | apply modRecover_sound | split | dsimp only

theorem returnUnit_sound (h : Sound q s) {scope : Nat} {unit : Nat}  :
    Sound q (State.returnUnit s scope unit) := by
  unfold State.returnUnit
  repeat' with_reducible first | assumption | rfl | exact modifyAt_length _ _ _ | exact setAt_length _ _ _
                                | exact List.length_map _ | apply modNode_sound | apply modPort_sound
                                | apply modRecover_sound | apply modRegs_sound | apply modTile_sound | split
                                | dsimp only

theorem execNodeDrain_sound (h : Sound q s) {c : Cmd}  :
    OutSound q (execNodeDrain c s) := by
  unfold execNodeDrain
  repeat' with_reducible first | assumption | apply finish_sound | apply noPayload_sound | apply onArrive_sound
                                | apply returnUnit_sound | apply startDrain_sound | apply OutSound.next | split
                                | intro _ | dsimp only

theorem remapPool_sound (h : Sound q s) {p : Nat}  :
    Sound q (State.remapPool s p) := by
  unfold State.remapPool
  repeat' with_reducible first | assumption | rfl | exact modifyAt_length _ _ _ | exact setAt_length _ _ _
                                | exact List.length_map _ | apply modRegs_sound | split | dsimp only

theorem endDrain_sound (h : Sound q s) {d : Drain}  :
    Sound q (State.endDrain s d) := by
  unfold State.endDrain
  repeat' with_reducible first | assumption | apply abortPasses_sound | apply drawBelow_sound | apply modNode_sound
                                | apply raise_sound | apply remapPool_sound | refine Sound.of_snd ?_ (by assumption)
                                | split | dsimp only

theorem execDrainDone_sound (h : Sound q s)   :
    OutSound q (execDrainDone s) := by
  unfold execDrainDone
  repeat' with_reducible first | assumption | apply endDrain_sound | apply migrateStack_sound | apply OutSound.next
                                | refine Sound.foldl (fun _ _ _ => ?_) _ ?_ | split | dsimp only

theorem becomeCache_sound (h : Sound q s)   :
    Sound q (State.becomeCache s) := by
  unfold State.becomeCache
  repeat' with_reducible first | assumption | apply bindTwin_sound | apply modNode_sound | apply modRecover_sound
                                | apply reoffer_sound | refine Sound.foldl (fun _ _ _ => ?_) _ ?_
                                | refine Sound.foldlSnd (fun _ _ _ => ?_) _ ?_ | split | dsimp only

theorem setRole_sound (h : Sound q s) {r : Role}  :
    Sound q (State.setRole s r) := by
  unfold State.setRole
  repeat' with_reducible first | assumption | apply becomeCache_sound | apply modNode_sound | split | dsimp only

theorem execRoleSet_sound (h : Sound q s) {c : Cmd}  :
    OutSound q (execRoleSet c s) := by
  unfold execRoleSet
  repeat' with_reducible first | assumption | apply finish_sound | apply noPayload_sound | apply onArrive_sound
                                | apply setRole_sound | apply OutSound.next | split | intro _ | dsimp only

theorem noteCorrected_sound (h : Sound q s) {fec links : Nat} :
    Sound q (State.noteCorrected s fec links) := by
  unfold State.noteCorrected
  repeat' with_reducible first | assumption | apply modRecover_sound | split | dsimp only

theorem execHealthRead_sound (h : Sound q s) {c : Cmd}  :
    OutSound q (execHealthRead c s) := by
  unfold execHealthRead
  repeat' with_reducible first | assumption | apply finish_sound | apply noPayload_sound | apply onArrive_sound
                                | apply OutSound.next | intro _ | dsimp only

theorem execFence_sound (h : Sound q s) {c : Cmd}  :
    OutSound q (execFence c s) := by
  unfold execFence
  repeat' with_reducible first | assumption | apply enterFenced_sound | apply finish_sound | apply noPayload_sound
                                | apply onArrive_sound | apply OutSound.next | intro _ | dsimp only

theorem execHealthTick_sound (h : Sound q s) {fec links : Nat} :
    OutSound q (execHealthTick fec links s) := by
  unfold execHealthTick
  repeat' with_reducible first | assumption | apply bump_sound | apply modRecover_sound | apply noteCorrected_sound
                                | apply OutSound.next | apply Sound.getD | split | dsimp only

theorem execHealthLowTimer_sound (h : Sound q s)   :
    OutSound q (execHealthLowTimer s) := by
  unfold execHealthLowTimer
  repeat' with_reducible first | assumption | apply bump_sound | apply enterFenced_sound | apply modNode_sound
                                | apply raise_sound | apply OutSound.next | split | dsimp only

theorem execDegradedRecover_sound (h : Sound q s)   :
    OutSound q (execDegradedRecover s) := by
  unfold execDegradedRecover
  repeat' with_reducible first | assumption | apply modNode_sound | apply OutSound.next | split | dsimp only

theorem execGuardWindowStart_sound (h : Sound q s)   :
    OutSound q (execGuardWindowStart s) := by
  unfold execGuardWindowStart
  repeat' with_reducible first | assumption | apply modRecover_sound | apply OutSound.next | split | dsimp only


end Sys2Proof.Machine
end

