-- ==== Sys2Proof/Laws/SoundTrust.lean ====
section
/-! SUPPORT. That every operation of Machine/Trust.lean keeps what every step keeps. -/
set_option Elab.async false

namespace Sys2Proof.Machine

variable {q : List Instr} {s : State}

theorem bellwether_sound (h : Sound q s) {ctx : CmdCtx} {f : State → State} (hf : ∀ t, Sound q t → Sound q (f t)) :
    Sound q (State.bellwether s ctx f) := by
  unfold State.bellwether
  repeat' with_reducible first | assumption | apply hf | apply finish_sound | apply sramRead_sound
                                | refine Sound.of_snd ?_ (by assumption) | split | dsimp only

theorem noteReport_sound (h : Sound q s) {r : List Byte}  :
    Sound q (State.noteReport s r) := by
  unfold State.noteReport
  repeat' with_reducible first | assumption | apply modTrust_sound | dsimp only

theorem execAttest_sound (h : Sound q s) {c : Cmd}  :
    OutSound q (execAttest c s) := by
  unfold execAttest
  repeat' with_reducible first | assumption | apply bellwether_sound | apply finishResult_sound | apply finish_sound
                                | apply noteReport_sound | apply onArrive_sound | apply OutSound.next | split
                                | intro _ | dsimp only

theorem clearTenantView_sound (h : Sound q s)   :
    Sound q (State.clearTenantView s) := by
  unfold State.clearTenantView
  apply modRecover_sound
  refine ⟨h.queue, h.memory, h.alert, h.events, (fun k v e => by exact nomatch (e : (none : Option Nat) = some v)), ?_⟩
  have e := h.sizes
  simp only [State.sizes] at e ⊢
  rw [List.length_map]
  exact e

theorem admitTenant_sound (h : Sound q s) {b : List Byte}  :
    Sound q (State.admitTenant s b) := by
  unfold State.admitTenant
  repeat' with_reducible first | assumption | apply clearTenantView_sound | apply disarmAll_sound
                                | apply modRegions_sound | apply modTrust_sound | dsimp only | apply setAborts_sound

theorem execTenantBegin_sound (h : Sound q s) {c : Cmd}  :
    OutSound q (execTenantBegin c s) := by
  unfold execTenantBegin
  repeat' with_reducible first | assumption | apply admitTenant_sound | apply bellwether_sound | apply finish_sound
                                | apply onArrive_sound | apply OutSound.next | split | intro _ | dsimp only

theorem endConvWork_sound (h : Sound q s) {cid : Nat} {c : Conv}  :
    Sound q (State.endConvWork s cid c) := by
  unfold State.endConvWork
  repeat' with_reducible first | assumption | apply finish_sound | apply modConv_sound | apply refuseAppend_sound
                                | refine Sound.foldl (fun _ _ _ => ?_) _ ?_ | split | dsimp only

theorem forgetEnded_sound (h : Sound q s)   :
    Sound q (State.forgetEnded s) := by
  unfold State.forgetEnded
  repeat' with_reducible first | assumption | rfl | exact modifyAt_length _ _ _ | exact setAt_length _ _ _
                                | exact List.length_map _ | apply modNet_sound | apply modRegions_sound | split
                                | dsimp only | apply setDrifts_sound

theorem endTenantWork_sound (h : Sound q s)   :
    Sound q (State.endTenantWork s) := by
  unfold State.endTenantWork
  repeat' with_reducible first | assumption | apply abortPasses_sound | apply endConvWork_sound | apply endPass_sound
                                | apply endReq_sound | apply finish_sound | apply forgetEnded_sound
                                | refine Sound.foldl (fun _ _ _ => ?_) _ ?_
                                | refine Sound.foldlSnd (fun _ _ _ => ?_) _ ?_ | split | dsimp only

theorem flushMessage_sound (h : Sound q s) {m : Msg}  :
    Sound q (State.flushMessage s m) := by
  unfold State.flushMessage
  repeat' with_reducible first | assumption | rfl | exact modifyAt_length _ _ _ | exact setAt_length _ _ _
                                | exact List.length_map _ | apply modNet_sound | apply modQp_sound | dsimp only

theorem flushReplies_sound (h : Sound q s)   :
    Sound q (State.flushReplies s) := by
  unfold State.flushReplies
  repeat' with_reducible first | assumption | rfl | apply flushMessage_sound | apply modNet_sound
                                | refine Sound.foldl (fun _ _ _ => ?_) _ ?_ | dsimp only

theorem resetHostQps_sound (h : Sound q s)   :
    Sound q (State.resetHostQps s) := by
  unfold State.resetHostQps
  repeat' with_reducible first | assumption | rfl | apply flushReplies_sound | apply modNet_sound | split | dsimp only

theorem zeroMessages_sound (h : Sound q s)   :
    Sound q (State.zeroMessages s) := by
  unfold State.zeroMessages
  repeat' with_reducible first | assumption | rfl | exact modifyAt_length _ _ _ | exact setAt_length _ _ _
                                | exact List.length_map _ | apply modNet_sound | split | dsimp only

theorem clearTiers_sound (h : Sound q s)   :
    Sound q (State.clearTiers s) := by
  exact ⟨h.queue, rfl, h.alert, h.events, h.counters, h.sizes⟩

theorem clearTenantState_sound (h : Sound q s)   :
    Sound q (State.clearTenantState s) := by
  have e := h.sizes
  refine ⟨h.queue, h.memory, h.alert, h.events, h.counters, ?_⟩
  simp only [State.sizes, List.cons.injEq, and_true] at e
  obtain ⟨e1, e2, e3, e4, e5, e6⟩ := e
  simp [State.clearTenantState, State.sizes, State.modRecover, State.modNet, State.modAttn, e1, e3, e4, e5, e6]

theorem rotateKeys_sound (h : Sound q s)   :
    Sound q (State.rotateKeys s) := by
  unfold State.rotateKeys
  repeat' with_reducible first | assumption | apply deliverKeys_sound | apply modTrust_sound | dsimp only

theorem startZeroing_sound (h : Sound q s)   :
    Sound q (State.startZeroing s) := by
  unfold State.startZeroing
  repeat' with_reducible first | assumption | apply modTrust_sound | dsimp only

theorem endTenant_sound (h : Sound q s) {ctx : CmdCtx}  :
    Sound q (State.endTenant s ctx) := by
  unfold State.endTenant
  repeat' with_reducible first | assumption | apply drawBelow_sound | apply endTenantWork_sound | apply modTrust_sound
                                | refine Sound.of_snd ?_ (by assumption) | split | dsimp only

theorem closeTenant_sound (h : Sound q s) {ctx : CmdCtx}  :
    Sound q (State.closeTenant s ctx) := by
  unfold State.closeTenant
  repeat' with_reducible first | assumption | apply clearTenantState_sound | apply clearTiers_sound
                                | apply disarmAll_sound | apply endTenantWork_sound | apply finish_sound
                                | apply modTrust_sound | apply resetHostQps_sound | apply rotateKeys_sound
                                | apply startZeroing_sound | apply zeroMessages_sound | dsimp only

theorem settleCounters_sound (h : Sound q s)   :
    Sound q (State.settleCounters s) := by
  unfold State.settleCounters
  split
  · apply modTrust_sound
    exact ⟨h.queue, h.memory, h.alert, h.events, (fun k v e => by exact nomatch (e : (none : Option Nat) = some v)), h.sizes⟩
  · exact h

theorem remapEmpty_sound (h : Sound q s)   :
    Sound q (State.remapEmpty s) := by
  unfold State.remapEmpty
  repeat' with_reducible first | assumption | apply remapPool_sound | split | dsimp only

theorem paceAll_sound (h : Sound q s)   :
    Sound q (State.paceAll s) := by
  unfold State.paceAll
  repeat' with_reducible first | assumption | apply pace_sound | refine Sound.foldl (fun _ _ _ => ?_) _ ?_
                                | dsimp only

theorem tick_sound (h : Sound q s)   :
    Sound q (State.tick s) := by
  unfold State.tick
  repeat' with_reducible first | assumption | apply closeTenant_sound | apply lateReplies_sound
                                | apply lateRequests_sound | apply paceAll_sound | apply passCycle_sound
                                | apply passFetches_sound | apply passRegions_sound | apply placeAll_sound
                                | apply remapEmpty_sound | apply resumeRepairs_sound | apply resumeResyncs_sound
                                | apply settleCounters_sound | split | dsimp only

theorem execTenantEnd_sound (h : Sound q s) {c : Cmd}  :
    OutSound q (execTenantEnd c s) := by
  unfold execTenantEnd
  repeat' with_reducible first | assumption | apply bellwether_sound | apply endTenant_sound | apply finish_sound
                                | apply noPayload_sound | apply onArrive_sound | apply OutSound.next | split | intro _
                                | dsimp only

theorem execZeroingDone_sound (h : Sound q s)   :
    OutSound q (execZeroingDone s) := by
  unfold execZeroingDone
  repeat' with_reducible first | assumption | apply modTrust_sound | apply OutSound.next | split | dsimp only

theorem freeStaged_sound (h : Sound q s)   :
    Sound q (State.freeStaged s) := by
  unfold State.freeStaged
  repeat' with_reducible first | assumption | apply freeFrame_sound | refine Sound.foldl (fun _ _ _ => ?_) _ ?_
                                | dsimp only

theorem dropStaged_sound (h : Sound q s)   :
    Sound q (State.dropStaged s) := by
  unfold State.dropStaged
  repeat' with_reducible first | assumption | apply freeStaged_sound | apply modTrust_sound | dsimp only

theorem stageChunk_sound (h : Sound q s) {off : Nat} {total : Nat} {bs : List Byte} {ctx : CmdCtx}  :
    Sound q (State.stageChunk s off total bs ctx) := by
  unfold State.stageChunk
  repeat' with_reducible first | assumption | apply allocFrames_sound | apply bump_sound | apply dropStaged_sound
                                | apply finish_sound | apply modTrust_sound | refine Sound.of_snd ?_ (by assumption)
                                | refine Sound.of_some ?_ (by assumption) | split | dsimp only

theorem execFirmwareStage_sound (h : Sound q s) {c : Cmd}  :
    OutSound q (execFirmwareStage c s) := by
  unfold execFirmwareStage
  repeat' with_reducible first | assumption | apply bellwether_sound | apply finish_sound | apply onArrive_sound
                                | apply stageChunk_sound | apply OutSound.next | split | intro _ | dsimp only

theorem drainPartition_sound (h : Sound q s)   :
    Sound q (State.drainPartition s) := by
  unfold State.drainPartition
  repeat' with_reducible first | assumption | apply modRecover_sound | apply remapEmpty_sound | split | dsimp only

theorem execFirmwareActivate_sound (h : Sound q s) {c : Cmd}  :
    OutSound q (execFirmwareActivate c s) := by
  unfold execFirmwareActivate
  repeat' with_reducible first | assumption | apply abortPasses_sound | apply bellwether_sound
                                | apply drainPartition_sound | apply finish_sound | apply modTrust_sound
                                | apply noPayload_sound | apply onArrive_sound | apply OutSound.next | split | intro _
                                | dsimp only

theorem endActivation_sound (h : Sound q s)   :
    Sound q (State.endActivation s) := by
  unfold State.endActivation
  repeat' with_reducible first | assumption | apply dropStaged_sound | apply modTrust_sound | split | dsimp only

theorem execFirmwarePartitionDone_sound (h : Sound q s) {pool : Nat}  :
    OutSound q (execFirmwarePartitionDone pool s) := by
  unfold execFirmwarePartitionDone
  repeat' with_reducible first | assumption | rfl | exact modifyAt_length _ _ _ | exact setAt_length _ _ _
                                | exact List.length_map _ | apply drainPartition_sound | apply endActivation_sound
                                | apply modRecover_sound | apply modRegs_sound | apply modTrust_sound
                                | apply OutSound.next | split | dsimp only

theorem unwrapSet_sound (h : Sound q s) {t : Tenant} {id : W64} {b : List Byte}  :
    ExSound q (State.unwrapSet s t id b) := by
  unfold State.unwrapSet
  repeat' with_reducible first | assumption | apply modTrust_sound | apply ExSound.error | apply ExSound.ok | split
                                | dsimp only

theorem execSetKeyUnwrap_sound (h : Sound q s) {c : Cmd}  :
    OutSound q (execSetKeyUnwrap c s) := by
  unfold execSetKeyUnwrap
  repeat' with_reducible first | assumption | apply bellwether_sound | apply finish_sound | apply onArrive_sound
                                | apply unwrapSet_sound | apply OutSound.next | refine Sound.of_ok ?_ (by assumption)
                                | split | intro _ | dsimp only

theorem execDiagInject_sound (h : Sound q s) {c : Cmd}  :
    OutSound q (execDiagInject c s) := by
  unfold execDiagInject
  repeat' with_reducible first | assumption | apply armSlot_sound | apply finish_sound | apply modInj_sound
                                | apply noPayload_sound | apply onArrive_sound | apply OutSound.next | split | intro _
                                | dsimp only

theorem execDiagCounters_sound (h : Sound q s) {c : Cmd}  :
    OutSound q (execDiagCounters c s) := by
  unfold execDiagCounters
  repeat' with_reducible first | assumption | apply finishResult_sound | apply finish_sound | apply onArrive_sound
                                | apply OutSound.next | split | intro _ | dsimp only

theorem execDiagTrace_sound (h : Sound q s) {c : Cmd}  :
    OutSound q (execDiagTrace c s) := by
  unfold execDiagTrace
  repeat' with_reducible first | assumption | apply drawBytes_sound | apply finishResult_sound | apply finish_sound
                                | apply modTrust_sound | apply onArrive_sound | apply OutSound.next
                                | refine Sound.of_snd ?_ (by assumption) | split | intro _ | dsimp only


end Sys2Proof.Machine
end

