-- ==== Sys2Proof/Laws/SoundPower.lean ====
section
/-! SUPPORT. That every operation of Machine/Power.lean keeps what every step keeps. -/
set_option Elab.async false

namespace Sys2Proof.Machine

variable {q : List Instr} {s : State}

theorem cold_sound (h : Sound q s) {pw : PowerState} {st : NodeState}  :
    Sound q (State.cold s pw st) := by
  exact ⟨h.queue, rfl, rfl, Nat.zero_le _, (fun k v e => by cases e), rfl⟩

theorem powerOff_sound (h : Sound q s)   :
    Sound q (State.powerOff s) := by
  exact ⟨h.queue, rfl, rfl, Nat.zero_le _, (fun k v e => by cases e), rfl⟩

theorem releaseReset_sound (h : Sound q s)   :
    Sound q (State.releaseReset s) := by
  refine Sound.ofDrive (cold_sound h (pw := .active) (st := .rooting)) rfl rfl ?_ rfl rfl
  show s.pwr.tripEvent.toList.length ≤ 512
  cases s.pwr.tripEvent <;> simp

theorem execPwrEnRise_sound (h : Sound q s) {input : Int}  :
    OutSound q (execPwrEnRise input s) := by
  unfold execPwrEnRise
  split
  · exact OutSound.next h
  · split
    · exact OutSound.next (h.ofParts rfl rfl rfl rfl rfl rfl rfl rfl rfl rfl)
    · exact OutSound.next ⟨h.queue, rfl, rfl, Nat.zero_le _, (fun k v e => by cases e), rfl⟩

theorem execPwrEnFall_sound (h : Sound q s)   :
    OutSound q (execPwrEnFall s) := by
  unfold execPwrEnFall
  repeat' with_reducible first | assumption | apply powerOff_sound | apply OutSound.next | dsimp only

theorem execResetAssert_sound (h : Sound q s) {lowNs : Nat}  :
    OutSound q (execResetAssert lowNs s) := by
  have hp : Sound q { s with pins := { s.pins with resetN := false } } := h.ofParts rfl rfl rfl rfl rfl rfl rfl rfl rfl rfl
  unfold execResetAssert
  split
  · exact OutSound.next h
  · dsimp only
    split
    · exact OutSound.next hp
    · exact OutSound.next (cold_sound hp)

theorem execResetRelease_sound (h : Sound q s)   :
    OutSound q (execResetRelease s) := by
  have hp : Sound q { s with pins := { s.pins with resetN := true } } := h.ofParts rfl rfl rfl rfl rfl rfl rfl rfl rfl rfl
  unfold execResetRelease
  split
  · exact OutSound.next h
  · dsimp only
    split
    · exact OutSound.next hp
    · split
      · exact OutSound.next (releaseReset_sound hp)
      · exact OutSound.next (modUp_sound hp rfl rfl)

theorem enterRecovery_sound (h : Sound q s) {reason : Nat}  :
    Sound q (State.enterRecovery s reason) := by
  unfold State.enterRecovery
  repeat' with_reducible first | assumption | rfl | apply modNode_sound | apply modUp_sound | apply raise_sound
                                | split | dsimp only

theorem readFlashProfile_sound (h : Sound q s)   :
    Sound q (State.readFlashProfile s) := by
  unfold State.readFlashProfile
  repeat' with_reducible first | assumption | apply raise_sound | apply takeProfile_sound | split | dsimp only

theorem execBellwetherRootingDone_sound (h : Sound q s) {selfTest : Bool} {identity : Bool} {image : Bool}  :
    OutSound q (execBellwetherRootingDone selfTest identity image s) := by
  unfold execBellwetherRootingDone
  repeat' with_reducible first | assumption | rfl | apply modUpDrive_sound | apply driveAlert_sound
                                | apply enterRecovery_sound | apply modClk_sound | apply modNode_sound
                                | apply modTrust_sound | apply modUp_sound | apply readFlashProfile_sound
                                | apply OutSound.next | split | dsimp only

theorem startTiles_sound (h : Sound q s) {tiles : List Nat}  :
    Sound q (State.startTiles s tiles) := by
  have e := h.sizes
  simp only [State.sizes, List.cons.injEq, and_true] at e
  obtain ⟨e1, e2, e3, e4, e5, e6⟩ := e
  unfold State.startTiles
  refine Sound.foldl (fun _ _ ht => bump_sound (reportTile_sound ht)) _ ?_
  refine modAttn_sound h ?_ ?_
  · rw [List.length_map, List.length_range, e3]; rfl
  · rw [List.length_map, List.length_range, e4]; rfl

theorem execTrainingDone_sound (h : Sound q s) {tiles : List Nat} {hbm : List Nat} {packages : List Nat} {ports : List Nat} {badLinks : List Nat} {badBlocks : List Nat}  :
    OutSound q (execTrainingDone tiles hbm packages ports badLinks badBlocks s) := by
  unfold execTrainingDone
  repeat' with_reducible first | assumption | rfl | apply modClk_sound | apply modNode_sound | apply modPort_sound
                                | apply modUp_sound | apply startTiles_sound | apply startZeroing_sound
                                | apply OutSound.next | refine Sound.foldl (fun _ _ _ => ?_) _ ?_ | split | dsimp only

theorem execFrameInitDone_sound (h : Sound q s)   :
    OutSound q (execFrameInitDone s) := by
  unfold execFrameInitDone
  repeat' with_reducible first | assumption | rfl | apply modTrust_sound | apply modUp_sound | apply OutSound.next
                                | split | dsimp only

theorem execStartupBoundTimeout_sound (h : Sound q s)   :
    OutSound q (execStartupBoundTimeout s) := by
  unfold execStartupBoundTimeout
  repeat' with_reducible first | assumption | rfl | apply modUpDrive_sound | apply driveAlert_sound
                                | apply modUp_sound | apply OutSound.next | split | dsimp only

theorem execRecoveryHello_sound (h : Sound q s)   :
    OutSound q (execRecoveryHello s) := by
  unfold execRecoveryHello
  repeat' with_reducible first | assumption | rfl | apply modUp_sound | apply sendDatagram_sound | apply OutSound.next
                                | split | dsimp only

theorem ackChunk_sound (h : Sound q s) {next : Nat}  :
    Sound q (State.ackChunk s next) := by
  unfold State.ackChunk
  repeat' with_reducible first | assumption | apply sendDatagram_sound | dsimp only

theorem endRecovery_sound (h : Sound q s) {r : Recovery}  :
    Sound q (State.endRecovery s r) := by
  unfold State.endRecovery
  repeat' with_reducible first | assumption | rfl | apply modTrust_sound | apply modUp_sound
                                | apply releaseReset_sound | apply sendDatagram_sound | split | dsimp only

theorem execRecoveryChunk_sound (h : Sound q s) {message : List Byte}  :
    OutSound q (execRecoveryChunk message s) := by
  unfold execRecoveryChunk
  repeat' with_reducible first | assumption | rfl | apply ackChunk_sound | apply endRecovery_sound | apply modUp_sound
                                | apply OutSound.next | split | dsimp only

theorem foreseeRestart_sound (h : Sound q s)   :
    Sound q (State.foreseeRestart s) := by
  unfold State.foreseeRestart
  repeat' with_reducible first | assumption | apply detectAbort_sound | apply endReq_sound
                                | refine Sound.foldl (fun _ _ _ => ?_) _ ?_
                                | refine Sound.foldlSnd (fun _ _ _ => ?_) _ ?_ | split | dsimp only

theorem execPllLockLost_sound (h : Sound q s) {pll : Nat}  :
    OutSound q (execPllLockLost pll s) := by
  unfold execPllLockLost
  repeat' with_reducible first | assumption | apply bump_sound | apply enterFenced_sound | apply foreseeRestart_sound
                                | apply injected_sound | apply modClk_sound | apply modPort_sound
                                | apply watchdogFired_sound | apply OutSound.next
                                | refine Sound.foldl (fun _ _ _ => ?_) _ ?_ | refine Sound.of_snd ?_ (by assumption)
                                | split | dsimp only

theorem execPllRelock_sound (h : Sound q s) {pll : Nat}  :
    OutSound q (execPllRelock pll s) := by
  unfold execPllRelock
  repeat' with_reducible first | assumption | apply modClk_sound | apply OutSound.next | split | dsimp only

theorem reading_sound (h : Sound q s) {n : Nat} {v : Int}  :
    Sound q (State.reading s n v).2.2 := by
  unfold State.reading
  repeat' with_reducible first | assumption | apply injected_sound | refine Sound.of_snd ?_ (by assumption) | split
                                | dsimp only

theorem sample_sound (h : Sound q s) {vs : List Int}  :
    Sound q (State.sample s vs).2 := by
  unfold State.sample
  repeat' with_reducible first | assumption | apply reading_sound | refine Sound.foldl (fun _ _ _ => ?_) _ ?_
                                | refine Sound.foldlSnd (fun _ _ _ => ?_) _ ?_
                                | refine Sound.of_snd ?_ (by assumption) | refine Sound.of_snd2 ?_ (by assumption)
                                | split | dsimp only

theorem execThrottleStep_sound (h : Sound q s) {readings : List Int} {inputW : Nat}  :
    OutSound q (execThrottleStep readings inputW s) := by
  unfold execThrottleStep
  repeat' with_reducible first | assumption | rfl | apply modPwr_sound | apply sample_sound | apply OutSound.next
                                | refine Sound.of_snd ?_ (by assumption) | split | dsimp only

theorem gateTiles_sound (h : Sound q s)   :
    Sound q (State.gateTiles s) := by
  unfold State.gateTiles
  repeat' with_reducible first | assumption | rfl | exact modifyAt_length _ _ _ | exact setAt_length _ _ _
                                | exact List.length_map _ | apply modAttn_sound | split | dsimp only

theorem execEnvFence_sound (h : Sound q s) {reading : Reading}  :
    OutSound q (execEnvFence reading s) := by
  unfold execEnvFence
  repeat' with_reducible first | assumption | rfl | apply enterFenced_sound | apply gateTiles_sound
                                | apply modPwr_sound | apply raise_sound | apply reading_sound | apply OutSound.next
                                | refine Sound.of_snd ?_ (by assumption) | refine Sound.of_snd2 ?_ (by assumption)
                                | split | dsimp only

theorem execEnvTrip_sound (h : Sound q s) {reading : Reading}  :
    OutSound q (execEnvTrip reading s) := by
  unfold execEnvTrip
  repeat' with_reducible first | assumption | rfl | apply setPwrDrive_sound | apply cold_sound
                                | apply driveAlert_sound | apply modPwr_sound | apply reading_sound
                                | apply OutSound.next | refine Sound.of_snd ?_ (by assumption)
                                | refine Sound.of_snd2 ?_ (by assumption) | split | dsimp only

theorem setLock_sound (h : Sound q s) {locked : Bool} {injected : Bool}  :
    Sound q (State.setLock s locked injected) := by
  unfold State.setLock
  repeat' with_reducible first | assumption | apply bump_sound | apply modClk_sound | apply raise_sound | split
                                | dsimp only

theorem execPtpSyncRecv_sound (h : Sound q s) {port : Nat} {offset : Int}  :
    OutSound q (execPtpSyncRecv port offset s) := by
  unfold execPtpSyncRecv
  repeat' with_reducible first | assumption | apply detectAbort_sound | apply injected_sound | apply modClk_sound
                                | apply setLock_sound | apply OutSound.next
                                | refine Sound.foldl (fun _ _ _ => ?_) _ ?_ | refine Sound.of_snd ?_ (by assumption)
                                | split | dsimp only

theorem execPpsEdge_sound (h : Sound q s)   :
    OutSound q (execPpsEdge s) := by
  unfold execPpsEdge
  repeat' with_reducible first | assumption | apply modClk_sound | apply OutSound.next | split | dsimp only


end Sys2Proof.Machine
end

