-- ==== Sys2Proof/Laws/SoundMgmt.lean ====
section
/-! SUPPORT. That every operation of Machine/Mgmt.lean keeps what every step keeps. -/
set_option Elab.async false

namespace Sys2Proof.Machine

variable {q : List Instr} {s : State}

theorem mgmtBad_sound (h : Sound q s)   :
    Sound q (State.mgmtBad s) := by
  unfold State.mgmtBad
  repeat' with_reducible first | assumption | apply bump_sound | dsimp only

theorem setExchange_sound (h : Sound q s) {e : Exchange}  :
    Sound q (State.setExchange s e) := by
  unfold State.setExchange
  repeat' with_reducible first | assumption | rfl | apply modNet_sound | dsimp only

theorem ackPart_sound (h : Sound q s) {xid : W32} {total : Nat} {next : Nat}  :
    Sound q (State.ackPart s xid total next) := by
  unfold State.ackPart
  repeat' with_reducible first | assumption | apply sendDatagram_sound | dsimp only

theorem restartReply_sound (h : Sound q s) {e : Exchange}  :
    Sound q (State.restartReply s e) := by
  unfold State.restartReply
  repeat' with_reducible first | assumption | apply sendReplyPart_sound | apply setExchange_sound | dsimp only

theorem runOpcode_sound (h : Sound q s) {c : Cmd}  :
    OutSound q (runOpcode c s) := by
  unfold runOpcode
  repeat' with_reducible first | assumption | apply execAttest_sound | apply execAttnCairn_sound
                                | apply execAttnDriftArm_sound | apply execAttnGrazeExact_sound
                                | apply execAttnGraze_sound | apply execConvAppend_sound | apply execConvClose_sound
                                | apply execConvFork_sound | apply execConvLease_sound
                                | apply execConvMoveAccept_sound | apply execConvMoveCommit_sound
                                | apply execConvMoveOffer_sound | apply execConvOpen_sound | apply execConvPin_sound
                                | apply execConvSeal_sound | apply execConvStat_sound | apply execConvTruncate_sound
                                | apply execDiagCounters_sound | apply execDiagInject_sound
                                | apply execDiagTrace_sound | apply execFabricTableLoad_sound | apply execFence_sound
                                | apply execFirmwareActivate_sound | apply execFirmwareStage_sound
                                | apply execHealthRead_sound | apply execLayoutDefine_sound
                                | apply execModifierLoad_sound | apply execNearCompare_sound
                                | apply execNearCopy_sound | apply execNearFill_sound | apply execNearReduce_sound
                                | apply execNodeDrain_sound | apply execNodeProfileLoad_sound
                                | apply execNodeQuery_sound | apply execNodeServe_sound | apply execOwnerProbe_sound
                                | apply execPrefixLookup_sound | apply execRegRead_sound | apply execRegWrite_sound
                                | apply execRegionAttach_sound | apply execRegionCreate_sound
                                | apply execRegionDetach_sound | apply execRegionPublish_sound
                                | apply execRegionRegister_sound | apply execRegionRevoke_sound
                                | apply execResultFetch_sound | apply execResultRelease_sound
                                | apply execRoleSet_sound | apply execSetKeyUnwrap_sound
                                | apply execSpillTargetAdd_sound | apply execTenantBegin_sound
                                | apply execTenantEnd_sound | apply execTwinBind_sound | apply execTwinResync_sound
                                | apply onArrive_sound | apply OutSound.next | split | intro _ | dsimp only

theorem runExchange_sound (h : Sound q s) {e : Exchange}  :
    OutSound q (State.runExchange s e) := by
  unfold State.runExchange
  repeat' with_reducible first | assumption | apply runOpcode_sound | apply setExchange_sound | apply OutSound.next
                                | dsimp only

theorem takePart_sound (h : Sound q s) {e : Exchange} {m : MgmtMsg}  :
    OutSound q (State.takePart s e m) := by
  unfold State.takePart
  repeat' with_reducible first | assumption | apply ackPart_sound | apply runExchange_sound | apply setExchange_sound
                                | apply OutSound.next | split | dsimp only

theorem execMgmtCmdPart_sound (h : Sound q s) {message : List Byte}  :
    OutSound q (execMgmtCmdPart message s) := by
  unfold execMgmtCmdPart
  repeat' with_reducible first | assumption | apply ackPart_sound | apply mgmtBad_sound | apply restartReply_sound
                                | apply takePart_sound | apply OutSound.next | split | dsimp only

theorem replyAcked_sound (h : Sound q s) {e : Exchange} {upTo : Nat}  :
    Sound q (State.replyAcked s e upTo) := by
  unfold State.replyAcked
  repeat' with_reducible first | assumption | apply sendReplyPart_sound | apply setExchange_sound | split | dsimp only

theorem execMgmtAckRecv_sound (h : Sound q s) {message : List Byte}  :
    OutSound q (execMgmtAckRecv message s) := by
  unfold execMgmtAckRecv
  repeat' with_reducible first | assumption | apply mgmtBad_sound | apply replyAcked_sound | apply OutSound.next
                                | split | dsimp only

theorem execMgmtPartRetransmit_sound (h : Sound q s) {xid : W32}  :
    OutSound q (execMgmtPartRetransmit xid s) := by
  unfold execMgmtPartRetransmit
  repeat' with_reducible first | assumption | apply bump_sound | apply sendReplyPart_sound | apply setExchange_sound
                                | apply OutSound.next | split | dsimp only

theorem execMgmtReplyHoldExpiry_sound (h : Sound q s) {xid : W32}  :
    OutSound q (execMgmtReplyHoldExpiry xid s) := by
  unfold execMgmtReplyHoldExpiry
  repeat' with_reducible first | assumption | rfl | apply modNet_sound | apply OutSound.next | split | dsimp only


end Sys2Proof.Machine
end

