-- ==== Sys2Proof/WellFormed.lean ====
section
/-! DEFINITION. What a command of the queue must look like to be one that can reach the node: the opcode that its row
names, a payload of the length that its header gives, and unit numbers that exist. A header or payload that breaks a rule
of the manual is no ill-formed command: the node answers it (R365, R366). -/
namespace Sys2Proof

/-- A command packet of an opcode: PAYLOAD_LEN is the length of what follows the header (R363), and its QP and PSN exist. -/
def Cmd.ofOpcode (c : Cmd) (code : Nat) : Bool :=
  c.hdr.opcode.toNat == code && c.hdr.payloadLen.toNat == c.payload.length &&
  match c.src with
  | .qp i => decide (i < Config.qps) && decide (c.psn < 2 ^ 24)
  | .lane _ => true

/-- A REG_WRITE to a register offset whose written bits, DATA where MASK is set, satisfy a test (R416). -/
def Cmd.writesReg (c : Cmd) (at_ : Nat → Bool) (test : Nat → Bool) : Bool :=
  c.ofOpcode 0x0108 && at_ (c.hdr.targetId.toNat % 2 ^ 24) &&
  test (Nat.land (c.hdr.param0.toNat % 2 ^ 32) (c.hdr.param1.toNat % 2 ^ 32))

/-- A forward of an attention opcode; `cont` says whether its PASS is CONTINUE (R286, R287, R302). -/
def Cmd.isForward (c : Cmd) (cont : Bool) : Bool :=
  (c.ofOpcode 0x0301 || c.ofOpcode 0x0302 || c.ofOpcode 0x0304) && c.hdr.flags.getLsbD 1 &&
  ((c.payload.getD 24 0 == 3) == cont)

/-- A CID (R46). -/
def cidOk (cid : Nat) : Bool := decide (cid < 2 ^ 48)
/-- A QP index. -/
def qpOk (qp : Nat) : Bool := decide (qp < Config.qps)
/-- A physical tile. -/
def tileOk (t : Nat) : Bool := decide (t < Config.tiles)
/-- A port (R446); a node has 4, 8 or 16. -/
def portOk (p : Nat) : Bool := decide (p < 16)
/-- A pool (R26). -/
def poolOk (p : Nat) : Bool := decide (p < 4)
/-- A drift slot (R319). -/
def driftOk (n : Nat) : Bool := decide (n < 16)
/-- A PSN (R453). -/
def psnOk (n : Nat) : Bool := decide (n < 2 ^ 24)
/-- A Node ID (R404). -/
def nodeOk (n : Nat) : Bool := decide (n < 1024)

/-- The QP and PSN of a request are within their ranges. -/
def QpPsn.wf (p : QpPsn) : Bool := qpOk p.qp && psnOk p.psn

/-- An RDMA message: its QP and PSN exist, and its data does not exceed its length. -/
def RdmaMsg.wf (m : RdmaMsg) : Bool := qpOk m.qp && psnOk m.psn && decide (m.data.length ≤ m.len)

/-- Offset 0x004 of a block: CTL (R704). -/
def isCtl (a : Nat) : Bool := a % 65536 == 0x004

/-- Well-formedness of a command. -/
def Instr.wf : Instr → Bool
  | .nodeQuery c => c.ofOpcode 0x0101
  | .nodeProfileLoad c => c.ofOpcode 0x0102
  | .fabricTableLoad c => c.ofOpcode 0x0103
  | .nodeServe c => c.ofOpcode 0x0104
  | .nodeDrain c => c.ofOpcode 0x0105
  | .roleSet c => c.ofOpcode 0x0106
  | .regRead c => c.ofOpcode 0x0107
  | .regWrite c => c.ofOpcode 0x0108
  | .blockEnable c => c.writesReg isCtl fun w => w.testBit 0
  | .blockDisable c => c.writesReg isCtl fun w => !w.testBit 0
  | .blockCheckDone b => decide (b < 25)
  | .convOpen c => c.ofOpcode 0x0201
  | .convAppend c => c.ofOpcode 0x0202
  | .windowAppend p _ slot _ _ trailer => p.wf && decide (slot < 4096) && trailer.length == 32
  | .gateRowPass cid => cidOk cid
  | .heldAppendPass cid => cidOk cid
  | .appendCommit cid => cidOk cid
  | .leaseExpiry cid => cidOk cid
  | .gapTimeout cid _ => cidOk cid
  | .twinTimeout cid _ => cidOk cid
  | .convSeal c => c.ofOpcode 0x0203
  | .convTruncate c => c.ofOpcode 0x0204
  | .convFork c => c.ofOpcode 0x0205
  | .convClose c => c.ofOpcode 0x0206
  | .convPin c => c.ofOpcode 0x0207
  | .convStat c => c.ofOpcode 0x0208
  | .convMoveOffer c => c.ofOpcode 0x0209
  | .convMoveAccept c => c.ofOpcode 0x020A
  | .convMoveCommit c => c.ofOpcode 0x020B
  | .moveProbeTimer cid => cidOk cid
  | .ownerProbeReply cid _ _ epoch => cidOk cid && decide (epoch < 2 ^ 32)
  | .moveDeadline cid => cidOk cid
  | .convLease c => c.ofOpcode 0x020C
  | .extentMoveStart cid first last dest => cidOk cid && decide (first < last) && decide (last ≤ Config.maxTokens) && nodeOk dest
  | .extentMovePass cid => cidOk cid
  | .extentSourceRelease cid _ => cidOk cid
  | .attnGraze c => c.ofOpcode 0x0301
  | .attnGrazeExact c => c.ofOpcode 0x0302
  | .attnCairn c => c.ofOpcode 0x0304
  | .grazeForward c => c.isForward false
  | .continueForward c => c.isForward true
  | .landingRecordPlace p slot _ => p.wf && decide (slot < 65536)
  | .homePartialComplete _ => true
  | .resultRecordDone _ => true
  | .participantReply _ k _ _ _ => decide (k < 16)
  | .grazeDeadline _ => true
  | .participantDeadline _ => true
  | .rowGroupAccept t => tileOk t
  | .tileDescriptor t => tileOk t
  | .tileClockStop t => tileOk t
  | .tileGate t => tileOk t
  | .tileFail t _ => tileOk t
  | .spareBind n _ => decide (n < Config.logicalTiles)
  | .spareTest t _ => tileOk t
  | .attnDriftArm c => c.ofOpcode 0x0303
  | .driftBlockFrozen n => driftOk n
  | .driftPrepDone n => driftOk n
  | .driftReadyRecv p m => p.wf && m.length == 64
  | .driftReadyDeadline n => driftOk n
  | .driftBeatSend n => driftOk n
  | .driftBeatRecv p m => p.wf && m.length == 16
  | .driftBeatSilence n _ => driftOk n
  | .driftStepStart n => driftOk n
  | .driftBlockLand qp _ => qpOk qp
  | .driftAccumDone n => driftOk n
  | .driftWindowClose n => driftOk n
  | .driftAbortRecv p m => p.wf && m.length == 64
  | .driftRelease n => driftOk n
  | .driftResultAcked n => driftOk n
  | .driftResultDeadline n => driftOk n
  | .driftAbortForget ring _ => decide (ring < 65536)
  | .resultFetch c => c.ofOpcode 0x0305
  | .resultRelease c => c.ofOpcode 0x0306
  | .recordKeepExpiry sub _ => decide (sub < 4098)
  | .layoutDefine c => c.ofOpcode 0x0307
  | .modifierLoad c => c.ofOpcode 0x0308
  | .regionCreate c => c.ofOpcode 0x0401
  | .regionRegister c => c.ofOpcode 0x0402
  | .regionRevoke c => c.ofOpcode 0x0403
  | .revokeComplete _ => true
  | .revokeDeadline _ => true
  | .regionPublish c => c.ofOpcode 0x0404
  | .publishCopyDone _ => true
  | .publishTwinned _ => true
  | .publishTimeout _ => true
  | .regionAttach c => c.ofOpcode 0x0405
  | .regionDetach c => c.ofOpcode 0x0406
  | .attachLeaseExpiry _ sub => decide (sub < 4098)
  | .nearFill c => c.ofOpcode 0x0407
  | .nearCopy c => c.ofOpcode 0x0408
  | .nearCompare c => c.ofOpcode 0x0409
  | .nearReduce c => c.ofOpcode 0x040A
  | .nearCommandStart _ => true
  | .nearCommandDone _ => true
  | .nearDeadlineCut _ _ => true
  | .prefixLookup c => c.ofOpcode 0x040B
  | .spillTargetAdd c => c.ofOpcode 0x040C
  | .hotEvict => true
  | .warmEvict => true
  | .promoteStart _ => true
  | .moveSwitchPoint _ => true
  | .spillImageAck _ => true
  | .recallStart _ => true
  | .recallLanding p _ _ => p.wf
  | .recallTimeout _ => true
  | .repairCopyLand _ copy => copy.all fun m => m.wf && m.imm.isSome && m.data.length == Config.frameBytes && m.len == Config.frameBytes
  | .scrubPass .hot f => decide (f < Config.hotFrames)
  | .scrubPass .warm f => decide (f < Config.warmFrames)
  | .rdmaWriteRecv m => m.wf
  | .rdmaReadRecv m => m.wf
  | .twinWriteRecv qp psn _ offset _ => qpOk qp && psnOk psn && decide (offset < 2 ^ 64)
  | .rdmaAckRecv qp psn => qpOk qp && psnOk psn
  | .rdmaNakRecv qp psn _ => qpOk qp && psnOk psn
  | .ackTimeout qp => qpOk qp
  | .rnrNakRecv qp _ => qpOk qp
  | .rnrTimerExpiry qp => qpOk qp
  | .qpsEstablish c => c.writesReg (· == 0x0D013C) fun w => w % 4 == 1
  | .qpsReset c => c.writesReg (· == 0x0D013C) fun w => w % 4 == 2
  | .cePacketRecv qp => qpOk qp
  | .cnpRecv qp => qpOk qp
  | .rateRecoveryPeriod qp => qpOk qp
  | .pauseFrameRecv p prio _ => portOk p && decide (prio < 8)
  | .pfcStormTimer p prio => portOk p && decide (prio < 8)
  | .egressFrameSelect p => portOk p
  | .gateEntryInstant p => portOk p
  | .gclChange c => c.writesReg (· == 0x0E015C) fun w => w.testBit 0
  | .gclChangeEffect p => portOk p
  | .twinBind c => c.ofOpcode 0x0501
  | .twinResync c => c.ofOpcode 0x0502
  | .convPromotion cid => cidOk cid
  | .promotedPageHotMove _ => true
  | .healthRead c => c.ofOpcode 0x0503
  | .fence c => c.ofOpcode 0x0504
  | .ownerProbe c => c.ofOpcode 0x0505
  | .stampSend j => nodeOk j
  | .stampRecv p m => p.wf && m.length == 64
  | .partnerSilence j => nodeOk j
  | .standinOfferTimeout => true
  | .resyncCopyAck _ => true
  | .poolFail p => poolOk p
  | .healthTick _ _ => true
  | .healthLowTimer => true
  | .degradedRecover => true
  | .guardWindowStart => true
  | .attest c => c.ofOpcode 0x0601
  | .tenantBegin c => c.ofOpcode 0x0602
  | .tenantEnd c => c.ofOpcode 0x0603
  | .zeroingDone => true
  | .firmwareStage c => c.ofOpcode 0x0604
  | .firmwareActivate c => c.ofOpcode 0x0605
  | .firmwarePartitionDone p => poolOk p
  | .drainDone => true
  | .setKeyUnwrap c => c.ofOpcode 0x0606
  | .diagInject c => c.ofOpcode 0x0701
  | .diagCounters c => c.ofOpcode 0x0702
  | .diagTrace c => c.ofOpcode 0x0703
  | .injArm c => c.writesReg (fun a => decide (0x150100 ≤ a) && decide (a < 0x150200) && a % 16 == 12) fun w => w % 4 == 1
  | .injDisarm c => c.writesReg (fun a => decide (0x150100 ≤ a) && decide (a < 0x150200) && a % 16 == 12) fun w => w % 4 == 2
  | .injBlockDisarm c => c.writesReg (fun a => a % 65536 == 0x020) fun w => w.testBit 0
  | .injDelayExpiry n => decide (n < 16)
  | .chkUnitEnable c =>
    c.writesReg (fun a => decide (0x130700 ≤ a) && decide (a < 0x130B00) && a % 32 == 0) fun _ => true
  | .evtPop c => c.writesReg (· == 0x140114) fun w => w.testBit 0
  | .pwrEnRise _ => true
  | .pwrEnFall => true
  | .resetAssert _ => true
  | .resetRelease => true
  | .bellwetherRootingDone _ _ _ => true
  | .trainingDone tiles hbm packages ports links blocks =>
    tiles.all tileOk && hbm.all (fun k => decide (k < 8)) && packages.all (fun k => decide (k < 18)) && ports.all portOk &&
    links.all (fun k => decide (k < 256)) && blocks.all fun b => decide (b < 25)
  | .startupBoundTimeout => true
  | .frameInitDone => true
  | .recoveryHello => true
  | .recoveryChunk m => decide (m.length ≤ 8216)
  | .pllLockLost p => decide (p < 8)
  | .pllRelock p => decide (p < 8)
  | .throttleStep readings _ => readings.length == 16
  | .envFence r => decide (r.monitor < 16)
  | .envTrip r => decide (r.monitor < 16)
  | .ptpSyncRecv p _ => portOk p
  | .ppsEdge => true
  | .mgmtCmdPart m => decide (m.length ≤ 8216)
  | .mgmtAckRecv m => decide (m.length ≤ 8216)
  | .mgmtPartRetransmit _ => true
  | .mgmtReplyHoldExpiry _ => true
  | .tileWake t => tileOk t
  | .portLinkLoss p => portOk p
  | .portLinkUp p => portOk p
  | .moveLegReply cid _ _ => cidOk cid
  | .nearReduceReply _ _ _ => true
  | .repairFetch p cid layer head page _ =>
    p.wf && cidOk cid && decide (layer < 65536) && decide (head < 256) && decide (page < Config.maxTokens)

end Sys2Proof
end

