-- ==== Sys2Proof/Tests/Slice0.lean ====
section
/-! SUPPORT. Tests: the checks of WellFormed refuse an ill-formed command each, worked examples of the manual, and for each
statement states and operands that meet its hypotheses. -/
set_option Elab.async false

namespace Sys2Proof.Tests
open Sys2Proof Sys2Proof.Machine

/-! ## States and commands -/

/-- A layout of 16-token pages: two layers, one KV head of 2 BF16 elements (R58). -/
def lay : Layout :=
  { tpp := 0, kvHeads := 1, headDim := 2, keyFormat := 0, valueFormat := 0, latent := false, cairn := false, latentRank := 0, ropeDims := 0
    layers := 2 }

/-- A host QP, a spill QP and a NODE QP in RTS. -/
def hostQp : Qp := { kind := .host, state := .rts, subscriber := 5, slots := 16, mtu := 4096, remoteAddr := 9, ringKey := 1 }
def spillQp : Qp := { hostQp with kind := .spill }
def nodeQp : Qp := { kind := .node, state := .rts, mtu := 4096, remoteAddr := 11 }

/-- A fabric of this node, node 0, and a partner, node 1, whose NODE QP here is 9 (R408, R459). -/
def fab : Fabric :=
  { version := 1, managers := [], freeSpares := 0, fabricId := 7, digest := 0, bytes := []
    rings := [{ id := 3, members := [0, 1] }]
    nodes := [{ id := 0, domain := 0, role := .cache, mobile := true, twin := 1, twin2 := 0xFFFF, address := 10, mac := 1, qpBase := 10 },
      { id := 1, domain := 1, role := .cache, mobile := true, twin := 0, twin2 := 0xFFFF, address := 11, mac := 2, qpBase := 10 }] }

/-- A node that serves a tenant of epoch 3. -/
def base : State :=
  { State.reset with
    clk := { rime := 1000000000, ptp := 20000000000, locked := true, pll := List.replicate 8 true }
    node := { state := .serving, fabric := some fab }
    trust := { tenant := some { epoch := 3, blockBytes := [], listBytes := [], setId := 77, entries := [], secret := [] }, lastEpoch := 3 }
    attn := { State.reset.attn with layouts := [(1, lay)] }
    net := { State.reset.net with qps := [(0, hostQp), (1, spillQp), (9, nodeQp)] } }

/-- The node in CONFIGURABLE without a tenant. -/
def bare : State := { base with node := { base.node with state := .configurable }, trust := {} }

/-- A header of the tenant's epoch. -/
def hdr (op : Nat) (target : Nat := 0) (p0 : Nat := 0) (p1 : Nat := 0) (layer : Nat := 0) : Hdr :=
  { opcode := BitVec.ofNat 16 op, targetId := BitVec.ofNat 64 target, param0 := BitVec.ofNat 64 p0, param1 := BitVec.ofNat 64 p1
    layer := BitVec.ofNat 16 layer, tenantEpoch := 3, requestId := 40 }

/-- A command of a source. -/
def from_ (src : Src) (h : Hdr) (payload : List Byte := []) : Cmd :=
  { src := src, hdr := ({ h with payloadLen := BitVec.ofNat 32 payload.length } : Hdr).signed, payload := payload }

/-- A command on the management lane, on the host QP, and on the NODE QP. -/
def lane (h : Hdr) (payload : List Byte := []) : Cmd := from_ (.lane 7) h payload
def host (h : Hdr) (payload : List Byte := []) : Cmd := from_ (.qp 0) h payload
def node (h : Hdr) (payload : List Byte := []) : Cmd := from_ (.qp 9) h payload

/-- The same command before a tenant is in. -/
def noTenant (c : Cmd) : Cmd := { c with hdr := ({ c.hdr with tenantEpoch := 0 } : Hdr).signed }

/-- A command comes through the checks common to all opcodes, with a condition on what its own checks take. -/
def accepted (s : State) (code : Nat) (c : Cmd) (p : Cmd → CmdCtx → State → Bool := fun _ _ _ => true) : Bool :=
  match s.arrive code c with
  | (some (d, ctx), t) => p d ctx t
  | _ => false

/-- `accepted` is the hypothesis of the statements about commands. -/
theorem accepted_spec (s : State) (code : Nat) (c : Cmd) (p : Cmd → CmdCtx → State → Bool) (h : accepted s code c p = true) :
    ∃ d ctx t, s.Accepts code c d ctx t ∧ p d ctx t = true := by
  unfold accepted at h
  split at h
  · exact ⟨_, _, _, by assumption, h⟩
  · cases h

/-- No injection slot is armed. -/
def quiet (s : State) : Bool := s.regs.inj.all fun x => !x.busy

theorem quiet_spec (s : State) (h : quiet s = true) : s.Quiet := by
  intro x hx
  have := List.all_eq_true.mp h x hx
  simpa using this

/-- A conversation at whose gate a command of a source is legal and nothing goes ahead of it. -/
def atGate (s : State) (cid : Nat) (x : Conv) (legal : ConvState → Bool) (src : Src) : Bool :=
  s.conv cid == some x && x.home == s.nodeId && x.row == [] && s.gateClear cid (srcKey src) && s.guard x legal == none

theorem atGate_spec (s : State) (cid : Nat) (x : Conv) (legal : ConvState → Bool) (src : Src) (h : atGate s cid x legal src = true) :
    s.AtGate cid x legal src := by
  simp only [atGate, Bool.and_eq_true, beq_iff_eq] at h
  exact ⟨h.1.1.1.1, h.1.1.1.2, h.1.1.2, h.1.2, h.2⟩

/-- The front of a row that passes now. -/
def frontPasses (s : State) (cid : Nat) (it : RowItem) : Bool :=
  !s.commitDue cid && !s.leaseDue cid && s.heldNext cid == none && s.openFirst cid == none &&
  (it.gates cid).all fun k => !s.ahead k (if it.arrival = s.now then it.key + 1 else 1)

theorem frontPasses_spec (s : State) (cid : Nat) (it : RowItem) (h : frontPasses s cid it = true) : s.FrontPasses cid it := by
  simp only [frontPasses, Bool.and_eq_true, Bool.not_eq_true', beq_iff_eq, List.all_eq_true] at h
  exact ⟨h.1.1.1.1, h.1.1.1.2, h.1.1.2, h.1.2, h.2⟩

/-- A frame in which no word holds an error and whose tags verify. -/
def clean (s : State) (t : Tier) (f : Nat) : Bool := quiet s && s.frameHolds t f && s.tiers.flips == []

theorem clean_spec (s : State) (t : Tier) (f : Nat) (h : clean s t f = true) : s.CleanFrame t f := by
  simp only [clean, Bool.and_eq_true, beq_iff_eq] at h
  exact ⟨quiet_spec s h.1.1, h.1.2, fun w hw => by rw [h.2] at hw; cases hw⟩

/-- A region-group command finds its turn at the arbiter. -/
def arbiterFree (s : State) (c : Cmd) (src : Src) : Bool := !s.arbiterAhead c src && s.regions.waiting == []

theorem arbiterFree_spec (s : State) (c : Cmd) (src : Src) (h : arbiterFree s c src = true) : s.ArbiterFree c src := by
  simp only [arbiterFree, Bool.and_eq_true, Bool.not_eq_true', beq_iff_eq] at h
  exact ⟨h.1, h.2⟩

/-- Nothing waits at a conversation's gate, and nothing of this cycle goes ahead there of a command of a source. -/
def nothingAhead (s : State) (cid : Nat) (src : Src) : Bool := !s.ahead cid (srcKey src + 1) && s.openFirst cid == none

/-! ## WellFormed: each check refuses an ill-formed command -/

/-- Another opcode, a payload of another length, and a QP that does not exist. -/
theorem test_wf_command : Instr.wf (.nodeQuery (host (hdr 0x0101))) = true ∧ Instr.wf (.nodeQuery (host (hdr 0x0102))) = false ∧
    Instr.wf (.nodeQuery { host (hdr 0x0101) with payload := [1] }) = false ∧
    Instr.wf (.nodeQuery (from_ (.qp 65536) (hdr 0x0101))) = false := by decide +kernel

/-- A register row that writes another register, or other bits. -/
theorem test_wf_register : Instr.wf (.blockEnable (lane (hdr 0x0108 0x00040004 1 1))) = true ∧
    Instr.wf (.blockEnable (lane (hdr 0x0108 0x00040008 1 1))) = false ∧ Instr.wf (.blockEnable (lane (hdr 0x0108 0x00040004 0 1))) = false ∧
    Instr.wf (.injArm (lane (hdr 0x0108 0x0015010C 2 3))) = false ∧ Instr.wf (.qpsReset (lane (hdr 0x0108 0x000D0138 2 3))) = false ∧
    Instr.wf (.gclChange (lane (hdr 0x0108 0x000E015C 0 1))) = false ∧ Instr.wf (.evtPop (lane (hdr 0x0108 0x00140118 1 1))) = false ∧
    Instr.wf (.chkUnitEnable (lane (hdr 0x0108 0x00130704 1 1))) = false := by decide +kernel

/-- A forward whose PASS is that of the other row, or without FORWARD. -/
theorem test_wf_forward : Instr.wf (.grazeForward (node { hdr 0x0301 with flags := 2 } (zeros 64))) = true ∧
    Instr.wf (.grazeForward (node (hdr 0x0301) (zeros 64))) = false ∧
    Instr.wf (.continueForward (node { hdr 0x0301 with flags := 2 } (zeros 64))) = false := by decide +kernel

/-- A unit, number or length that does not exist. -/
theorem test_wf_numbers : Instr.wf (.blockCheckDone 25) = false ∧ Instr.wf (.gateRowPass (2 ^ 48)) = false ∧ Instr.wf (.rowGroupAccept 72) = false ∧
    Instr.wf (.portLinkUp 16) = false ∧ Instr.wf (.poolFail 4) = false ∧ Instr.wf (.driftRelease 16) = false ∧
    Instr.wf (.rdmaAckRecv 0 (2 ^ 24)) = false ∧ Instr.wf (.stampSend 1024) = false ∧ Instr.wf (.cnpRecv 65536) = false ∧
    Instr.wf (.spareBind 64 true) = false ∧ Instr.wf (.scrubPass .hot Config.hotFrames) = false ∧ Instr.wf (.injDelayExpiry 16) = false ∧
    Instr.wf (.pauseFrameRecv 0 8 true) = false ∧ Instr.wf (.pllRelock 8) = false ∧ Instr.wf (.envTrip { monitor := 16, value := 0 }) = false ∧
    Instr.wf (.recordKeepExpiry 4098 0) = false ∧ Instr.wf (.driftAbortForget 65536 0) = false ∧
    Instr.wf (.participantReply 0 16 0 0 0) = false ∧ Instr.wf (.ownerProbeReply 0 true true (2 ^ 32)) = false ∧
    Instr.wf (.landingRecordPlace ⟨0, 0⟩ 65536 []) = false := by decide +kernel

/-- A message of the wrong length, and an empty range. -/
theorem test_wf_messages : Instr.wf (.stampRecv ⟨9, 0⟩ (zeros 63)) = false ∧ Instr.wf (.driftReadyRecv ⟨9, 0⟩ (zeros 65)) = false ∧ Instr.wf (.stampRecv ⟨9, 2 ^ 24⟩ (zeros 64)) = false ∧
    Instr.wf (.windowAppend ⟨0, 0⟩ 1 0 0 [] (zeros 31)) = false ∧ Instr.wf (.windowAppend ⟨0, 0⟩ 1 4096 0 [] (zeros 32)) = false ∧
    Instr.wf (.extentMoveStart 1 4 4 1) = false ∧ Instr.wf (.throttleStep [] 0) = false ∧
    Instr.wf (.rdmaWriteRecv { qp := 0, psn := 0, data := [1, 2], len := 1 }) = false ∧
    Instr.wf (.trainingDone [72] [] [] [] [] []) = false ∧
    Instr.wf (.repairCopyLand 0 (some { qp := 9, psn := 0, data := [1], len := 1, imm := some 0 })) = false ∧
    Instr.wf (.mgmtCmdPart (zeros 8217)) = false ∧ Instr.wf (.recoveryChunk (zeros 8217)) = false := by decide +kernel

/-! ## Worked examples of the manual -/

/-- The MXFP4 block of spec/03: 13.0, -2.75, 0.75, 0.25, 5.0, 0.5, 1.25, -0.1875 and zeros. -/
theorem test_freeze_mxfp4 : freezeField 7 ([0x4150, 0xC030, 0x3F40, 0x3E80, 0x40A0, 0x3F00, 0x3FA0, 0xBE40] ++ List.replicate 24 0) =
    [0xB7, 0x01, 0x04, 0x01] ++ zeros 12 ++ [0x80] := by decide +kernel

/-- Its thaw gives 12, -3, 1, 0, 4, 0, 1 and 0. -/
theorem test_thaw_mxfp4 : ((thawField 7 32 ([0xB7, 0x01, 0x04, 0x01] ++ zeros 12 ++ [0x80])).take 8).map (fun v => v.map Dy.toFp32) =
    [some 0x41400000, some 0xC0400000, some 0x3F800000, some 0, some 0x40800000, some 0, some 0x3F800000, some 0] := by decide +kernel

/-- The CID 0x1234_5678_9ABC of spec/02 has hash value 2. -/
theorem test_cid_hash : cidHash 0x123456789ABC = 2 := by decide +kernel

/-- The word of spec/16 whose only non-zero data symbol is d_0 = 1, and the error that its example corrects. -/
theorem test_word_code : wcCheck (1 :: List.replicate 31 0) = [0x40, 0x78, 0x36, 0x0F] ∧
    classifyWord ([1, 0, 0, 0, 0, 1] ++ List.replicate 26 0 ++ [0x40, 0x78, 0x36, 0x0F]) = .corrected 9 1 := by decide +kernel

/-- The weight of spec/05: x = 1 + 2^-22 under the anchor 3. -/
theorem test_exp2 : exp2 0x3F800002 3 = .weight 274877952320 ∧ exp2 0x40800000 (-4) = .breach := by decide +kernel

/-- The two partials of spec/06, their sum, and the normalised outputs. -/
theorem test_normalise : (Partial.add { n := [0x1A000000000000000, 0x8000000000000000], l := 0x18000000000, count := 2 }
      { n := [-0x4000000000000000, 0x3000000000000000], l := 0x4000000000, count := 1 }) =
      { n := [0x16000000000000000, 0xB000000000000000], l := 0x1C000000000, count := 3 } ∧
    widthCode 0 [0x1A000000000000000, 0x8000000000000000] = 1 ∧ widthCode 0 [-0x4000000000000000, 0x3000000000000000] = 0 ∧
    normFp32 0x16000000000000000 0x1C000000000 = 0x3F492492 ∧ normFp32 0xB000000000000000 0x1C000000000 = 0x3EC92492 ∧
    normBf16 0x3F492492 = 0x3F49 ∧ normBf16 0x3EC92492 = 0x3EC9 := by decide +kernel

/-- The tickets of spec/09: replies 137, 200 and 201 of a ring of 64 slots. -/
theorem test_ticket : replyTicket 64 137 = 0x03000009 ∧ replyTicket 64 200 = 0x04000008 ∧ replyTicket 64 201 = 0x04000009 := by decide +kernel

/-- A reply and its place in the ring, and a memory in its canonical form. -/
theorem test_hyp_slot :
    let r : Reply := { opcode := 0x0101, requestId := 1, targetId := 0, layer := 0, qpSeq := 0, epoch := 3, status := 0, reason := 0, param0 := 0, param1 := 0
                       result := [1, 2, 3] }
    0 < 64 ∧ 64 ≤ 4096 ∧ 137 < 2 ^ 64 ∧ 5 < 2 ^ 32 ∧ r.result.length < 2 ^ 32 ∧ Memory.wf (base.writeFrame .hot 3 8 [1, 2]).tiers.mem = true := by
  decide +kernel

/-- The STAT register of spec/00: the HOT block REFUSED for reason 0x0402. -/
theorem test_stat : ({ base with blocks := setAt base.blocks 3 { st := .refused, reason := 0x0402 } } : State).regValue 0x00040008 =
    some 0x04020003 := by decide +kernel

/-! ## States that meet the hypotheses of the statements: the machine and the command path -/

/-- A queue of two commands, and an empty one. -/
theorem test_hyp_steps : ({ base with pending := [.hotEvict, .warmEvict] } : State).pending = .hotEvict :: [.warmEvict] ∧
    base.pwr.state ≠ .off ∧ ({ base with pwr := { base.pwr with state := .off } } : State).pwr.state = .off := by decide +kernel

/-- A state in which nothing is commanded and nothing awaited. -/
theorem test_hyp_idle : base.Idle :=
  ⟨rfl, rfl, rfl, rfl, by decide, by decide, rfl, rfl, rfl, by decide, by decide, fun n => by
    show ((List.replicate 16 ({} : Port)).getD n {}).rxPaused = []
    rw [List.getD_eq_getElem?_getD, List.getElem?_replicate]; split <;> rfl⟩

/-- A state with what every step keeps, from which a step answers a next state. -/
theorem test_hyp_sound : Sound [.hotEvict] { State.reset with pending := [.hotEvict] } ∧
    ∃ t, step { State.reset with pending := [.hotEvict] } = .next t :=
  ⟨⟨rfl, by decide +kernel, rfl, Nat.zero_le _, fun _ _ h => (by cases h), rfl⟩, _, rfl⟩

/-- SCRUB_PASS of a frame that the tier does not have. -/
theorem test_hyp_absent_frame : tierFrames .hot ≤ Config.hotFrames ∧
    step { base with pending := [.scrubPass .hot Config.hotFrames] } = .fault .noSuchFrame := by
  refine ⟨by decide +kernel, by rfl⟩

/-- Event queues with room and without. -/
theorem test_hyp_events : base.events.length < 512 ∧
    512 ≤ ({ base with events := List.replicate 512 { time := 0, block := 1, injected := false, rimeTime := false, reason := 1, detail := 0 } } :
      State).events.length := by decide +kernel

/-- Events of one cycle in the order of their block IDs, and of an earlier cycle before them. -/
theorem test_event_order :
    let s := ((base.raise Blk.hot 1 3).raise Blk.pwr 2 0).raise Blk.hot 3 1
    let t := ({ base with clk := { base.clk with rime := base.clk.rime + 1 } } : State)
    s.events.map (·.reason) = [2, 3, 1] ∧ (({ t with events := s.events } : State).raise Blk.pwr 4 0).events.map (·.reason) = [2, 3, 1, 4] := by decide +kernel

/-- A header with FORWARD, one of another epoch, one that passes, one with a reserved field set, and an undefined opcode. -/
theorem test_hyp_header : base.checkHeader 0x0101 (host { hdr 0x0101 with rsv7 := 1 }) = some (Ans.param Reason.hdrFormat) ∧
    base.checkHeader 0x0101 (host { hdr 0x0101 with flags := 4 }) = some (Ans.param Reason.hdrFormat) ∧
    base.checkHeader 0x0209 (host (hdr 0x0209 6 1 1)) = some (Ans.param Reason.hdrFormat) ∧ base.checkHeader 0x0209 (node (hdr 0x0209 6 1 1)) = none ∧
    base.checkHeader 0x0999 (host (hdr 0x0999)) = some (Ans.param Reason.opcodeUnknown) ∧
    base.checkHeader 0x0301 (host { hdr 0x0301 with flags := 2 }) = some (Ans.denied Reason.forwardDenied) ∧
    base.checkHeader 0x0101 (host { hdr 0x0101 with tenantEpoch := 2 }) = some (Ans.denied Reason.tenantEpoch) ∧
    bare.checkHeader 0x0203 (noTenant (host (hdr 0x0203 9))) = some (Ans.denied Reason.tenantEpoch) ∧
    base.checkHeader 0x0101 (host (hdr 0x0101)) = none := by decide +kernel

/-- QP_SEQ as expected, one ahead, one behind, at the bounds of R370; and a wrong HDR_CRC. -/
theorem test_hyp_sequence :
    (([0, 1, 2 ^ 31 - 1, 2 ^ 31, 2 ^ 32 - 1] : List Nat).all fun n =>
      match base.intake (host { hdr 0x0101 with qpSeq := BitVec.ofNat 32 n }) with
      | (some (d, _), t) => d.hdr.crcOk && d.src == .qp 0 && quiet t && decide ((t.qp 0).expectedSeq < 2 ^ 32)
      | _ => false) = true ∧
    (match base.intake { host (hdr 0x0101) with hdr := hdr 0x0101 } with
      | (some (d, _), t) => !d.hdr.crcOk && d.src == .qp 0 && quiet t
      | _ => false) = true := by decide +kernel

/-- A command on the host QP, and one on the lane, that break no check. -/
theorem test_hyp_accepted :
    let c := host (hdr 0x0101)
    (quiet base && base.takesCommands && base.rts 0 && (base.qp 0).kind == .host && base.regs.chk == [] && c.tail == [] && c.hdr.crcOk &&
      decide (base.net.bufHost + 4 * 2 ^ 20 ≤ hostShare) && decide ((base.qp 0).outstanding < (base.qp 0).slots) &&
      c.hdr.qpSeq.toNat == (base.qp 0).expectedSeq && base.checkHeader 0x0101 c == none && (opSpec 0x0101).isSome &&
      psnClass (base.qp 0).rqPsn c.psn == .expected && (base.record 5 40).isNone) = true ∧
    ((opSpec 0x0101).map fun o => match base.checkLegal o c with
      | .ok dl => dl == base.now + 50000
      | .error _ => false) = some true ∧
    accepted base 0x0101 c (fun d ctx t => d == c && ctx.src == .qp 0 && (t.qp 0).outstanding == 1) = true := by decide +kernel

theorem test_hyp_accepted_lane :
    let c := lane (hdr 0x0101)
    (base.net.lane == [] && c.hdr.crcOk && c.hdr.qpSeq == 0 && base.checkHeader 0x0101 c == none && (base.record laneSubscriber 40).isNone &&
      accepted base 0x0101 c (fun d ctx _ => d == c && ctx.src == .lane 7)) = true := by decide +kernel

/-- The requester, the node state, the role and the deadline. -/
theorem test_hyp_legal :
    let q := fun (s : State) (code : Nat) (c : Cmd) => (opSpec code).map fun o => match s.checkLegal o c with
      | .error a => a.reason
      | .ok _ => 0
    q base 0x0105 (host (hdr 0x0105)) = some Reason.privileged ∧ q base 0x020A (host (hdr 0x020A)) = some Reason.nodeQpOnly ∧
    q { base with node := { base.node with state := .fenced } } 0x0203 (host (hdr 0x0203)) = some Reason.nodeState ∧
    q { base with node := { base.node with role := .spare } } 0x0201 (host (hdr 0x0201)) = some Reason.nodeRole ∧
    q base 0x0203 (host { hdr 0x0203 with deadlineUs := 1 }) = some Reason.deadlineShort ∧ q base 0x0301 (host { hdr 0x0301 with deadlineUs := 1 }) = some 0 ∧
    ((opSpec 0x0203).map (·.attends) = some false ∧ (opSpec 0x0301).map (·.attends) = some true) ∧
    q base 0x0203 (host (hdr 0x0203)) = some 0 ∧ q base 0x0601 (host { hdr 0x0601 with deadlineUs := 9 }) = some Reason.deadlineFixed ∧
    q base 0x0601 (host (hdr 0x0601)) = some 0 := by decide +kernel

/-- A command and its context in progress. -/
def ctx0 : CmdCtx :=
  { src := .qp 0, subscriber := 5, opcode := 0x0101, requestId := 40, targetId := 0, layer := 0, qpSeq := 0, arrival := 0, deadline := 0 }

/-- A reply that a record keeps. -/
def rep0 : Reply :=
  { opcode := 0x0101, requestId := 40, targetId := 0, layer := 0, qpSeq := 0, epoch := 3, status := 0, reason := 0, param0 := 1, param1 := 2 }

/-- A record of that command. -/
def rec0 (st : RecordState) (rp : Option Reply) : Record :=
  { subscriber := 5, requestId := 40, pool := 0, fingerprint := fingerprint (host (hdr 0x0101)).hdr [], state := st, reply := rp }

/-- Duplicates of a command in progress, of one that ended OK, and with another fingerprint. -/
theorem test_hyp_duplicate :
    let s := fun (r : Record) => ({ base with net := { base.net with records := [r] } } : State)
    (s (rec0 .inProgress none)).record 5 40 = some (rec0 .inProgress none) ∧
    (s (rec0 .ended (some rep0))).record 5 40 = some (rec0 .ended (some rep0)) ∧ ctx0.subscriber = 5 ∧ ctx0.requestId = 40 ∧
    (rec0 .ended (some rep0)).fingerprint = fingerprint (host (hdr 0x0101)).hdr (host (hdr 0x0101)).payload ∧
    (host (hdr 0x0101)).hdr.forward = false := by decide +kernel

theorem test_hyp_reused_id : (rec0 .ended none).fingerprint ≠ fingerprint (host (hdr 0x0102)).hdr (host (hdr 0x0102)).payload := by decide +kernel

/-- The end of a command on the host QP in RTS, with its record. -/
theorem test_hyp_end : ctx0.src = .qp 0 ∧ ctx0.answered = false ∧ base.rts 0 = true ∧ ctx0.conn = (base.qp 0).conn ∧
    ({ ctx0 with conn := 1 } : CmdCtx).conn ≠ (base.qp 0).conn ∧ (base.qp 0).kind = .host ∧ (Ans.ok).keep = false ∧
    ctx0.recorded = true ∧
    ({ base with net := { base.net with records := [rec0 .inProgress none] } } : State).record ctx0.subscriber ctx0.requestId =
      some (rec0 .inProgress none) := by decide +kernel

/-- NODE_QUERY. -/
theorem test_hyp_node_query : accepted base 0x0101 (host (hdr 0x0101)) (fun d _ _ => d.payload == []) = true := by decide +kernel

/-- NODE_PROFILE_LOAD, FABRIC_TABLE_LOAD and NODE_SERVE before a tenant is in. -/
theorem test_hyp_node_setup :
    accepted bare 0x0102 (noTenant (lane (hdr 0x0102))) (fun _ _ t => t.trust.tenant.isNone) = true ∧
    accepted bare 0x0103 (noTenant (lane (hdr 0x0103))) (fun d _ t => (t.parseFabric d.payload).isNone) = true ∧
    accepted bare 0x0104 (noTenant (lane (hdr 0x0104))) (fun d _ t =>
      d.payload == [] && quiet t && t.blocks.length == 24 && t.serveRefusal.isSome) = true := by decide +kernel

/-- Drains of a pool, a port and a unit out of range; a drained port that returns; and a role that changes. -/
theorem test_hyp_drain :
    let ports := { base with net := { base.net with ports := setAt base.net.ports 1 { link := true } } }
    accepted base 0x0105 (lane (hdr 0x0105 0 (1 + 256 * 4))) (fun d _ t => d.payload == [] && decide (t.drainUnits 1 ≤ bits d.hdr.p0 15 8)) = true ∧
    accepted base 0x0105 (lane (hdr 0x0105 0 (1 + 256 * 3))) (fun d _ t =>
      decide (bits d.hdr.p0 15 8 < t.drainUnits 1) && !bit d.hdr.p0 3 && !t.drainBusy 1 3) = true ∧
    accepted ports 0x0105 (lane (hdr 0x0105 0 3)) (fun d _ t => decide (0 < t.drainUnits 3) && !bit d.hdr.p0 3 && !t.drainBusy 3 0 &&
      decide (0 < t.net.ports.length)) = true ∧
    accepted { base with node := { base.node with drains := [{ scope := 3, unit := 0, running := false }] } } 0x0105 (lane (hdr 0x0105 0 11))
      (fun d _ t => bit d.hdr.p0 3 && t.drainOf 3 0 == some { scope := 3, unit := 0, running := false }) = true := by decide +kernel

theorem test_hyp_role :
    accepted base 0x0106 (lane (hdr 0x0106 0 0)) (fun d _ t => d.hdr.p0 != 3 && (t.selfEntry.map (·.mobile)) == some true &&
      Role.ofCode d.hdr.p0 == t.node.role) = true ∧
    accepted base 0x0106 (lane (hdr 0x0106 0 1)) (fun d _ t => Role.ofCode d.hdr.p0 != t.node.role && !t.roleHolds) = true := by decide +kernel

/-- A port's drain that has come to its end, one that has not, and the node's own. -/
theorem test_hyp_drain_done :
    let d : Drain := { scope := 3, unit := 0, running := true }
    let e : Drain := { scope := 0, unit := 0, running := true }
    let s := fun (l : List Drain) => ({ base with node := { base.node with drains := l } } : State)
    (∀ x ∈ (s [d]).node.drains, x.scope ≠ 4) ∧ ((s [d]).node.drains.find? fun x => x.running && (s [d]).drainEmpty x) = some d ∧
    ((s [e]).node.drains.find? fun x => x.running && (s [e]).drainEmpty x) = some e ∧
    (∀ x ∈ (s []).node.drains, x.running = true → (s []).drainEmpty x = false) := by decide +kernel

/-! ## Registers -/

/-- Two registers of the HOT block, a place without a register, and a counter. -/
theorem test_hyp_register_read :
    accepted base 0x0107 (lane (hdr 0x0107 0x00040104 2)) (fun d _ t => d.payload == [] && d.hdr.p0 == 2 &&
      (List.range 2).all fun k => (t.regValue (0x00040104 + 4 * k)).isSome && t.afterRead (0x00040104 + 4 * k) == t) = true ∧
    accepted base 0x0107 (host (hdr 0x0107 0x00048008 2)) (fun d _ _ => d.hdr.targetId.toNat == 4 * 65536 + 0x8000 + 8 * 1 &&
      decide (1 < counterCount 4) && d.hdr.p0 == 2) = true := by decide +kernel

/-- CMD_CTL at the bounds of KEEP_MS, HOT_GROW_MARK at HOT_EVICT_START, and EVT_POP. -/
theorem test_hyp_register_write :
    (∀ k ∈ [0, 1, 1000, 1001], accepted base 0x0108 (lane (hdr 0x0108 0x000A0108 k 0xFFFFFFFF)) (fun d _ t =>
      d.payload == [] && (t.blockAt Blk.ctx).st != .checking && d.hdr.targetId.toNat == 0x000A0108) = true) ∧
    (∀ k ∈ [65535, 65536], accepted base 0x0108 (lane (hdr 0x0108 0x00040110 k 0xFFFFFFFF)) (fun d _ t =>
      (t.blockAt Blk.hot).st != .checking && d.hdr.targetId.toNat == 0x00040110) = true) ∧
    accepted base 0x0108 (lane (hdr 0x0108 0x00140114 1 1)) (fun d _ t => (t.blockAt Blk.err).st != .checking && bit d.hdr.p0 0 &&
      bit d.hdr.p1 0 && !t.up.selfTestFailed && !t.up.missedBound && !t.pwr.tripped) = true := by decide +kernel

/-- A write that succeeds and one that is refused. -/
theorem test_hyp_register_write_any :
    accepted base 0x0108 (lane (hdr 0x0108 0x00050110 5 0xFFFFFFFF)) (fun d ctx t => d.hdr.targetId.toNat % 65536 != 4 &&
      (match t.writeReg d.hdr.targetId.toNat d.hdr.p0 d.hdr.p1 ctx with
        | .ok _ => true
        | .error _ => false)) = true ∧
    accepted base 0x0108 (lane (hdr 0x0108 0x00050118 5 0xFFFFFFFF)) (fun d ctx t =>
      (match t.writeReg d.hdr.targetId.toNat d.hdr.p0 d.hdr.p1 ctx with
        | .ok _ => false
        | .error _ => true)) = true := by decide +kernel

/-- A block that is DISABLED, one that is ENABLED, and writes of ENABLE 0. -/
theorem test_hyp_block_ctl :
    let on := { base with blocks := setAt base.blocks 3 { st := .enabled, enable := true } }
    accepted base 0x0108 (lane (hdr 0x0108 0x00040004 1 1)) (fun d _ t => d.payload == [] && t.blocks.length == 24 && quiet t &&
      (t.blockAt 4).st == .disabled && decide (d.hdr.p0 < 2 ^ 32) && bit d.hdr.p0 0 && bit d.hdr.p1 0) = true ∧
    accepted on 0x0108 (lane (hdr 0x0108 0x00040004 1 1)) (fun _ _ t => (t.blockAt 4).st == .enabled && (t.blockAt 4).enable &&
      (t.blockAt 4).waiter.isNone) = true ∧
    accepted on 0x0108 (lane (hdr 0x0108 0x00040004 0 1)) (fun d _ t => t.node.state == .serving && !bit d.hdr.p0 0 && bit d.hdr.p1 0 &&
      (t.blockAt 4).st != .checking && (t.blockAt 4).waiter.isNone) = true ∧
    accepted bare 0x0108 (noTenant (lane (hdr 0x0108 0x00040004 0 1))) (fun _ _ t => t.node.state == .configurable) = true := by decide +kernel

/-- A block whose checks end, with and without a NODE_SERVE that waits. -/
theorem test_hyp_check_done :
    let s := fun v l => ({ bare with
      blocks := (List.replicate 24 ({ st := .enabled, enable := true } : Block)).set 3 { st := .checking, enable := true, verdict := v }
      node := { bare.node with serving := l } } : State)
    ((s 0 []).blocks.length = 24 ∧ ((s 0 []).blockAt 4).st = .checking ∧ ((s 0 []).blockAt 4).waiter = none ∧ (s 0 []).node.serving = [] ∧
      ((s 0 []).blockAt 4).verdict = 0) ∧
    ((s 0x0402 [ctx0]).node.serving = [ctx0] ∧ ((s 0x0402 [ctx0]).blockAt 4).verdict ≠ 0 ∧
      ∀ n < 24, n + 1 ≠ 4 → ((s 0x0402 [ctx0]).blockAt (n + 1)).st = .enabled) := by decide +kernel

/-- A slot whose target R635 allows, one whose target is none, DISARM, BLOCK_DISARM, and a slot whose delay has run out. -/
theorem test_hyp_injection :
    let x : InjSlot := { kind := 1, block := Blk.inj - 20, point := 0, count := 1 }
    let s := fun (x : InjSlot) => ({ base with regs := { base.regs with inj := setAt base.regs.inj 15 x } } : State)
    let y : InjSlot := { x with block := Blk.sec, point := 0, count := 1 }
    accepted (s { y with count := 0 }) 0x0108 (lane (hdr 0x0108 0x001501FC 1 3)) (fun d _ t => d.payload == [] && !t.node.confidential &&
      (t.blockAt Blk.inj).st != .checking && t.regs.inj[15]? == some { y with count := 0 } && Nat.land d.hdr.p0 d.hdr.p1 % 4 == 1 &&
      (injRefusal y.block y.point y.kind 0).isSome) = true ∧
    accepted (s y) 0x0108 (lane (hdr 0x0108 0x001501FC 1 3)) (fun _ _ _ => (injRefusal y.block y.point y.kind y.count).isNone) = true ∧
    accepted (s y) 0x0108 (lane (hdr 0x0108 0x001501FC 2 3)) (fun d _ _ => Nat.land d.hdr.p0 d.hdr.p1 % 4 == 2) = true ∧
    accepted (s y) 0x0108 (lane (hdr 0x0108 0x00040020 1 1)) (fun d _ t => (t.blockAt 4).st != .checking && bit d.hdr.p0 0 && bit d.hdr.p1 0) = true ∧
    (s { y with busy := true, due := 5 }).regs.inj[15]? = some { y with busy := true, due := 5 } ∧ 5 ≤ base.now := by decide +kernel

/-- Units of the firmware and of the user, a QP to establish and to reset, and gate lists. -/
theorem test_hyp_units :
    let unit := fun n => accepted base 0x0108 (lane (hdr 0x0108 (0x00130100 + 0x20 * n) 0x80200000 0xFFFFFFFF)) (fun d _ t => d.payload == [] &&
      (t.blockAt Blk.chk).st != .checking && d.hdr.p1 == 2 ^ 32 - 1 && bit d.hdr.p0 31 && !(Table.getD t.regs.chk n {}).en)
    unit 23 = true ∧ unit 24 = true ∧ unit 63 = true := by decide +kernel

theorem test_hyp_establish :
    let st : QpStage := { index := 5, remoteQpn := 5, attr := 0x00000000, ring0 := 128, ringKey := 1, ringSlots := 16 }
    let s := { base with regs := { base.regs with stage := st } }
    accepted s 0x0108 (lane (hdr 0x0108 0x000D013C 1 3)) (fun d _ t => d.payload == [] && (t.blockAt Blk.rdma).st != .checking &&
      (t.qp t.regs.stage.index).state == .reset && !t.stageBad && Nat.land d.hdr.p0 d.hdr.p1 % 4 == 1) = true ∧
    accepted base 0x0108 (lane (hdr 0x0108 0x000D013C 1 3)) (fun _ _ t => (t.qp t.regs.stage.index).state != .reset) = true ∧
    accepted s 0x0108 (lane (hdr 0x0108 0x000D013C 2 3)) (fun d _ t => Nat.land d.hdr.p0 d.hdr.p1 % 4 == 2 &&
      (t.qp t.regs.stage.index).state != .rts) = true := by decide +kernel

theorem test_hyp_gate_list :
    accepted base 0x0108 (lane (hdr 0x0108 0x000E015C 1 1)) (fun d _ t => (t.blockAt Blk.sched).st != .checking &&
      Nat.land d.hdr.p0 d.hdr.p1 % 2 == 1 && decide (t.regs.gclPort < t.net.ports.length) && (t.port t.regs.gclPort).adminOk) = true ∧
    accepted { base with net := { base.net with ports := setAt base.net.ports 0 { adminLen := 0 } } } 0x0108
      (lane (hdr 0x0108 0x000E015C 1 1)) (fun _ _ t => !(t.port t.regs.gclPort).adminOk) = true ∧
    (let p : Port := { pendingList := some ({}, 20000000000) }
     let s := ({ base with net := { base.net with ports := setAt base.net.ports 0 p } } : State)
     0 < s.net.ports.length ∧ (s.port 0).pendingList = some ({}, 20000000000) ∧ 20000000000 ≤ s.clk.ptp) := by decide +kernel

/-! ## States that meet the hypotheses: conversations -/

/-- A conversation of two tokens in both layers, home here, whose lease the host QP holds. -/
def cv : Conv :=
  { pool := 2, home := 0, layout := 1, committed := [2, 2], crcs := [[], []], epoch := 1, lease := some 0, leaseExpiry := 2 ^ 60 }

/-- A page of that conversation in a hot frame. -/
def pg (ly ix : Nat) : Page := { cid := 6, layout := 1, key := { layer := ly, head := 0, index := ix }, tier := .hot, frame := 8 * ix + ly, fill := 2, twinNode := some 1 }

/-- The node with conversation 6, its pages of the first 16 tokens, and a partner that has granted 100 twin frames. -/
def withConv (x : Conv) (s : State := base) : State :=
  { s with
    convs := [(6, { x with pages := [({ layer := 0, head := 0, index := 0 }, 0), ({ layer := 1, head := 0, index := 0 }, 1)] })]
    tiers := { s.tiers with pages := [(0, pg 0 0), (1, pg 1 0)], hot := [(0, .page 0), (1, .page 1)], nextPage := 2 }
    recover := { s.recover with partners := [(1, { grantsFree := List.range 100, grantsTotal := 100, lastContact := 20000000000 })] } }

/-- Whether conversation 6 is at its gate with nothing waiting, and a command of the host QP is legal. -/
def gate6 (t : State) (legal : ConvState → Bool) : Bool :=
  match t.conv 6 with
  | some x => atGate t 6 x legal (.qp 0)
  | none => false

/-- The same for a command of the management lane. -/
def gateLane (t : State) (legal : ConvState → Bool) : Bool :=
  match t.conv 6 with
  | some x => atGate t 6 x legal (.lane 7)
  | none => false

/-- A condition on conversation 6. -/
def with6 (t : State) (p : Conv → Bool) : Bool := ((t.conv 6).map p).getD false

/-- The open block for layout 1 with no outlying node. -/
def openBlock : List Byte := le 1 1 ++ zeros 63

/-- CONV_OPEN of a new CID and of one that exists; CONV_SEAL and CONV_CLOSE. -/
theorem test_hyp_open : accepted base 0x0201 (host (hdr 0x0201 7) openBlock) (fun d ctx t => (t.conv d.hdr.cid).isNone && nothingAhead t d.hdr.cid ctx.src &&
      (t.openRefusal d.payload).isNone && (t.layout (fieldAt d.payload 0 1)).isSome &&
      decide (t.tableUse (t.mappedPool (cidHash 7)) < Config.tablePerPool) && decide (t.regs.warmAdmitMark ≤ t.avail .warm)) = true ∧
    accepted (withConv cv) 0x0201 (host (hdr 0x0201 6) openBlock) (fun d _ t => with6 t (fun x => x.home == t.nodeId && x.row == [] && t.gateClear 6 0 && (t.barred x).isNone) &&
      (t.openRefusal d.payload).isNone) = true := by decide +kernel

theorem test_hyp_seal_close :
    accepted (withConv cv) 0x0203 (host (hdr 0x0203 6)) (fun d ctx t => d.payload == [] && gate6 t onlyOpen &&
      with6 t fun x => x.lease == some (srcKey ctx.src)) = true ∧
    ([ConvState.opened, .sealed, .lost].all fun st => accepted (withConv { cv with state := st }) 0x0206 (host (hdr 0x0206 6)) fun d _ t =>
      d.payload == [] && gate6 t fun st => st == .opened || st == .sealed || st == .lost) = true := by decide +kernel

/-- A conversation without a twin, one whose twin is reached, and one whose twin is not. -/
theorem test_hyp_twinned : base.linkUp 1 = true ∧ State.reset.linkUp 1 = false ∧ cv.twin = none ∧
    (withConv cv).linkUp 1 = true ∧ ((withConv cv).partner 1).map (·.freed) = some [] := by decide +kernel

/-- CONV_TRUNCATE to more than the length, to the length, and to less; CONV_FORK beyond the length, and at both ends of it. -/
theorem test_hyp_truncate : ([(3, .gt), (2, .eq), (1, .lt), (0, .lt)] : List (Nat × Ordering)).all (fun n =>
    accepted (withConv { cv with lease := some 16384 }) 0x0204 (lane (hdr 0x0204 6 n.1)) fun d ctx t => d.payload == [] && gateLane t onlyOpen &&
      with6 t fun x => x.lease == some (srcKey ctx.src) && t.layout x.layout == some lay &&
        compare d.hdr.p0 (x.committed.foldl max 0) == n.2 &&
        (t.blocked ((x.cutPages lay d.hdr.p0 fun ly => x.committed.getD ly 0).map (·.2)) ctx) == (none, t) &&
        x.cutAway lay d.hdr.p0 (fun ly => x.committed.getD ly 0) == [] &&
        (t.roomFor x.twin (x.cutPages lay d.hdr.p0 fun ly => x.committed.getD ly 0).length).isNone) = true := by decide +kernel

theorem test_hyp_fork : ([3, 2, 1, 0] : List Nat).all (fun n =>
    accepted (withConv cv) 0x0205 (lane (hdr 0x0205 6 9 n)) fun d ctx t => d.payload == [] && gateLane t openOrSealed &&
      with6 t fun x => t.layout x.layout == some lay && decide (x.length < d.hdr.p1) == (n == 3) && (t.conv d.hdr.p0).isNone && nothingAhead t d.hdr.p0 ctx.src &&
        decide (t.tableUse (t.mappedPool (cidHash 9)) < Config.tablePerPool) && decide (t.regs.warmAdmitMark ≤ t.avail .warm) &&
        (t.blocked ((x.pages.filter fun p => p.1.index == d.hdr.p1 / 16).map (·.2)) ctx) == (none, t) && (t.roomFor x.twin 2).isNone &&
        x.cutAway lay d.hdr.p1 (fun _ => d.hdr.p1 + 1) == []) = true := by
  decide +kernel

/-- A result item of 64 bytes. -/
def item : List Byte := le 8 256 ++ le 4 3 ++ le 4 64

theorem test_hyp_stat_lease :
    accepted (withConv cv) 0x0208 (host (hdr 0x0208 6)) (fun d _ t => d.payload == [] && gate6 t fun st => st != .free) = true ∧
    accepted (withConv cv) 0x0208 (host (hdr 0x0208 6) item) (fun d ctx t => d.payload.length == 16 && (gate6 t fun st => st != .free) &&
      with6 t fun x => itemFits ctx.src (resultItemAt d.payload 0) (4 * x.committed.length)) = true ∧
    accepted (withConv cv) 0x020C (host (hdr 0x020C 6)) (fun d ctx t => d.payload == [] && d.hdr.param0 == 0 && gate6 t onlyOpen &&
      with6 t fun x => x.lease == some (srcKey ctx.src)) = true ∧
    ([some 0, some 9, none].all fun q => accepted (withConv { cv with lease := q }) 0x020C (host (hdr 0x020C 6 1) item) fun d ctx t =>
      d.payload.length == 16 && d.hdr.param0 == 1 && gate6 t onlyOpen &&
      with6 t fun x => itemFits ctx.src (resultItemAt d.payload 0) (4 * x.committed.length)) = true := by decide +kernel

theorem test_hyp_pin : ([0, 2 ^ 32] : List Nat).all (fun un => accepted (withConv cv) 0x0207 (host (hdr 0x0207 6 1 un)) fun d _ t =>
    d.payload == [] && gate6 t openOrSealed && with6 t fun x => t.layout x.layout == some lay && pinLayers 2 d.hdr.p1 == some [0, 1] &&
      decide (bits d.hdr.p0 31 0 < (([0, 1] : List Nat).map fun ly => x.committed.getD ly 0).foldl max 0) &&
      (bit d.hdr.p1 32 == (un != 0)) && x.pinPages lay [0, 1] 1 0 == [0, 1] &&
      decide ((t.tiers.pages.filter fun p => !p.2.pinnedBy.isEmpty).length + 2 ≤ Config.pinLimit)) = true := by decide +kernel

/-- A row in which one command waits, one with 256, and rows whose front is CONV_STAT, CONV_SEAL, and an append ahead of its token. -/
def statRow : RowItem := .cmd (host (hdr 0x0208 6)) ctx0

/-- An append of the next token to both layers. -/
def ap : Append := { uid := 9, cid := 6, qp := 0, token := 2, layer := 0, layerCount := 2, allLayers := true, segment := 0, crc := 0, payload := zeros 16, arrival := 0 }

theorem test_hyp_row : ([1, 256] : List Nat).all (fun n =>
    accepted (withConv { cv with row := List.replicate n statRow }) 0x0203 (host (hdr 0x0203 6)) fun d _ t => d.payload == [] &&
      with6 t fun x => x.home == t.nodeId && x.row != [] && !t.commitDue 6 && !t.leaseDue 6 && t.heldNext 6 == none) = true ∧
    (([statRow, .cmd (host (hdr 0x0203 6)) ctx0] : List RowItem).all fun r => with6 (withConv { cv with row := [r] }) fun x => x.row == [r] &&
      frontPasses (withConv { cv with row := [r] }) 6 r &&
      x.home == base.nodeId && base.guard x onlyOpen == none && (base.guard x fun st => st != .free) == none && x.lease == some (srcKey ctx0.src)) = true ∧
    (with6 (withConv { cv with row := [.append { ap with token := 3 }] }) fun x => base.guard x onlyOpen == none && x.lease == some ap.key &&
      frontPasses (withConv { cv with row := [.append { ap with token := 3 }] }) 6 (.append { ap with token := 3 }) && x.judge { ap with token := 3 } == .wait &&
      x.judge { ap with token := 2 + 63 } == .wait && x.judge { ap with token := 2 + 64 } == .beyond) = true ∧
    (withConv cv).commitDue 6 = false ∧ (withConv cv).leaseDue 6 = false ∧ (withConv cv).heldNext 6 = none := by
  decide +kernel

/-- Two items of one cycle, of QPs 3 and 0. -/
theorem test_hyp_row_order :
    let a : RowItem := .append { ap with qp := 3 }
    a.arrival = (RowItem.append ap).arrival ∧ (RowItem.append ap).key < a.key ∧ rowInsert [a] (.append ap) = [.append ap, a] := by decide +kernel

/-- A CONV_APPEND of the next token, and one whose length is wrong. -/
def trailer (layers token : Nat) (p : List Byte) (cid : Nat := 6) (gen : Nat := 0) : List Byte :=
  let t := le 6 cid ++ le 1 gen ++ le 1 (if layers = 2 then 1 else 0) ++ le 4 token ++ le 2 0 ++ le 2 layers ++ le 4 p.length ++ zeros 8
  t ++ le 4 (crc32c (p ++ t))

/-- The conversation with a twin, as an append needs it. -/
def cvt : Conv := { cv with twin := some 1 }

theorem test_hyp_append : accepted (withConv cvt) 0x0202 (host (hdr 0x0202 6) (zeros 16 ++ trailer 2 2 (zeros 16))) (fun d ctx t =>
    let tr := d.payload.drop 16
    let a : Append := { t.makeAppend (srcKey ctx.src) 0 0 0 (some ctx) (d.payload.take 16) tr with cid := d.hdr.cid }
    d.payload.length == 48 && quiet t && gate6 t onlyOpen && t.appendRefusal a tr 16 (fieldAt tr 16 4 == 16)
      (a.crc.toNat == crc32c (d.payload.take 16 ++ tr.take 28)) (fieldAt tr 0 6 == d.hdr.cid && fieldAt tr 6 1 == 0) == none &&
    with6 t fun x => x.lease == some (srcKey ctx.src) && t.layout x.layout == some lay && x.judge a == .pass && !t.waitsHot x lay a &&
      x.twin == some 1 && !t.twinless x lay a && (x.newPages lay a).length == 0) = true ∧
    accepted (withConv cvt) 0x0202 (host (hdr 0x0202 6) (zeros 16 ++ trailer 2 2 (zeros 15))) (fun d ctx t =>
      let tr := d.payload.drop 16
      let a : Append := { t.makeAppend (srcKey ctx.src) 0 0 0 (some ctx) (d.payload.take 16) tr with cid := d.hdr.cid }
      (t.appendRefusal a tr 16 (fieldAt tr 16 4 == 16) (a.crc.toNat == crc32c (d.payload.take 16 ++ tr.take 28))
        (fieldAt tr 0 6 == d.hdr.cid && fieldAt tr 6 1 == 0)).isSome) = true := by decide +kernel

/-- The first append of a page, for which there is room: the conversation at the end of its first pages. -/
theorem test_hyp_append_page : with6 (withConv { cvt with committed := [16, 16] }) (fun x =>
    let s := withConv { cvt with committed := [16, 16] }
    let a := { ap with token := 16 }
    x.judge a == .pass && (x.newPages lay a).length == 2 && decide (s.regs.hotGrowMark < s.avail .hot) &&
      decide (2 ≤ ((s.partner 1).map (·.grantsFree.length)).getD 0) && decide (2 ≤ s.allocatable .hot) && !s.waitsHot x lay a && !s.twinless x lay a) = true := by
  decide +kernel

/-- A window of 16 slots of 4,096 bytes on the host QP. -/
def win : Region := { window := true, tier := .warm, slotBytes := 4096, slots := 16, length := 65536, qp := 0, frames := [5], owner := 5 }

/-- A write with its ticket, and with that of another slot. -/
theorem test_hyp_window : let s := { withConv cvt with regions := { State.reset.regions with regions := [(3, win)] } }
    let tr := trailer 2 2 (zeros 16)
    let a := s.makeAppend 0 3 15 15 none (zeros 16) tr
    (quiet s && s.takesCommands && s.rts 0 && psnClass (s.qp 0).rqPsn 0 == .expected && s.region 3 == some win && win.window && win.qp == 0 && win.state == .live && decide (15 < win.slots) &&
      decide ((s.qp 0).outstanding < (s.qp 0).slots) && LegalIn.holds .svc s.node.state && fieldAt tr 16 4 == 16 &&
      Table.getD win.generations 15 0 == 0 && fieldAt tr 6 1 == 0 &&
      s.appendRefusal a tr 16 true (a.crc.toNat == crc32c (zeros 16 ++ tr.take 28)) true == none && with6 s fun x => decide (x.row.length < 256)) = true ∧
    (14 : W32).toNat % 2 ^ 24 ≠ 15 := by decide +kernel

/-- A held append whose token has come. -/
theorem test_hyp_held : with6 (withConv { cvt with held := [ap] }) (fun x => x.held == [ap] && base.guard x onlyOpen == none && x.lease == some ap.qp &&
    x.judge ap == .pass && !(withConv cvt).waitsHot x lay ap && !(withConv { cvt with held := [ap] }).twinless x lay ap && (x.newPages lay ap).length == 0) = true ∧
    (withConv { cvt with held := [ap] }).commitDue 6 = false ∧ (withConv { cvt with held := [ap] }).leaseDue 6 = false ∧
    (withConv { cvt with held := [ap] }).ahead 6 1 = false := by decide +kernel

/-- An append that can commit, a lease and a held append whose time has come, and one whose twin is silent. -/
theorem test_hyp_append_ends :
    let s := withConv { cvt with passed := [ap], leaseExpiry := 5 }
    let h := withConv { cvt with held := [{ ap with token := 3 }] }
    h.commitDue 6 = false ∧ h.leaseDue 6 = false ∧ h.heldNext 6 = none ∧
    (with6 (s.takeAcks 6) fun x => x.committable == some ap) = true ∧
    (with6 s fun x => x.lease == some 0 && decide (x.leaseExpiry ≤ s.now) && (x.passed.find? fun b => b.uid == 9) == some ap) = true ∧
    (let t := withConv { cvt with passed := [{ ap with unacked := 1 }], leaseExpiry := 5 }
     t.commitDue 6 = false ∧ with6 t (fun x => x.lease == some 0 && decide (x.leaseExpiry ≤ t.now)) = true) ∧
    (with6 h fun x => (x.held.find? fun b => b.uid == 9) == some { ap with token := 3 }) = true ∧ ap.arrival + 5000000 ≤ s.now ∧ ap.passedAt + 5000000 ≤ s.now := by
  decide +kernel

/-- A move to node 1 under epoch 2 that has not been accepted. -/
def mv : Move := { dest := 1, epoch := 2, former := .opened, requester := none, lastSent := 0 }

/-- CONV_MOVE_OFFER of a requester, ACCEPT under the epoch and under another, and COMMIT. -/
theorem test_hyp_move :
    let own := { cv with state := .moving, lease := none, move := some mv }
    accepted (withConv cv) 0x0209 (host (hdr 0x0209 6 1)) (fun d ctx t => d.payload == [] && !t.fromNode ctx && d.hdr.param1 == 0 &&
      gate6 t openOrSealed && d.hdr.p0 != t.nodeId && (t.fabricNode d.hdr.p0).map (·.role) == some Role.cache) = true ∧
    accepted (withConv own) 0x020A (node (hdr 0x020A 6 0 2)) (fun d ctx t => d.payload == [] && with6 t fun x => x.move == some mv &&
      mv.dest == t.sender ctx && mv.epoch == d.hdr.p1) = true ∧
    accepted (withConv own) 0x020A (node (hdr 0x020A 6 0 3)) (fun d _ _ => mv.epoch != d.hdr.p1) = true ∧
    accepted (withConv { own with move := some { mv with accepted := true } }) 0x020B (node (hdr 0x020B 6 0 2)) (fun d ctx t => d.payload == [] &&
      with6 t fun x => x.move == some { mv with accepted := true } && mv.dest == t.sender ctx && mv.epoch == d.hdr.p1) = true ∧
    (with6 (withConv { own with move := some { mv with requester := some ctx0 } }) fun x => x.move == some { mv with requester := some ctx0 } &&
      decide (ctx0.deadline ≤ base.now)) = true ∧
    (with6 (withConv own) fun x => x.move == some mv && !mv.incoming && !mv.accepted) = true ∧ ((9 : BitVec 8) ≠ 0 ∧ (9 : BitVec 8).toNat < 16 ∧ 16 ≤ (16 : BitVec 8).toNat) ∧
    (let m : ExtentMove := { id := 4, first := 0, last := 1, dest := 1 }
     with6 (withConv { cv with extentMoves := [m] }) fun x => x.move.isNone && (x.extentMoves.find? fun k => !k.passed) == some m) = true := by decide +kernel

/-- OWNER_PROBE of the home under the epoch, under a lower one, under a higher one, and of a CID that is unknown; the probe of the old home. -/
theorem test_hyp_probe :
    accepted (withConv cv) 0x0505 (node (hdr 0x0505 6 0 1)) (fun d _ t => d.payload == [] && with6 t fun x => x.home == t.nodeId && x.epoch == d.hdr.p1) = true ∧
    accepted (withConv cv) 0x0505 (node (hdr 0x0505 6 0 0)) (fun d _ t => with6 t fun x => decide (d.hdr.p1 < x.epoch)) = true ∧
    accepted (withConv cv) 0x0505 (node (hdr 0x0505 6 0 2)) (fun d _ t => with6 t fun x => !(x.home == t.nodeId && x.epoch == d.hdr.p1) && decide (x.epoch ≤ d.hdr.p1)) = true ∧
    accepted base 0x0505 (node (hdr 0x0505 6 0 0)) (fun d _ t => (t.conv d.hdr.cid).isNone) = true ∧
    (with6 (withConv { cv with move := some mv }) fun x => x.move == some mv && !base.poolLeaves x.pool && decide (mv.lastSent + 200000 ≤ base.now) &&
      base.linkUp mv.dest) = true ∧ mv.epoch ≤ 2 := by decide +kernel

/-- A sealed first page of each layer, which moves to node 1; the extent moves before and after their pass, the pages taken; one declined;
and a conversation of node 1, whose extent this node takes or is no CACHE for. -/
theorem test_hyp_extents :
    let m : ExtentMove := { id := 4, first := 0, last := 1, dest := 1 }
    let s := fun l => ((withConv { cv with committed := [16, 16], outlying := [1], extentMoves := l }).modPage 0 fun p => { p with isSealed := true }).modPage 1
      fun p => { p with isSealed := true }
    (with6 (s []) fun x => x.home == base.nodeId && (s []).layout x.layout == some lay && (s []).moveAllowed x lay 0 1 1 && x.holder 0 1 1 == none &&
      decide (x.extents.length + x.extentMoves.length < 15) && x.pages.all fun k => match (s []).page k.2 with
        | some p => !p.away && clean (s []) p.tier p.frame
        | none => false) = true ∧
    (with6 (s [m]) fun x => (x.extentMoves.find? fun k => !k.passed && (s [m]).extentTaken 6 k) == some m && (s [m]).moveStands x m) = true ∧
    (with6 ((s [m]).modConv 6 fun x => { x with outlying := [] }) fun x => !(s [m]).moveStands x m) = true ∧
    (s [m]).extentTaken 6 { m with copies := 1 } = false ∧ (s [m]).commitDue 6 = false ∧ (s [m]).leaseDue 6 = false ∧
    with6 (withConv { cv with home := 1 }) (fun x => x.home != base.nodeId) = true ∧
    ({ base with node := { base.node with role := .spare } } : State).node.role ≠ .cache ∧
    (with6 (s [{ m with passed := true, waitFor := [3] }]) fun x =>
      (x.extentMoves.find? fun k => k.passed && k.first == 0) == some { m with passed := true, waitFor := [3] } && ((s []).req 3).isNone) = true := by
  decide +kernel

/-! ## States that meet the hypotheses: attention and tiles -/

/-- The tiles of the node run, the logical ones bound to the first 64. -/
def tiled (s : State := base) : State :=
  { s with attn := { s.attn with
      tiles := (List.range 72).map fun p => if p < 64 then { role := .active, power := .run, logical := some p } else { role := .spare, power := .clockStop }
      logicals := (List.range 64).map fun n => { phys := n, valid := true } } }

/-- A request block: one token of one BF16 row, mode 0, scale 1.0, and a result of 64 kB. -/
def block (k : Nat := 0) : List Byte :=
  le 1 1 ++ le 1 0 ++ le 1 1 ++ le 1 0 ++ le 4 0x3F800000 ++ zeros 16 ++ le 8 256 ++ le 4 3 ++ le 4 65536 ++ le 2 k ++ zeros 102 ++ [0x80, 0x3F, 0x80, 0x3F] ++ zeros 12

/-- Whether a request can work (State.CanWork). -/
def canWork (s : State) (c : Conv) (r : Req) (l : Layout) : Bool :=
  s.layout r.layout == some l && decide ((s.attn.reqs.filter fun x => x.2.pool == c.pool).length < Config.contextsPerPool) &&
  (r.versions.all fun h => (((Table.get s.regions.versions h.toNat).map fun v => v.state != .poisoned).getD true)) && s.absorbAway r.graze == [] && r.graze.absorb == 0 &&
  (s.stageRows r.graze l r.layer).isSome && (s.tiers.pages.all fun p => !p.2.away) &&
  decide (s.reqNow r + s.workNs r l false ≤ r.deadline) && decide (s.reqNow r + s.estimateNs r l ≤ r.deadline) && ((List.range 64).all fun n => (s.logical n).live)

/-- A layout with a cairn. -/
def cairnLay : Layout := { lay with cairn := true }

/-- The three requests, with and without an outlying node. -/
theorem test_hyp_attention : ([(0x0301, false, false), (0x0302, true, false), (0x0304, false, true)] : List (Nat × Bool × Bool)).all (fun q =>
    ([[], [{ node := 1, first := 0, last := 1 }]] : List (List Extent)).all fun es =>
      let l := if q.2.2 then cairnLay else lay
      let s := tiled (withConv { cv with extents := es })
      accepted { s with attn := { s.attn with layouts := [(1, l)] } } q.1 (host (hdr q.1 6) (block (if q.2.2 then 4 else 0))) fun d ctx t =>
        d.hdr.opcode.toNat == q.1 && !d.hdr.forward && (gate6 t fun st => openOrSealed st || st == .moving) && decide (t.now < ctx.deadline) && d.hdr.deadlineUs != 1 && d.hdr.param0 == 0 && d.hdr.param1 == 0 &&
        (match t.checkGraze d.payload 1 l 0 q.2.1 q.2.2 none with
          | .ok g => with6 t fun x => (t.newReq x 6 0 ctx q.2.1 q.2.2 g l).parts.length == es.length + 1 && t.peerUp 1 &&
              canWork t x (t.newReq x 6 0 ctx q.2.1 q.2.2 g l) l
          | .error _ => false)) = true := by decide +kernel

/-- A forward of node 1 to this node: participant 1 of 2, positions below 2. -/
def forwardBlock (first last pass : Nat) : List Byte :=
  le 2 1 ++ le 1 1 ++ le 1 2 ++ le 4 2 ++ le 4 first ++ le 4 last ++ le 8 0 ++ le 1 pass ++ le 1 0 ++ le 2 17 ++ le 2 5 ++ le 2 0 ++
  le 8 20500000000 ++ zeros 24

/-- Whether a participant's request can work, and the extent that it holds. -/
def forwardOk (t : State) (d : Cmd) (ctx : CmdCtx) (f : Forward) (exact cairn : Bool) (l : Layout) : Bool :=
  match t.checkGraze (d.payload.drop 64) 1 l 0 exact cairn (some f.modTag) with
  | .ok g => with6 t fun x => x.holdsExtent l 0 f.first f.last && canWork t x (t.newForward f d ctx x l g exact cairn) l
  | .error _ => false

theorem test_hyp_forward : ([(0x0301, false, false, 0), (0x0302, true, false, 1), (0x0304, false, true, 2)] : List (Nat × Bool × Bool × Nat)).all (fun q =>
    let l := if q.2.2.1 then cairnLay else lay
    let s := tiled (withConv { cv with home := 1 })
    let s := { s with attn := { s.attn with layouts := [(1, l)] } }
    let c := fun n => node { hdr q.1 6 with flags := 2 } (forwardBlock n (n + 1) q.2.2.2 ++ block (if q.2.2.1 then 4 else 0))
    accepted s (forwardCode (c 0).hdr) (c 0) (fun d ctx t => d.hdr.forward && fieldAt d.payload 24 1 != 3 && d.hdr.param0 == 0 && d.hdr.param1 == 0 &&
      (d.hdr.opcode == 0x0302) == q.2.1 && (d.hdr.opcode == 0x0304) == q.2.2.1 &&
      (match parseForward d.payload with
        | some f => f.pass == (firstPass q.2.1 q.2.2.1).code && forwardOk t d ctx f q.2.1 q.2.2.1 l
        | none => false) && with6 t fun x => t.guard x (fun st => st != .lost) == none && t.layout x.layout == some l) &&
    accepted s (forwardCode (c 1).hdr) (c 1) (fun d _ t => match parseForward d.payload with
      | some f => f.pass == (firstPass q.2.1 q.2.2.1).code && with6 t fun x => !x.holdsExtent l 0 f.first f.last
      | none => false)) = true := by decide +kernel

/-- A request of conversation 6 in its summing pass: one row of two elements, whose own part is complete. -/
def req0 : Req :=
  { pool := 2, cmd := { ctx0 with recorded := false }, exact := false, cairn := false, cid := 6, layer := 0, layout := 1, snapshot := 2
    graze := { parseGraze (block) with anchors := [0], query := [0x80, 0x3F, 0x80, 0x3F] }, modTag := 0, modifier := {}, anchors := [0]
    pass := .sum, rows := [[0x80, 0x3F, 0x80, 0x3F]], rowFormat := 0, rowLen := 2, partials := [{ n := [1, 2], l := 3, count := 2 }]
    maxima := [0x3F800000], deadline := 2 ^ 60, pageEnd := 2 ^ 32 }

/-- The same request at a participant: number 1 of 2, home at node 1. -/
def fwd0 : Req := { req0 with isForward := true, home := 1, participant := 1, participants := 2, landing := 17 }

/-- The node with one request. -/
def withReq (r : Req) (s : State := tiled (withConv cv)) : State :=
  { s with attn := { s.attn with reqs := [(1, r)], nextCtx := 2, triggersUsed := 3 } }

/-- What HOME_PARTIAL_COMPLETE takes: at the home, and at a participant in a summing and in a score-only pass. -/
theorem test_hyp_partial : ([req0, { req0 with mask := 1 }, { req0 with graze := { req0.graze with mode := 2 } }, fwd0, { fwd0 with pass := .scoreOnly }] : List Req).all (fun r =>
    (withReq r).req 1 == some r && (withReq r).layout r.layout == some lay && r.outstanding == 0 && r.stalls == [] && r.rows != [] && !r.ownDone &&
    !r.ownSent && !r.waitsContinue && decide (r.graze.mode ≤ 2) && (!r.isForward || (withReq r).rts ((withReq r).nodeQp r.home))) = true ∧
    bit req0.mask 0 = false ∧ bit ({ req0 with mask := 1 } : Req).mask 0 = true ∧ req0.countExceeds req0.partials = false ∧
    ({ req0 with combined := [{ n := [0, 0], l := 0, count := 2 ^ 24 }] } : Req).countExceeds req0.partials = true := by decide +kernel

/-- The home of two participants. -/
def home2 (placed : Bool) : Req :=
  { req0 with parts := [{ node := 0, first := 0, last := 1 }, { node := 1, first := 0, last := 1, placed := placed }], participants := 2, trigger := some { threshold := 2 } }

/-- How a record is judged: taken 0, again 1, mismatch 2, malformed 3, a bad block 4. -/
def judged (r : Req) (b : List Byte) : Nat := match r.judge lay 1 b with
  | .take m _ => if m = 2 then 0 else 5
  | .again => 1
  | .mismatch => 2
  | .malformed => 3
  | .badBlock => 4

/-- A record of the participant arrives, for the first time and again, of another pass and malformed; in a score-only pass; and a bad block. -/
theorem test_hyp_landing : ([false, true] : List Bool).all (fun p =>
    let s := withReq (home2 p)
    let b := s.ownRecord { fwd0 with participants := 2 } lay
    quiet s && s.takesCommands && s.rts 9 && (s.qp 9).kind == .node && psnClass (s.qp 9).rqPsn 0 == .expected && judged { home2 p with mask := if p then 2 else 0 } b == (if p then 1 else 0) &&
      judged (home2 p) ((withReq req0).maxRecord { fwd0 with participants := 2 } lay) == 2 && judged (home2 p) (b ++ [0]) == 3 && !recordCrcOk (b ++ [0]) &&
      (let h := [2] ++ (b.drop 1).take 59
       let c := h ++ le 4 (crc32c (h ++ b.drop 64)) ++ b.drop 64
       judged (home2 p) c == 3 && recordCrcOk c) &&
      s.landingOf (s.peerOf 9) 17 b == some (1, 1) && (home2 p).held == [] && !s.recordAhead 1 (landedNumber 1 b) &&
      ({ s with attn := { s.attn with reqs := [] } } : State).landingOf (s.peerOf 9) 17 b == none) = true ∧
    judged { home2 false with pass := .scoreOnly, exact := true } ((withReq req0).maxRecord { fwd0 with participants := 2 } lay) = 0 ∧
    judged { home2 false with pass := .cairnScore, cairn := true } [] = 4 ∧ crcSealed [] = false ∧
    (let b := zeros 16 ++ le 4 (crc32c (zeros 16))
     judged { home2 false with pass := .cairnScore, cairn := true } b = 4 ∧ crcSealed b = true) := by
  decide +kernel

/-- What a landing leaves: its events, the mask of request 1, and the count of bad records. -/
def landed : Host.Outcome State Fault Refusal → List (Nat × Nat) × Option Nat × Nat
  | .next u => (u.events.map fun e => (e.block, e.reason), (u.req 1).map (·.mask), u.counter Ctr.firnRecordFail)
  | _ => ([], none, 0)

/-- A record of participant 1. -/
def record1 : List Byte := (withReq (home2 false)).ownRecord { fwd0 with participants := 2 } lay

/-- A record that lands is placed and raises no event; with a bit of its body inverted it is counted, and reported in FIRN (R254, R261, R629). -/
theorem test_landing_crc :
    landed (execLandingRecordPlace ⟨9, 0⟩ 17 record1 (withReq (home2 false))) = ([], some 2, 0) ∧
    landed (execLandingRecordPlace ⟨9, 0⟩ 17 (flipAt record1 70) (withReq (home2 false))) = ([(Blk.firn, Reason.checkValueFail)], some 0, 1) := by
  decide +kernel

/-- The reply of participant 1, and CONTINUE with the anchor 5. -/
theorem test_hyp_participant : (home2 true).parts[1]? = some { node := 1, first := 0, last := 1, placed := true } ∧
    (withReq (home2 true)).failures 1 (home2 true) = [] ∧ (withReq (home2 true)).releaseWins 1 = false ∧ (home2 true).breachHigh = none ∧
    ({ withReq { home2 true with readyForResult := true } with pending := [.resultRecordDone 1] } : State).releaseWins 1 = true ∧
    (let r := { home2 true with parts := (home2 true).parts ++ [{ node := 2, first := 1, last := 2 }] }
     ({ withReq r with pending := [.participantReply 1 1 9 0 0] } : State).failures 1 r = [(1, 9, 0)] ∧ (1 < 2 ∧ r.parts[2]?.isSome = true)) ∧
    accepted (withReq { fwd0 with exact := true, pass := .scoreOnly, waitsContinue := true }) 0x0302
      (node { hdr 0x0302 6 with flags := 2 } (forwardBlock 0 1 3 ++ le 2 5 ++ zeros 14)) (fun d _ t =>
        d.hdr.forward && fieldAt d.payload 24 1 == 3 && (match parseForward d.payload with
          | some f => (t.attn.reqs.find? fun x => x.2.isForward && x.2.home == f.home && x.2.participant == f.participant &&
              x.2.cmd.requestId == d.hdr.requestId && x.2.waitsContinue).map (·.1) == some 1
          | none => false) && (t.req 1).isSome && t.layout 1 == some lay && !fwd0.cairn &&
        parseAnchors (fwd0.graze.rowCount lay) (d.payload.drop 64) == some [5]) = true := by decide +kernel

/-- A request in REGION mode whose record has been sent; one whose counter is full and one whose is not; and one with its result ready. -/
theorem test_hyp_request_end :
    (let r := { req0 with ownSent := true, graze := { req0.graze with mode := 3 } }; (withReq r).req 1 = some r) ∧
    ({ home2 true with ownDone := true } : Req).fired = true ∧ (home2 true).fired = false ∧ homeMode req0.graze.mode = true ∧
    homeMode 3 = false ∧ ({ req0 with ownDone := true, graze := { req0.graze with mode := 3 } } : Req).fired = true ∧ (home2 true).readyForResult = false ∧
    ((2 : BitVec 8) ≠ 0 ∧ (2 : BitVec 8).toNat < 16) ∧
    ({ req0 with readyForResult := true } : Req).readyForResult = true ∧ (withReq req0).now < req0.deadline ∧
    ({ req0 with deadline := 5 } : Req).deadline ≤ base.now ∧ ({ fwd0 with deadline := 5 } : Req).deadline ≤ base.clk.ptp := by decide +kernel

/-- A row group of the request with one descriptor of its first page. -/
def work0 : Work :=
  { ctx := 1, drift := false, pair := 0, group := { head := 0, lo := 0, hi := 0 }, arrival := 0, accepted := true
    descs := [{ pid := 0, tier := .hot, frame := 0, frameGen := 0, firstToken := 0, index := 0, layer := 0, head := 0, layout := 1, valid := 2
                isSealed := false, last := true, shared := false, ctx := 1, seq := 0, issued := 0 }] }

/-- The node whose tile 3 has a queue. -/
def withWork (q : List Work) (r : Req := req0) : State := (withReq r).modTile 3 fun t => { t with queue := q }

/-- A waiting row group with room for it, and without: six slots are taken. -/
theorem test_hyp_accept :
    let w := { work0 with accepted := false }
    let ok := fun (q : List Work) (i : Nat) => let s := withWork q; (s.tile 3).power == .run && s.pllOn 0 && firstWork (s.tile 3).queue (fun w => !w.accepted) == some i
    let room := fun (q : List Work) => let s := withWork q
      let held := ((s.tile 3).queue.filter (·.accepted)).map s.groupSize
      decide ((held.map (·.1)).sum + (s.groupSize w).1 ≤ 6 ∧ (held.map (·.2)).sum + (s.groupSize w).2 ≤ 1179648)
    ok [w] 0 = true ∧ room [w] = true ∧ ok (List.replicate 5 work0 ++ [w]) 5 = true ∧ room (List.replicate 5 work0 ++ [w]) = true ∧
    ok (List.replicate 6 work0 ++ [w]) 6 = true ∧ room (List.replicate 6 work0 ++ [w]) = false := by decide +kernel

/-- What TILE_DESCRIPTOR takes, with the descriptors left and whether a weight reaches 2^8. -/
def works (w : Work) (r : Req) (left : Nat) (breach : Bool) : Bool :=
  let s := withWork [w] r
  (s.tile 3).power == .run && s.pllOn 0 && quiet s &&
  ((s.tile 3).queue.findIdx? fun w => w.accepted && w.done > 0).or (firstWork (s.tile 3).queue fun w => w.accepted && !w.left.isEmpty) == some 0 && (s.job w).any (fun j => !j.scoreOnly) &&
  match w.left, s.job w with
  | d :: rest, some j => rest.length == left && match (s.noteLate d).readDescriptor j.env.layout d (!j.scoreOnly) with
    | (some ps, _) => (j.work w.group ps).breach == breach && addRows w.sums (j.work w.group ps).sums != []
    | _ => false
  | _, _ => false

theorem test_hyp_descriptor : works work0 req0 0 false = true ∧ works { work0 with descs := work0.descs ++ work0.descs } req0 1 false = true ∧
    works work0 { req0 with anchors := [-9] } 0 true = true ∧ works work0 { req0 with anchors := [-8] } 0 true = true ∧
    works work0 { req0 with anchors := [-7] } 0 false = true := by decide +kernel

/-- Idle tiles, a waking tile, an ACTIVE tile with a spare behind it, a substitution, and a spare whose test is due. -/
theorem test_hyp_tiles :
    let s := tiled
    (s.failsAhead 3 = [] ∧ (∀ d ∈ s.drifts, d.state ≠ .ready ∧ d.state ≠ .running) ∧ (s.tile 64).wakeDue.getD 0 ≤ s.now ∧
      s.now < ((s.modTile 64 fun t => { t with wakeDue := some (2 ^ 60) }).tile 64).wakeDue.getD 0) ∧
    ((s.tile 3).role = .active ∧ (s.tile 3).queue = [] ∧ (s.tile 3).power = .run ∧ (s.tile 3).idleSince + s.regs.stopAfterNs ≤ s.now ∧
      s.regs.gateAfterUs ≠ 0 ∧ (s.tile 3).idleSince + 1000 * s.regs.gateAfterUs ≤ s.now ∧ (s.logical 3).abandoned = [] ∧ s.freeSpares ≠ [] ∧
      (∀ l ∈ s.attn.logicals, l.substitute ≠ some 3)) ∧
    ((s.modTile 3 fun t => { t with wakeDue := some 5 }).tile 3).wakeDue = some 5 ∧
    (((s.modTile 3 fun t => { t with wakeDue := some (2 ^ 60) }).tile 3).wakeDue = some (2 ^ 60) ∧ s.now < 2 ^ 60) ∧
    ((List.range 64).all fun n => (s.tile n).logical == some n && (s.logical n).phys == n) = true ∧ (s.tile 64).role = .spare ∧
    ((s.modLogical 3 fun l => { l with substitute := some 64, valid := false }).logical 3).substitute = some 64 ∧
    (s.tile 64).lastTest + 10000000000 ≤ s.now ∧ ({ s with attn := State.reset.attn } : State).attn.tiles.length = 72 := by decide +kernel

/-! ## States that meet the hypotheses: drift passes -/

/-- The arm block of this node's member 0 of ring 3: two members of one token each, windows of 100 µs, T0 in 1 ms. -/
def armBlock : List Byte :=
  let p := fun (dg : Nat) => [1, 0, 2, 0, 1, 0, 0, 1] ++ le 4 0x3F800000 ++ zeros 4 ++ le 8 20001000000 ++ le 8 dg ++ le 8 3 ++ le 4 0 ++ le 4 1 ++
    le 8 3 ++ le 4 4096 ++ le 4 1000 ++ zeros 8 ++ le 8 256 ++ le 4 3 ++ le 4 (2 ^ 20) ++ zeros 40 ++
    le 4 100000 ++ le 4 100000 ++ le 4 0 ++ le 4 1 ++ zeros 8 ++ le 4 1 ++ le 4 1 ++ zeros 8
  p (armDigest 3 0 (p 0)).toNat

/-- A region of one hot frame. -/
def reg0 : Region := { window := false, tier := .hot, length := 65536, frames := [100], owner := 5 }

/-- The node whose region 3 holds the staging. -/
def staging : State :=
  { tiled with regions := { State.reset.regions with regions := [(3, reg0)] }
               tiers := { State.reset.tiers with hot := [(100, .region 3)] } }

/-- The pass of that arm block, as it is armed. -/
def pass0 : Drift :=
  { parseArm (hdr 0x0303 3) armBlock with
    state := .armed, cmd := some { ctx0 with recorded := false }, frames := [200, 201, 202, 203, 204], block := [200]
    landingFrames := [[201], [202]], rowLen := 2 }

/-- Its rows, staged. -/
def staged (d : Drift) : Drift := { d with rows := [[0, 0, 0, 0]], qpos := [0], qseg := [0], anchors := [0], sums := [Partial.zero 2] }

/-- The node with the pass in slot 2. -/
def withPass (d : Drift) (s : State := staging) : State := { s with drifts := setAt s.drifts 2 d }

theorem test_hyp_arm : accepted staging 0x0303 (host (hdr 0x0303 3) armBlock) (fun d _ t =>
      let a := parseArm d.hdr d.payload
      let need := a.frameNeeds lay lay.keyLen
      !bit (fieldAt d.payload 1 1) 0 && t.armRefusal d a == none && t.layout a.layout == some lay && t.armBusy a == none &&
      decide (need.1 + 2 * need.2.1 + need.2.2 ≤ t.allocatable .hot) && decide (t.attn.triggersUsed + (a.members - 1) ≤ Config.triggers) &&
      t.aborts == [] && t.readies == [] && decide (t.regions.keys.length < 65536)) = true ∧
    accepted (withPass pass0) 0x0303 (host (hdr 0x0303 3) ([1, 1] ++ zeros 14 ++ le 8 20001000000)) (fun d _ t =>
      decide (24 ≤ d.payload.length) && bit (fieldAt d.payload 1 1) 0 && ((List.range 16).find? fun i =>
        let x := t.drift i
        t.abortable x && x.ring == d.hdr.targetId.toNat && x.takeover == fieldAt d.payload 16 8) == some 2) = true ∧
    ((withPass pass0).drift 2).cmd = some { ctx0 with recorded := false } ∧ (withPass pass0).lowerAbort 2 0 = false ∧
    ({ withPass { pass0 with member := 1 } with pending := [.driftAbortRecv ⟨9, 0⟩ { ring := 3, origin := 0, reason := 5, takeover := 20001000000, step := 0 : Abort }.bytes] } :
      State).lowerAbort 2 1 = true := by decide +kernel

/-- The staging of the block and of the query, before and after the other part is complete. -/
theorem test_hyp_prepare : ([pass0, staged pass0] : List Drift).all (fun d => let s := withPass d
      d.state == .armed && s.layout d.layout == some lay && !d.frozen && !d.sentReady &&
      match s.readForPass 2 d.blockRegion d.blockOffset (d.stagingLen lay) with
        | (some b, s1) => b.length == 10 && s1.drifts == s.drifts && d.block.all (clean s1 .hot)
        | _ => false) = true ∧
    ([pass0, { pass0 with frozen := true }] : List Drift).all (fun d => let s := withPass d
      d.rows == [] && match s.readForPass 2 d.queryRegion d.queryOffset (queryLen d lay (s.rowElements d.asGraze lay)) with
        | (some b, s1) => s1.drifts == s.drifts && (s1.thawAbsorb d.asGraze lay d.layer).1 == [] && d.asGraze.absorb == 0 &&
          (match s1.stageQuery d lay b with
          | some y => y.rows != []
          | none => false)
        | _ => false) = true := by decide +kernel

/-- Member 1's READY, with its own digest and another, for this member and for a successor that is not the predecessor's node. -/
def readyBytes (digest : Nat) : List Byte := le 2 3 ++ le 1 1 ++ zeros 5 ++ le 8 20001000000 ++ le 8 digest ++ le 8 4096 ++ le 8 65536 ++ le 4 7 ++ zeros 20

/-- A message that a NODE QP gives whole, and the pass it belongs to. -/
def received (s : State) (b : List Byte) : Bool := match s.receiveRaw 9 0 b with
  | (some x, s1) => x == b && s1.passOf (fieldAt b 0 2) == some 2 && s1.fromMember (s1.drift 2) (fieldAt b 2 1) 9 && s1.abortable (s1.drift 2)
  | _ => false

theorem test_hyp_messages : ([pass0.digest.toNat, 5] : List Nat).all (fun n => let b := readyBytes n
      received (withPass pass0) b && b.length == 64 && zeroAt b 3 5 && zeroAt b 44 20 && pass0.takeover == fieldAt b 8 8) = true ∧
    (let b := readyBytes 5; (staging.receiveRaw 9 0 b).1 = some b ∧ (staging.receiveRaw 9 0 b).2.passOf (fieldAt b 0 2) = none) ∧ pass0.pred = 1 ∧ pass0.succ = 1 ∧ BitVec.ofNat 64 5 ≠ pass0.digest ∧
    (let b := le 2 3 ++ le 1 1 ++ zeros 13; received (withPass pass0) b && b.length == 16 && zeroAt b 3 13) = true ∧
    (let a : Abort := { ring := 3, origin := 1, reason := 5, takeover := 20001000000, step := 0 }
     Abort.parse a.bytes = some a ∧ received (withPass pass0) a.bytes = true ∧ (withPass pass0).aborts = [] ∧
     ((withPass pass0).drifts.findIdx? fun d => d.state != .idle && d.ring == a.ring && d.takeover == a.takeover) = some 2 ∧
     (staging.drifts.findIdx? fun d => d.state != .idle && d.ring == a.ring && d.takeover == a.takeover) = none ∧
     (a.ring, a.takeover) ∉ staging.released ∧ (a.ring, a.takeover) ∈ ({ staging with released := [(3, 20001000000)] } : State).released ∧
     (withPass pass0).lowerAbort 2 a.origin = false ∧
     ({ withPass pass0 with pending := [.driftAbortRecv ⟨9, 0⟩ { a with origin := 0 }.bytes] } : State).lowerAbort 2 a.origin = true) ∧
    pass0.takeover ≠ 20001000020 ∧
    base.clk.ptp ≤ pass0.release ∧ pass0.release < 20001260001 := by decide +kernel

/-- The same pass with T0 in the past: at its READY deadline, with a BEAT due, and with a predecessor that is silent. -/
def past (d : Drift) : Drift := { d with takeover := 19999900000 }

theorem test_hyp_supervision : ([.armed, .ready] : List DriftState).all (fun st => let d := { past pass0 with state := st }
      (d.state == .armed || d.state == .ready) && decide (d.takeover ≤ base.clk.ptp + 20000)) = true ∧
    pass0.beatSent + 8000 ≤ base.now ∧ base.clk.ptp < (past pass0).release ∧ pass0.beatPred + 24000 ≤ base.now := by decide +kernel

/-- A pass at T0, one at the start of step 1, one at each of its windows' closes, and one at its release. -/
theorem test_hyp_steps_of_pass :
    let run := { past (staged pass0) with state := .running, frozen := true, readySucc := true, accumulated := 1, sent := [0], verified := [0] }
    (past pass0).takeover ≤ base.clk.ptp ∧ run.step + 1 < run.members ∧ run.start (run.step + 1) ≤ base.clk.ptp ∧ run.late = none ∧
    ({ run with accumulated := 0 } : Drift).late = some Reason.driftComputeLate ∧ ({ run with sent := [] } : Drift).late = some Reason.driftSendLate ∧
    ({ run with verified := [] } : Drift).late = some Reason.driftBlockLate ∧ ({ run with step := 1, accumulated := 2 } : Drift).late = none ∧
    run.start 1 ≤ base.clk.ptp + 500 ∧ ({ run with takeover := 19999700000, step := 1 } : Drift).start 2 ≤ base.clk.ptp + 500 ∧
    ({ run with takeover := 19999700000 } : Drift).release ≤ base.clk.ptp ∧ (withPass run).driftQp run = some 0 ∧ base.rts 0 = true ∧
    ({ run with takeover := 18000000000 } : Drift).release + 1000 * pass0.windowUs ≤ base.clk.ptp := by decide +kernel

/-- The result's writes acknowledged in part and in full. -/
theorem test_hyp_result_acks : ([(1, 2), (1, 1), (2, 1)] : List (Nat × Nat)).map (fun x =>
    let s := { withPass { pass0 with state := .writing, resultsLeft := x.2 } with net := { base.net with acked := List.replicate x.1 (.driftResult 2) } }
    decide ((s.net.acked.filter (· == .driftResult 2)).length < (s.drift 2).resultsLeft)) = [true, false, false] := by decide +kernel

/-- A block of the predecessor: the one expected, with a good SEAL and a bad one, and another; and an immediate of no pass. -/
theorem test_hyp_block_land :
    let d := { pass0 with state := .running }
    let s := withPass d
    let imm : W32 := BitVec.ofNat 32 (3 * 65536 + 0 * 1024 + 1 * 16)
    s.passOf (imm.toNat / 65536) = some 2 ∧ s.fromMember d d.pred 9 = true ∧ bits imm.toNat 15 10 = d.verified.length ∧
    bits imm.toNat 15 10 + 2 ≤ d.members ∧ bits imm.toNat 9 4 = (d.member + 2 * d.members - 1 - 0) % d.members ∧ bits imm.toNat 3 0 = 0 ∧
    (([[], []] : List (List Nat)).getD 0 []).take (d.blockPages lay 1) = [] ∧ quiet s = true ∧ s.passOf 4 = none ∧ s.abortable d = true ∧
    ((d.landingFrames.getD 0 []).all (clean s .hot) && !s.abortable { d with takeover := 5 }) = true ∧
    bits (imm + 16).toNat 9 4 ≠ (d.member + 2 * d.members - 1 - 0) % d.members := by decide +kernel

theorem fill_nothing (a n : Nat) : Memory.fill a n [] = List.replicate n 0 := by
  induction n generalizing a with
  | zero => rfl
  | succ n ih => simp [Memory.fill, ih, List.replicate_succ, Memory.background]

theorem fill_one (a k j : Nat) (b : Byte) : Memory.fill a (k + (j + 1)) [(a + k, b)] = List.replicate k 0 ++ b :: List.replicate j 0 := by
  induction k generalizing a with
  | zero => simp [Memory.fill, fill_nothing]
  | succ k ih =>
    have h := ih (a + 1)
    rw [show a + 1 + k = a + (k + 1) by omega] at h
    rw [show k + 1 + (j + 1) = k + (j + 1) + 1 by omega]
    rw [Memory.fill, if_neg (by omega), h]; rfl

/-- Some memory holds a frame whose SEAL does not verify: two frames that differ in the SEAL alone cannot both. -/
theorem test_hyp_bad_seal (f : Nat) : ∃ m : List Host.Cell, sealOk (Memory.read m (frameAddr .hot f) 65536) = false := by
  by_cases h : sealOk (Memory.read [] (frameAddr .hot f) 65536) = false
  · exact ⟨_, h⟩
  · refine ⟨[(frameAddr .hot f + 65528, 1)], ?_⟩
    have h0 : Memory.read [] (frameAddr .hot f) 65536 = List.replicate 65528 0 ++ (0 : Byte) :: List.replicate 7 0 := by
      simp only [Memory.read, List.filter_nil, fill_nothing]
      rw [show (65536 : Nat) = 65528 + 8 from rfl, ← List.replicate_append_replicate]; rfl
    have h1 : Memory.read [(frameAddr .hot f + 65528, 1)] (frameAddr .hot f) 65536 = List.replicate 65528 0 ++ (1 : Byte) :: List.replicate 7 0 := by
      rw [← fill_one (frameAddr .hot f) 65528 7 1]; simp [Memory.read]
    rw [h0] at h; rw [h1]
    have e : ∀ b : Byte, (List.replicate 65528 (0 : Byte) ++ b :: List.replicate 7 0).take 65528 = List.replicate 65528 0 := fun b => by
      rw [List.take_append_of_le_length (Nat.le_of_eq List.length_replicate.symm)]; exact List.take_of_length_le (Nat.le_of_eq List.length_replicate)
    have g : ∀ b : Byte, fieldAt (List.replicate 65528 (0 : Byte) ++ b :: List.replicate 7 0) 65528 8 = b.toNat := fun b => by
      unfold fieldAt slice
      rw [List.drop_append_of_le_length (Nat.le_of_eq List.length_replicate.symm), List.drop_of_length_le (Nat.le_of_eq List.length_replicate)]
      simp [leNat]
    simp only [sealOk, Bool.and_eq_false_iff, beq_eq_false_iff_ne] at h ⊢
    refine .inr fun h' => h (.inr fun h0 => ?_)
    rw [e, g] at h0 h'; rw [← h0] at h'; simp at h'

/-! ## States that meet the hypotheses: results, tables, regions -/

/-- The node with one record. -/
def withRecord (r : Record) : State := { base with net := { base.net with records := [{ r with requestId := 41 }] } }

theorem test_hyp_fetch :
    let c := host (hdr 0x0305 0 41) item
    accepted base 0x0305 c (fun d ctx t => d.payload.length == 16 && !t.resultAhead d ctx && itemFits ctx.src (resultItemAt d.payload 0) 0 &&
      (t.record ctx.subscriber d.hdr.param0).isNone) = true ∧
    accepted (withRecord (rec0 .inProgress none)) 0x0305 c (fun d ctx t =>
      (t.record ctx.subscriber d.hdr.param0).map (·.state) == some RecordState.inProgress) = true ∧
    ([(64, true), (65, false)] : List (Nat × Bool)).all (fun x => accepted (withRecord { rec0 .ended (some rep0) with kept := zeros x.1 }) 0x0305 c (fun d ctx t =>
      match t.record ctx.subscriber d.hdr.param0 with
      | some rc => rc.state == .ended && rc.reply == some rep0 && rc.kept != [] && itemFits ctx.src (resultItemAt d.payload 0) rc.kept.length == x.2
      | none => false)) = true := by decide +kernel

theorem test_hyp_release_record :
    ([.inProgress, .ended] : List RecordState).all (fun st => accepted (withRecord (rec0 st none)) 0x0306 (host (hdr 0x0306 0 41)) (fun d ctx t =>
      d.payload == [] && !t.resultAhead d ctx && (t.record ctx.subscriber d.hdr.param0).map (·.state) == some st)) = true ∧
    (withRecord { rec0 .ended none with keepUntil := 20000000000 }).record 5 41 = some { rec0 .ended none with keepUntil := 20000000000, requestId := 41 } ∧
    20000000000 ≤ base.now ∧ base.now < 20000000001 := by decide +kernel

/-- A layout of 64 pages' rows that does not fit a frame, one in use, and one in slot 63. -/
theorem test_hyp_layout :
    let big := { lay with tpp := 3, headDim := 256 }
    accepted base 0x0307 (host (hdr 0x0307 63) big.encode) (fun d _ _ => Layout.recordOk d.payload && decide (Config.dataBytes < (Layout.decode d.payload).pageBytes)) = true ∧
    accepted (withConv cv) 0x0307 (host (hdr 0x0307 1) lay.encode) (fun d _ t => Layout.recordOk d.payload && t.layoutInUse d.hdr.targetId.toNat &&
      decide ((Layout.decode d.payload).pageBytes ≤ Config.dataBytes)) = true ∧
    accepted base 0x0307 (host (hdr 0x0307 63) lay.encode) (fun d _ t => Layout.recordOk d.payload && !t.layoutInUse d.hdr.targetId.toNat &&
      decide ((Layout.decode d.payload).pageBytes ≤ Config.dataBytes)) = true := by decide +kernel

/-- The empty modifier program into slots 0 and 63, and into a slot that a request uses. -/
theorem test_hyp_modifier : ([0, 63] : List Nat).all (fun n => accepted base 0x0308 (host (hdr 0x0308 n) (zeros 144)) fun d _ t =>
      Modifier.recordOk d.payload && d.hdr.targetId.toNat == n && !t.modifierInUse 63) = true ∧
    accepted (withReq { req0 with graze := { req0.graze with modSlot := 63 } }) 0x0308 (host (hdr 0x0308 63) (zeros 144)) (fun d _ t =>
      Modifier.recordOk d.payload && t.modifierInUse d.hdr.targetId.toNat) = true := by decide +kernel

/-- A block of REGION_CREATE: a hot region of one frame. -/
def createBlock : List Byte := zeros 8 ++ le 8 65536 ++ zeros 16

theorem test_hyp_create :
    accepted base 0x0401 (host (hdr 0x0401 (2 ^ 63)) createBlock) (fun d ctx t => arbiterFree t d ctx.src && !regionIdOk d.hdr.targetId) = true ∧
    accepted staging 0x0401 (host (hdr 0x0401 3) createBlock) (fun d _ t => regionIdOk d.hdr.targetId && createOk d.payload && (t.region d.hdr.targetId).isSome) = true ∧
    accepted base 0x0401 (host (hdr 0x0401 (2 ^ 63 - 1)) createBlock) (fun d ctx t => arbiterFree t d ctx.src && regionIdOk d.hdr.targetId && createOk d.payload &&
      (t.region d.hdr.targetId).isNone && t.regions.regions == [] && decide (t.regs.warmAdmitMark ≤ t.avail .warm) &&
      decide (ceilDiv (fieldAt d.payload 8 8) 65536 ≤ t.allocatable .hot)) = true := by decide +kernel

/-- A key of region 3 with index 7 in generation 2. -/
def keyed : State :=
  { staging with regions := { staging.regions with keys := [(7, { region := 3, write := true, read := true })], keyGens := [(7, 2)] } }

theorem test_hyp_register_revoke :
    accepted keyed 0x0402 (host (hdr 0x0402 3 3)) (fun d ctx t => d.payload == [] && arbiterFree t d ctx.src && (match t.registerable d.hdr.targetId (bit d.hdr.p0 0) with
      | .ok b => b == 0
      | .error _ => false) && decide (t.regions.keys.length < 65536)) = true ∧
    ([7 * 256 + 2, 7 * 256 + 1] : List Nat).all (fun p => accepted keyed 0x0403 (host (hdr 0x0403 3 p)) (fun d ctx t => d.payload == [] && arbiterFree t d ctx.src &&
      t.revokeRefusal d.hdr.targetId == none && Table.get t.regions.keys (d.hdr.p0 / 256) == some { region := 3, write := true, read := true } &&
      (t.keyOf (d.hdr.p0 / 256) == d.hdr.p0) == (p == 7 * 256 + 2))) = true ∧
    accepted base 0x0403 (host (hdr 0x0403 3 5)) (fun d ctx t => d.payload == [] && arbiterFree t d ctx.src && (t.revokeRefusal d.hdr.targetId).isSome) = true ∧
    ((keyed.region 3).map (·.state) = some .live ∧ base.region 3 = none ∧ base.version 3 = none) ∧
    (let v : Revoke := { sequence := 1, ctx := some ctx0, region := 3, number := 7 * 256 + 2, waits := [] }
     let s := { keyed with regions := { keyed.regions with revokes := [(1, v)] } }
     Table.get s.regions.revokes 1 = some v ∧ (s.region 3).map (·.state) = some .live ∧ ctx0.deadline ≤ s.now ∧
       s.now < ({ ctx0 with deadline := 2 ^ 60 } : CmdCtx).deadline) := by decide +kernel

/-- A publication of 64 bytes of region 3 under NAME 8, and one that is refused. -/
def publishBlock : List Byte := le 8 3 ++ le 8 0 ++ le 8 64 ++ zeros 8

/-- A publication of that content in progress. -/
def pub0 : Publication := { ctx := { ctx0 with recorded := false }, name := 8, content := 0, wrapped := false, bytes := zeros 8, frames := [300] }

/-- A version of it. -/
def ver0 : Version := { digest := sha (zeros 8), content := 0, length := 8, frames := [], state := .published }

/-- The node with a publication, and a version 9 that its NAME holds. -/
def publishing (p : Publication) (vs : Table Version) : State :=
  { staging with regions := { staging.regions with pubs := [(1, p)], versions := vs, names := if vs = [] then [] else [(8, 9)] } }

theorem test_hyp_publish :
    accepted staging 0x0404 (lane (hdr 0x0404 8) publishBlock) (fun d ctx t => arbiterFree t d ctx.src && (t.publishRefusal d).isNone &&
      (match t.region (BitVec.ofNat 64 (fieldAt d.payload 0 8)) with
        | some r => t.checkRegion (BitVec.ofNat 64 (fieldAt d.payload 0 8)) r (fieldAt d.payload 8 8) (fieldAt d.payload 16 8) == (true, t)
        | none => false)) = true ∧
    accepted staging 0x0404 (host (hdr 0x0404 (2 ^ 63)) publishBlock) (fun d ctx t => arbiterFree t d ctx.src && (t.publishRefusal d).isSome) = true ∧
    (∀ vs ∈ ([[], [(9, ver0)], [(9, { ver0 with digest := [] })]] : List (Table Version)), (publishing pub0 vs).regions.pubs.filter (fun e => e.2.name == pub0.name) = [(1, pub0)]) ∧
    (Table.get (publishing pub0 [(9, ver0)]).regions.names 8 = some 9 ∧ Table.get (publishing pub0 [(9, ver0)]).regions.versions 9 = some ver0 ∧
      ver0.digest = sha pub0.bytes ∧ ver0.state ≠ .poisoned) := by decide +kernel

theorem test_hyp_publish_other : ({ ver0 with digest := [] } : Version).digest ≠ sha pub0.bytes ∧ (publishing pub0 []).version (handleOf (sha pub0.bytes)) = none ∧
    ((publishing pub0 []).regions.versions.length < 4096 ∧ (publishing pub0 []).regions.names.length < 4096 ∧ ({ ver0 with state := .loading } : Version).state ≠ .poisoned) ∧
    (publishing { pub0 with handle := some 9 } [(9, { ver0 with state := .loading, unackedTwin := 1 })]).version 9 = some { ver0 with state := .loading, unackedTwin := 1 } ∧
    pub0.ctx.deadline ≤ base.now ∧ base.now < 2 ^ 60 := by decide +kernel

/-- Attachments of a subscriber, of a conversation, and of a prefix of 16 tokens. -/
def attached (v : Version) (x : Conv) : State :=
  let s := withConv x
  { s with regions := { State.reset.regions with versions := [(2 ^ 63 + 9, v)], regions := [(3, reg0)] } }

/-- An empty conversation, and a version with the pages of a prefix. -/
def empty6 : Conv := { cv with committed := [0, 0] }
def prefix0 : Version := { ver0 with content := 2, layout := 1, tokens := 16, chunk := 16, cam := some 0, modelId := 4, tokenIds := zeros 64 }

theorem test_hyp_attach :
    accepted (attached ver0 cv) 0x0405 (host (hdr 0x0405 (2 ^ 63 + 9))) (fun d ctx t => d.payload == [] && arbiterFree t d ctx.src && (t.version d.hdr.targetId).map (·.state) == some .published &&
      d.hdr.p0 == 0) = true ∧
    accepted (attached ver0 cv) 0x0405 (host (hdr 0x0405 (2 ^ 63 + 9) 6)) (fun d ctx t => arbiterFree t d ctx.src && (t.version d.hdr.targetId).map (·.content) == some 0 && gate6 t openOrSealed &&
      with6 t fun x => t.layout x.layout == some lay && x.attached == []) = true ∧
    accepted (attached prefix0 empty6) 0x0405 (host (hdr 0x0405 (2 ^ 63 + 9) 6)) (fun d ctx t => arbiterFree t d ctx.src && (t.version d.hdr.targetId) == some prefix0 && gate6 t openOrSealed &&
      with6 t fun x => t.layout x.layout == some lay && x.attached == [] && x.state == .opened && x.committed == [0, 0] && x.passed == [] &&
        x.prefixHandle.isNone && x.layout == prefix0.layout && prefix0.tokens % lay.tokens == 0) = true := by decide +kernel

theorem test_hyp_detach :
    let v := { ver0 with subscribers := [(5, 7)], conversations := [6] }
    accepted (attached v cv) 0x0406 (host (hdr 0x0406 (2 ^ 63 + 9))) (fun d ctx t => d.payload == [] && arbiterFree t d ctx.src && (t.region d.hdr.targetId).isNone &&
      t.version d.hdr.targetId == some v && (Table.get v.subscribers ctx.subscriber).isSome) = true ∧
    accepted (attached v { cv with attached := [2 ^ 63 + 9] }) 0x0406 (host (hdr 0x0406 (2 ^ 63 + 9) 6)) (fun d _ t => gate6 t openOrSealed &&
      with6 t fun x => x.attached.contains d.hdr.targetId && x.prefixHandle.isNone) = true ∧
    accepted (attached v cv) 0x0406 (host (hdr 0x0406 3)) (fun d ctx t => (t.region d.hdr.targetId).map (fun r => (r.owner == ctx.subscriber, r.state)) ==
      some (true, .live) && t.regions.keys == [] && t.regions.revokes == []) = true ∧
    accepted { attached v cv with regions := { State.reset.regions with regions := [(3, { reg0 with owner := 8 })] } } 0x0406 (host (hdr 0x0406 3)) (fun d ctx t =>
      (t.region d.hdr.targetId).map (fun r => r.owner == ctx.subscriber) == some false) = true ∧
    (Table.get (attached v cv).regions.versions (2 ^ 63 + 9) = some v ∧ Table.get v.subscribers 5 = some 7 ∧ 7 ≤ base.now ∧ base.now < 2 ^ 60 ∧
      (attached v cv).renewalAhead (2 ^ 63 + 9) = false ∧
      ({ attached v cv with pending := [.regionAttach (host (hdr 0x0405 (2 ^ 63 + 9)))] } : State).renewalAhead (2 ^ 63 + 9) = true) := by decide +kernel

/-- PREFIX_LOOKUP of one chunk of 16 tokens, with and without a version of them. -/
theorem test_hyp_lookup : accepted (attached prefix0 empty6) 0x040B (host (hdr 0x040B 4) (le 2 16 ++ le 2 1 ++ zeros 68)) (fun d _ t => quiet t &&
      d.payload.length == 8 + 4 * 1 * 16 && zeroAt d.payload 4 4 && fieldAt d.payload 0 2 == 16 && fieldAt d.payload 2 2 == 1) = true ∧
    accepted base 0x040B (host (hdr 0x040B 4) (le 2 16 ++ le 2 1 ++ zeros 68)) (fun _ _ t => t.regions.versions == []) = true := by decide +kernel

/-! ## States that meet the hypotheses: near-memory work, tiers -/

/-- A fill, a copy and a compare of 64 bytes of region 3, with a range past its end, and a FIRN record of one row. -/
def firn0 : List Byte := (withReq req0).ownRecord { req0 with partials := [{ n := [1, 2], l := 3, count := 2 }] } lay

theorem test_hyp_near :
    accepted staging 0x0407 (host (hdr 0x0407 3 0 64) (zeros 8)) (fun d ctx t => quiet t && arbiterFree t d ctx.src && d.payload.length == 8 && t.targetRefusal d.hdr.targetId == none &&
      t.rangeOk d.hdr.targetId d.hdr.p0 d.hdr.p1) = true ∧
    accepted staging 0x0407 (host (hdr 0x0407 3 64 65536) (zeros 8)) (fun d _ t => !t.rangeOk d.hdr.targetId d.hdr.p0 d.hdr.p1) = true ∧
    ([0x0408, 0x0409] : List Nat).all (fun op => accepted staging op (host (hdr op 3 0 64) (le 8 3 ++ le 8 65472)) (fun d ctx t => quiet t && arbiterFree t d ctx.src && d.payload.length == 16 &&
      (t.targetRefusal d.hdr.targetId == none && t.sourceRefusal d.hdr.targetId == none && t.sourceRefusal (nearSource d).1 == none) &&
      t.rangeOk d.hdr.targetId d.hdr.p0 d.hdr.p1 && t.rangeOk (nearSource d).1 (nearSource d).2 d.hdr.p1)) = true ∧
    accepted staging 0x040A (host (hdr 0x040A 3 0) firn0) (fun d ctx t => quiet t && arbiterFree t d ctx.src && t.reduceRefusal d.hdr.targetId d.hdr.p0 d.payload == none) = true := by
  decide +kernel

/-- A near-memory command of region 3. -/
def near0 (k : NearKind) (n : Nat) : Near := { ctx := { ctx0 with deadline := 2 ^ 60, recorded := false }, kind := k, region := 3, offset := 0, length := n }

/-- The node with a near-memory command. -/
def withNear (n : Near) : State := { staging with regions := { staging.regions with near := [(4, n)] } }

/-- A command that waits for a lower one, that can start, that is late, and that ends. -/
theorem test_hyp_near_start :
    let f := near0 (.fill [1, 2, 3, 4, 5, 6, 7, 8]) 64
    f.own = none ∧ f.waitsFor f = true ∧ (∀ x ∈ (withNear f).regions.near, ¬ x.1 < 4) ∧ (f.reads.flatMap fun r => (withNear f).rangeAway r.1 r.2.1 r.2.2) = [] ∧
    base.now + (withNear f).nearNs f ≤ f.ctx.deadline ∧ ctx0.deadline < base.now + (withNear f).nearNs f ∧
    (withNear { f with running := true }).region 3 = some reg0 ∧ reg0.state = .live ∧ reg0.frames.Nodup := by decide +kernel

/-- Whether a range of region 3 can be read and nothing changes. -/
def reads (s : State) (off n : Nat) : Bool := match s.readRange 3 off n with
  | (.ok b, t) => b.length == n && t == s
  | _ => false

theorem test_hyp_near_done : reads (withNear (near0 (.copy 3 128) 64)) 128 64 = true ∧ reads (withNear (near0 (.compare 3 128) 64)) 0 64 = true ∧
    reads (withNear (near0 (.reduce firn0) 0)) 0 (reduceLen firn0) = true ∧
    (match parseFirn firn0 with
      | some inc => (match reduceTarget 0 (zeros (reduceLen firn0)) inc with
          | .ok b => b.length == firn0.length + 16
          | .error _ => false) && (match reduceTarget 0 ([1] ++ zeros (reduceLen firn0)) inc with
          | .ok _ => false
          | .error a => a.reason == Reason.reduceTarget)
      | none => false) = true := by decide +kernel

/-- A spill block of QP 1, and one of the host QP. -/
def spillBlock (qpn : Nat) : List Byte := le 8 4096 ++ le 4 7 ++ le 4 16 ++ le 8 0 ++ le 4 8 ++ le 2 4 ++ zeros 2 ++ le 4 qpn ++ zeros 12

theorem test_hyp_spill_target : ([(3, true), (2, false)] : List (Nat × Bool)).all (fun x => accepted base 0x040C (host (hdr 0x040C) (spillBlock x.1)) fun d _ t =>
    (spillBlockOk d.payload && decide (t.tiers.targets.length < 32 ∧ 2 ≤ fieldAt d.payload 32 4 ∧ fieldAt d.payload 32 4 < Config.qps + 2) &&
      (t.qp (fieldAt d.payload 32 4 - 2)).kind == .spill) == x.2) = true := by decide +kernel

/-- A page, alone on the node, with a spill target. -/
def target0 : SpillTarget := { qp := 1, bufferAddr := 4096, bufferKey := 7, slots := 16, landingAddr := 0, landingKey := 8, landingSlots := 4 }
def page0 : Page := { pg 0 0 with isSealed := true, twinNode := some 1, spill := some { target := 0, slot := 3, generation := 1, count := 1 } }
def withPage (p : Page) (s : State := base) : State := { s with tiers := { s.tiers with pages := [(0, p)], targets := [(0, target0)] } }

/-- The evictors at rest, and at work on a page. -/
theorem test_hyp_evict :
    let on := { base with regs := { base.regs with hotEvictStart := 2 ^ 40, warmEvictStart := 2 ^ 40 } }
    evictorRuns base.tiers.hotEvicting (base.avail .hot) base.regs.hotEvictStart base.regs.hotEvictStop = false ∧
    (evictorRuns on.tiers.hotEvicting (on.avail .hot) on.regs.hotEvictStart on.regs.hotEvictStop = true ∧ on.avail .warm ≠ 0 ∧
      (withPage page0 on).oldestPage .hot (fun _ => true) = some 0) ∧
    (let w := { page0 with tier := .warm }
     (withPage w on).pickSpill = some (0, 0) ∧ evictorRuns false (on.avail .warm) on.regs.warmEvictStart on.regs.warmEvictStop = true ∧
     (withPage w on).oldestPage .warm (fun p => p.version.isNone && p.users.isEmpty) = some 0 ∧ (withPage w on).tiers.flips = [] ∧ quiet on = true ∧
     on.rts target0.qp = true) := by decide +kernel

/-- Pages that a promotion may take, and pages whose move ends. -/
theorem test_hyp_moves :
    let ends := fun (p : Page) => let s := withPage p
      (s.page 0 == some p && p.state == .moving && p.queued.isNone && p.sealDue.isNone && p.pinnedBy == [] && p.refs != 0 && s.attn.reqs == [] && s.recover.resyncLeft == [])
    base.allocatable .hot ≠ 0 ∧ base.freeFrames .hot ≠ 0 ∧ base.allocatable .warm ≠ 0 ∧ page0.state = .resident ∧
    ([MoveKind.promote, .evictHot, .evictWarm, .refetch, .repair].all fun k => ends { page0 with state := .moving, moveKind := some k }) = true := by decide +kernel

/-- A wanted spilled page, the landing of its image on the spill QP, its timeout, and a page with a twin to ask. -/
theorem test_hyp_recall :
    let w := { page0 with state := .spilled, tier := .warm, queued := some .refetch }
    let m := { page0 with state := .moving, tier := .warm, moveKind := some .refetch }
    let s0 := { (withPage m).modTiers fun t => { t with targets := [(0, { target0 with landingKey := 7 * 256 + 2, recalls := [(2, 0)] })] } with
      regions := { State.reset.regions with regions := [(3, { reg0 with frames := [100, 101, 102, 103, 104], length := 327680 })]
                                            keys := [(7, { region := 3, write := true, read := true })], keyGens := [(7, 2)] } }
    let s := (s0.placeImage 1 2 []).2
    ((withPage w).page 0 = some w ∧ Table.get (withPage w).tiers.targets 0 = some target0 ∧
      ((List.range target0.landingSlots).find? fun k => !(target0.recalls.any fun r => r.1 == k)) = some 0 ∧ base.avail .warm ≠ 0) ∧
    w.queued ≠ some .repair ∧ (s0.placeImage 1 2 []).1 = true ∧ psnClass (s0.qp 1).rqPsn 0 = .expected ∧ s0.rts 1 = true ∧ s0.takesCommands = true ∧
    (s0.qp 1).kind = .spill ∧ quiet s0 = true ∧ (s.page 0 = some m ∧ m.state = .moving ∧ m.queued = none ∧ m.sealDue = none) ∧
    (s.recallOf 1 2 = some (0, 2, 0) ∧ quiet s = true ∧ s.openImage m { target := 0, slot := 3, generation := 1, count := 1 } [] = none ∧ imageCheckOk [] = false) ∧
    page0.moveStarted + 4000000 ≤ base.now ∧ base.attn.reqs = [] ∧ ¬ (page0.refs = 0 ∧ page0.users = []) ∧ page0.outside = true ∧ page0.state ≠ .poisoned ∧
    ({ page0 with spill := none } : Page).outside = false ∧ base.linkUp 1 = true ∧ base.now < 20000000001 + 4000000 := by decide +kernel

/-- What Receives asks of a message. -/
def receives (s : State) (m : RdmaMsg) : Bool :=
  quiet s && s.takesCommands && s.rts m.qp && !m.qpnOne && m.icrcOk && m.supported && psnClass (s.qp m.qp).rqPsn m.psn == .expected &&
  s.pace (s.portOf m.qp) == s

/-- A repair's copy into the reserved frame, and one elsewhere, of a page with a SEAL, which would be one whose SEAL fails, and of one without. -/
theorem test_hyp_repair :
    let m : RdmaMsg := { qp := 9, psn := 0, addr := 7 * 65536, imm := some 7, data := zeros 65536, len := 65536 }
    let p := { page0 with state := .moving, moveKind := some .repair, targetFrame := 7 }
    (withPage page0).hasSeal 0 page0 = true ∧ (zeros 65536).length = Config.frameBytes ∧
    ((withPage page0).hasSeal 0 { page0 with isSealed := false, version := none } = false ∧ receives (withPage p) m = true ∧ ((withPage p).qp 9).kind = .node) ∧
    p.reserved m = true ∧ p.reserved { m with imm := some 8 } = false := by
  refine ⟨by decide +kernel, List.length_replicate, by decide +kernel, ?_, by decide +kernel⟩
  have h : (zeros 65536).length = Config.frameBytes := List.length_replicate
  simp [Page.reserved, Page.repairing, h]

theorem test_hyp_fetch_copy :
    let s := withConv cv
    s.takesCommands = true ∧ (s.qp 9).kind = .node ∧ psnClass (s.qp 9).rqPsn 0 = .expected ∧ s.heldCopy (s.peerOf 9) 6 0 0 0 0 = some (.hot, 0) ∧
    clean s .hot 0 = true ∧
    Config.hotFrames - 1 < tierFrames .hot ∧ tierFrames .hot ≤ Config.hotFrames ∧ s.scrubs .hot = true ∧
    ({ s with regs := { s.regs with scrubHot := false } } : State).scrubs .hot = false := by decide +kernel

/-! ## States that meet the hypotheses: transport -/

/-- Writes under key 7 of region 3: whole, the first packets of a longer one, with another key, and a duplicate. -/
theorem test_hyp_write :
    let m : RdmaMsg := { qp := 0, psn := 0, addr := 64, key := 7 * 256 + 2, data := [1, 2, 3], len := 3 }
    let one := { m with len := 8, more := 1 }
    (receives keyed m && (keyed.qp 0).admitted.isNone && keyed.writeTarget m == some (.region 3, 64) && keyed.region 3 == some reg0 && reg0.state == .live &&
      !reg0.window && decide (reg0.frames.Nodup)) = true ∧
    (receives keyed one && keyed.writeTarget one == some (.region 3, 64)) = true ∧
    keyed.writeTarget { m with addr := 65533 } = some (.region 3, 65533) ∧ keyed.writeTarget { m with addr := 65534 } = none ∧
    (let p := { keyed with regions := { keyed.regions with regions := [(3, { reg0 with state := .poisoned })] } }
     p.writeTarget m = some (.region 3, 64) ∧ receives p m = true ∧ psnClass (keyed.qp 0).rqPsn 1 = .ahead ∧ (keyed.qp 0).nakSent = false ∧
       ({ hostQp with nakSent := true } : Qp).nakSent = true) ∧
    keyed.writeTarget { m with key := 7 * 256 + 1 } = none ∧ psnClass (keyed.qp 0).rqPsn (2 ^ 24 - 1) = .duplicate := by decide +kernel

/-- Reads under that key at the bounds of the region, and a twin write into frame 0 that was granted to node 1. -/
theorem test_hyp_read :
    let m : RdmaMsg := { qp := 0, psn := 0, addr := 65532, key := 7 * 256 + 2, len := 4 }
    let s := { base with recover := { base.recover with partners := [(1, { given := [500] })] } }
    (receives keyed m && decide ((keyed.qp 0).reads < 16) && keyed.keyHolds m.key (·.read) == some { region := 3, write := true, read := true } &&
      keyed.region 3 == some reg0 && reg0.frames.all (clean keyed .hot) && keyed.net.egress == [] && decide (m.addr.toNat + m.len ≤ reg0.base.toNat + reg0.length)) = true ∧
    reg0.base.toNat + reg0.length < (65533 : W64).toNat + m.len ∧
    (receives s { qp := 9, psn := 0, addr := 128, data := [1, 2], len := 2, imm := some 0x10000000 } && (s.qp 9).kind == .node &&
      s.givenFrame (s.peerOf 9) (128 / 65536) == some 500) = true ∧
    (let f := { s with node := { s.node with state := .fenced } }
     receives f { qp := 9, psn := 0, addr := 128, data := [1, 2], len := 2, imm := some 0x20000000 } = true) ∧
    (0x10000000 : W32).toNat / 2 ^ 28 = 1 ∧ (0x20000000 : W32).toNat / 2 ^ 28 = 2 := by decide +kernel

/-- A message on the spill QP that waits for its acknowledgement. -/
def sent0 : Msg := { uid := 4, qp := 1, cls := 0, ops := [.send [1, 2]], bytes := 2, sent := 1, psn := some 5, tag := .spill 0 }

/-- The node with a QP in a state. -/
def withQp (i : Nat) (q : Qp) : State := { base with net := { base.net with qps := Table.set base.net.qps i q } }

theorem test_hyp_ack :
    let s := withQp 1 { spillQp with unacked := [sent0], sqUna := 5, sqPsn := 6, retries := 6, timeoutAt := some 20000000000 }
    (s.rts 1 = true ∧ (s.qp 1).unacked = [sent0] ∧ (s.qp 1).advances 5 = true ∧ quiet s = true ∧ (s.qp 1).kind ≠ .node ∧
      (s.qp 1).advances 4 = false ∧ (s.qp 1).advances 6 = false) ∧
    ((s.qp 1).retries < 7 ∧ 7 ≤ ({ spillQp with retries := 7 } : Qp).retries ∧ (s.qp 1).timeoutAt = some 20000000000 ∧ 20000000000 ≤ s.now ∧ s.now < 20000000001 ∧
      (s.qp 1).rnrRetries < 7 ∧ ({ spillQp with rnrUntil := some 5 } : Qp).rnrUntil = some 5) := by decide +kernel

/-- A marked packet within 50 µs of a CNP and after, a rate period, and a priority that pauses. -/
theorem test_hyp_rates :
    let q := { hostQp with lastCnpSent := some (20000000000 - 50000), periodStart := 20000000000 - 55000, rc := 800000, rt := 800000 }
    ((withQp 0 q).rts 0 = true ∧ ((withQp 0 q).qp 0).lastCnpSent = some 19999950000 ∧ 19999950000 + 50000 ≤ base.now ∧
      base.now < 19999950001 + 50000 ∧ .cnpRecv 0 ∉ base.pending ∧ ((withQp 0 q).qp 0).periodStart + 55000 ≤ base.now ∧ base.now < 19999945001 + 55000) ∧
    (let pf : Profile := { grade := 0, nodeId := 0, portMode := 1, confidential := false, pfc := true, ppsTime := false, fabricId := 7, envelope := [] }
     let s := { base with node := { base.node with profile := some pf }, net := { base.net with ports := setAt base.net.ports 15 { paused := [(3, 19900000000)] } } }
     s.node.profile = some pf ∧ Table.get s.net.qps 9 = some nodeQp ∧ ((s.port 15).paused.find? fun x => x.1 == 3) = some (3, 19900000000) ∧
       19900000000 + 100000000 ≤ s.now ∧ s.now < 19900000001 + 100000000 ∧ 15 < s.portCount ∧ 15 < s.net.ports.length ∧ s.blocks.length = 24) ∧
    (base.node.profile.map (·.pfc)).getD false = false := by decide +kernel

/-- A port that is down, one that is busy, one with nothing to send, and one with a reply. -/
theorem test_hyp_egress :
    let up := fun (b : Nat) (ms : List Msg) => ({ base with net := { base.net with ports := setAt base.net.ports 0 { link := true, busyUntil := b }, egress := ms } } : State)
    let m : Msg := { sent0 with qp := 0, psn := none, sent := 0, tag := .none }
    let ready := fun (s : State) (c : Nat) => ((s.countFitHolds 0).settlePort 0 s.now).serviceReady 0 c
    (base.port 0).link = false ∧ base.now < ((up (2 ^ 60) []).port 0).busyUntil ∧ ((up 20000000000 []).port 0).busyUntil ≤ base.now ∧
    ((List.range 8).all fun c => !ready (up 0 []) c) = true ∧ base.portOf 0 = 0 ∧ 0 < base.portCount ∧ base.regs.chk = [] ∧
    ((List.range 8).filter fun c => ready (up 0 [m]) c) = [0] ∧ frameOf ((up 0 [m]).qp m.qp).mtu m.ops m.sent ≠ none := by decide +kernel

/-! ## States that meet the hypotheses: twins, health, trust -/

/-- The node with a partner. -/
def withPartner (p : Partner) (s : State := base) : State := { s with recover := { s.recover with partners := [(1, p)] } }

/-- A silent partner that may be taken over. -/
def lost0 : Partner := { lastContact := 5, silent := true }

theorem test_hyp_twin :
    accepted { base with node := { base.node with state := .configurable } } 0x0501 (lane (hdr 0x0501 0 1)) (fun d _ t => d.payload == [] && (t.bindRefusal d.hdr.p0).isNone) = true ∧
    accepted { base with node := { base.node with state := .configurable } } 0x0501 (lane (hdr 0x0501 0 2)) (fun d _ t => (t.bindRefusal d.hdr.p0).isSome) = true ∧
    accepted (withPartner lost0) 0x0502 (lane (hdr 0x0502 0 1)) (fun d _ t => d.payload == [] && t.recover.lostNodes == [] && (t.resyncRefusal d.hdr.p0).isNone) = true ∧
    accepted (withPartner { lost0 with silent := false }) 0x0502 (lane (hdr 0x0502 0 1)) (fun d _ t => t.recover.lostNodes == [] && (t.resyncRefusal d.hdr.p0).isSome) = true ∧
    accepted { base with recover := { base.recover with lostNodes := [1] } } 0x0502 (lane (hdr 0x0502 0 1)) (fun d _ t => t.recover.lostNodes.contains d.hdr.p0) = true := by
  decide +kernel

/-- A conversation of node 1 that waits for its promotion, and an acknowledged copy. -/
theorem test_hyp_promotion :
    let r : TwinRecord := { owner := 1, home := 1, state := .opened, layoutRecord := lay, layout := 1, epoch := 3, committed := [2, 2], crcs := [[], []]
                            extents := [], attached := [], lastWrite := 0 }
    let s := withConv { cv with promoting := true }
    let s := { s with recover := { s.recover with toPromote := [6], lostNodes := [1], twinRecords := [(twinKey 1 6, r)] } }
    s.recover.toPromote.head? = some 6 ∧ (s.recover.lostNodes.find? fun x => (s.twinRecordOf x 6).isSome) = some 1 ∧ s.twinRecordOf 1 6 = some r ∧
    with6 s (·.promoting) = true ∧ base.recover.toPromote.head? ≠ some 6 ∧
    (∀ x ∈ base.recover.lostNodes, base.twinRecordOf x 6 = none) ∧ .resync 3 ∈ ({ base with net := { base.net with acked := [.resync 3] } } : State).net.acked ∧ .resync 3 ∉ base.net.acked := by
  decide +kernel

/-- A stamp of node 1. -/
def stamp0 (st seq : Nat) : List Byte :=
  let b := le 2 1 ++ le 1 st ++ zeros 5 ++ le 8 seq ++ zeros 44
  b ++ le 4 (crc32c b)

theorem test_hyp_stamps :
    let p : Partner := { lastStamp := 20000000000 - 100000, lastContact := 20000000000 - 1000000, seqSeen := 4 }
    let s := withPartner p
    (s.partner 1 = some p ∧ s.stamps = true ∧ p.watched = true ∧ p.lastStamp + 100000 ≤ s.now ∧ s.now < p.lastStamp + 100001 ∧ s.linkUp 1 = true ∧
      p.lastContact + 1000 * s.regs.silentUs ≤ s.now ∧ s.now < p.lastContact + 1 + 1000 * s.regs.silentUs) ∧
    ([NodeState.serving.code, NodeState.fenced.code].all fun st => let b := stamp0 st 5
      b.length == 64 && fieldAt b 60 4 == crc32c (b.take 60) && decide (4 < fieldAt b 8 8) && decide (fieldAt b 3 1 % 16 < 4)) = true ∧
    ¬ 4 < fieldAt (stamp0 4 4) 8 8 ∧ psnClass (s.qp 9).rqPsn 0 = .expected ∧ psnClass (s.qp 9).rqPsn (2 ^ 24 - 1) = .duplicate ∧ s.peerOf 9 = 1 ∧ quiet s = true ∧ (s.qp 9).kind = .node := by decide +kernel

theorem test_hyp_windows :
    base.recover.guardStart + 1000000 * base.regs.guardWindowMs ≤ base.now ∧ base.now < 10000000001 + 1000000 * base.regs.guardWindowMs ∧
    (let s := fun c => { base with recover := { base.recover with offer := some (2, 1, 19999800000), unassigned := [6], candidates := c } }
     (s [3]).recover.offer = some (2, 1, 19999800000) ∧ 19999800000 + 200000 ≤ base.now ∧ base.now < 19999800001 + 200000 ∧ (s []).recover.standins.length < 4) := by
  decide +kernel

/-- HEALTH_READ, the ticks, a low and a high score, FENCE, and a pool that fails. -/
theorem test_hyp_health :
    accepted base 0x0503 (lane (hdr 0x0503)) (fun d _ _ => d.payload == []) = true ∧ base.recover.healthAt + 1000000 ≤ base.now ∧
    base.now < 19999000001 + 1000000 ∧ (19900000000 + 100000000 ≤ base.now ∧ base.now < 19900000001 + 100000000 ∧ base.node.state = .serving ∧
      (base.node.fabric.map (·.freeSpares)).getD 0 = 0 ∧ 0 < ((some { fab with freeSpares := 1 }).map (·.freeSpares)).getD 0) ∧
    (10000000000 + 10000000000 ≤ base.now ∧ base.now < 10000000001 + 10000000000) ∧
    ([NodeState.serving, .fenced].all fun st => accepted { base with node := { base.node with state := st } } 0x0504 (lane (hdr 0x0504 0 1))
      fun d _ t => d.payload == [] && (t.node.state == .fenced) == (st == .fenced) && t.drifts.length == 16) = true ∧
    3 ∉ base.recover.poolsFailed ∧ base.pending = [] := by decide +kernel

theorem test_hyp_attest : ([le 8 256 ++ le 4 3 ++ le 4 1, le 8 256 ++ le 4 3 ++ le 4 8192].all fun it =>
    accepted base 0x0601 (lane (hdr 0x0601) (zeros 32 ++ it)) fun d _ t => quiet t && d.payload.length == 48) = true := by decide +kernel

/-- TENANT_BEGIN with a tenant, while the zeroing runs, and of evidence for no report; TENANT_END; its end and that of the zeroing. -/
theorem test_hyp_tenant :
    let c := lane (hdr 0x0602) (zeros 6413)
    accepted base 0x0602 c (fun _ _ t => quiet t && t.trust.tenant.isSome) = true ∧
    accepted { bare with trust := { zeroing := some (2 ^ 60) } } 0x0602 (noTenant c) (fun _ _ t => t.trust.tenant.isNone && t.trust.zeroing == some (2 ^ 60)) = true ∧
    accepted bare 0x0602 (noTenant c) (fun d _ t => t.trust.tenant.isNone && t.trust.zeroing.isNone && t.evidenceFault d.payload == some 1) = true ∧
    accepted base 0x0603 (lane (hdr 0x0603)) (fun d _ t => quiet t && d.payload == [] && t.trust.tenant.isSome && t.drifts.length == 16) = true ∧
    accepted bare 0x0603 (noTenant (lane (hdr 0x0603))) (fun d _ t => d.payload == [] && t.trust.tenant.isNone) = true ∧
    base.trust.tenant ≠ none ∧ (host (hdr 0x0101)).hdr.formOk = true ∧ (host (hdr 0x0101)).hdr.tenantEpoch.toNat = base.epoch ∧
    ((opSpec 0x0101).map fun o => o.hdrOk (host (hdr 0x0101)).hdr && o.code == 0x0101) = some true ∧ base.pending = [] ∧ 5 ≤ base.now + 20 := by decide +kernel

/-- The chunks of an image: the first, a gap, and one that completes an image that is none. -/
theorem test_hyp_stage :
    let s := { base with trust := { base.trust with staged := zeros 4096, stagedLen := 8192 } }
    let c := fun off len => lane (hdr 0x0604 0 off len) (zeros 4096)
    let fits := fun (t : State) (off : Nat) => decide (ceilDiv (off + 4096) 65536 - ceilDiv off 65536 ≤ (if off = 0 then t.dropStaged else t).allocatable .hot)
    accepted base 0x0604 (c 0 8192) (fun d _ t => quiet t && d.hdr.p0 == 0 && d.payload.length == 4096 && decide (4096 < d.hdr.p1) && fits t 0) = true ∧
    accepted s 0x0604 (c 8192 8192) (fun d _ t => d.hdr.p0 != 0 && d.hdr.p0 != t.trust.staged.length) = true ∧
    accepted s 0x0604 (c 4096 8192) (fun d _ t => d.hdr.p0 == t.trust.staged.length && d.hdr.p1 == t.trust.stagedLen && !t.trust.verified && fits t 4096 &&
      d.hdr.p0 + d.payload.length == d.hdr.p1 && d.hdr.p0 % 4096 == 0) = true := by decide +kernel

/-- FIRMWARE_ACTIVATE without and with a verified image, and the pools that follow. -/
theorem test_hyp_activate : ([false, true] : List Bool).all (fun v => accepted { base with trust := { base.trust with verified := v } } 0x0605 (lane (hdr 0x0605))
      fun d _ t => quiet t && d.payload == [] && t.trust.verified == v && t.trust.activating == [] && t.node.drains == [] && t.drifts.length == 16) = true ∧
    ([[0, 1, 2, 3], [3]] : List (List Nat)).all (fun l => { base with trust := { base.trust with activating := l } }.trust.activating == l && base.poolConvs (l.headD 0) == []) = true ∧
    (withConv cv).poolConvs 2 ≠ [] := by decide +kernel

/-- SET_KEY_UNWRAP of another set, and of this one by a node that its list does not name. -/
theorem test_hyp_set_key :
    let b := fun id => zeros 8 ++ le 8 id ++ zeros 1136
    accepted base 0x0606 (lane (hdr 0x0606 78) (b 78)) (fun d _ t => quiet t && (t.trust.tenant.map (·.setId)) == some 77 && d.payload.length == 1152 &&
      zeroAt d.payload 1 7 && d.hdr.targetId != 77) = true ∧
    accepted base 0x0606 (lane (hdr 0x0606 77) (b 77)) (fun d _ t => (t.trust.tenant.map (·.entries)) == some [] && d.hdr.targetId == 77 &&
      fieldAt d.payload 8 8 == 77) = true := by decide +kernel

/-- DIAG_INJECT of a point that R635 gives, of one that it does not give, with every slot taken, and in confidential mode. -/
theorem test_hyp_diag_inject :
    let c := lane (hdr 0x0701 (256 * Blk.sec) (7 + 65536))
    let conf := { base with node := { base.node with confidential := true } }
    accepted base 0x0701 c (fun d _ t => d.payload == [] && !t.node.confidential && (injRefusal (d.hdr.targetId.toNat / 256) (d.hdr.targetId.toNat % 256)
      (d.hdr.p0 % 256) (bits d.hdr.p0 31 16)).isSome) = true ∧
    accepted conf 0x0701 c (fun _ _ t => t.node.confidential) = true ∧
    (let k := ((List.range 16).find? fun k => (injRefusal Blk.sec 0 k 1).isNone).getD 99
     let g := lane (hdr 0x0701 (256 * Blk.sec) (k + 65536))
     (accepted base 0x0701 g fun d _ t => (injRefusal (d.hdr.targetId.toNat / 256) 0 (d.hdr.p0 % 256) (bits d.hdr.p0 31 16)).isNone &&
        (t.regs.inj[0]?).map (·.busy) == some false) = true ∧
     (accepted { base with regs := { base.regs with inj := List.replicate 16 { busy := true, kind := 99 } } } 0x0701 g fun _ _ t => t.regs.inj.all (·.busy)) = true) := by
  decide +kernel

/-- The counters of a block, and a trace that starts and stops. -/
theorem test_hyp_diag :
    accepted base 0x0702 (lane (hdr 0x0702 24) item) (fun d _ _ => d.payload.length == 16 && d.hdr.targetId.toNat == 24) = true ∧
    accepted base 0x0703 (lane (hdr 0x0703 0 1)) (fun d _ t => !t.node.confidential && bit d.hdr.p0 0 && !bit d.hdr.p0 1 && d.payload == []) = true ∧
    accepted base 0x0703 (lane (hdr 0x0703 0 2) item) (fun d _ t => !bit d.hdr.p0 0 && bit d.hdr.p0 1 && d.payload.length == 16 && !t.trust.trace) = true := by decide +kernel

/-! ## States that meet the hypotheses: power, clocks, the lane -/

/-- The power states of the edges and releases. -/
theorem test_hyp_power :
    let off := { base with pwr := { base.pwr with state := .off } }
    let by_ := { base with pwr := { base.pwr with state := .standby }, pins := { base.pins with resetN := false } }
    off.pwr.state = .off ∧ base.pwr.state ≠ .off ∧ (4400 : Int) ≤ 4400 ∧ (5900 : Int) ≤ 5900 ∧ (4399 : Int) < 4400 ∧ (5900 : Int) < 5901 ∧ 999 < 1000 ∧
    by_.pins.resetN = false ∧ by_.pwr.state = .standby ∧ by_.up.poweredAt + 5000000 ≤ by_.now ∧
    by_.now < ({ by_.up with poweredAt := 19995000001 } : Startup).poweredAt + 5000000 ∧
    ({ base with pins := { base.pins with resetN := false } } : State).pwr.state ≠ .standby := by decide +kernel

/-- Start-up in ROOTING, in TRAINING, past its bound, and in RECOVERY_LISTEN. -/
theorem test_hyp_start_up :
    let s := fun st => ({ State.reset with node := { State.reset.node with state := st } } : State)
    State.reset.startingUp .rooting = true ∧ (s .training).startingUp .training = true ∧ base.startingUp .rooting = false ∧ base.startingUp .training = false ∧
    State.reset.trust.flashProfile = none ∧ envelopeForm [] = false ∧ ((s .configurable).node.state ≠ .rooting ∧ (s .configurable).node.state ≠ .training) ∧
    ({ s .rooting with clk := { rime := 12500000 } } : State).now = State.reset.up.since + 250000000 ∧
    ({ s .training with clk := { rime := 25000000 } } : State).now = State.reset.up.since + 500000000 ∧
    ({ base with trust := { base.trust with zeroing := some 20000000000 } } : State).trust.zeroing = some 20000000000 ∧ 20000000000 ≤ base.now ∧ base.now < 20000000001 := by
  decide +kernel

/-- A CHUNK of recovery. -/
def chunk (off total : Nat) (bs : List Byte) : List Byte :=
  let b := le 1 2 ++ zeros 3 ++ le 4 off ++ le 4 total ++ le 2 bs.length ++ bs
  b ++ le 4 (crc32c b)

theorem test_hyp_recovery :
    let r : Recovery := { reason := 5, next := 4, total := 8, image := [1, 2, 3, 4], lastHello := some 19000000000 }
    parseChunk (chunk 4 9 [5, 6]) = some (4, 9, [5, 6]) ∧ parseChunk (chunk 4 6 [5, 6]) = some (4, 6, [5, 6]) ∧ parseChunk (chunk 0 8 [5, 6]) = some (0, 8, [5, 6]) ∧
    parseChunk [] = none ∧ r.next = 4 ∧ r.lastHello = some 19000000000 ∧ 19000000000 + 1000000000 ≤ base.now ∧ base.now < 19000000001 + 1000000000 := by decide +kernel

/-- PLLs, throttle levels, limits, and intervals of PTP and PPS. -/
theorem test_hyp_clocks :
    (base.clk.pll.getD 5 false = true ∧ base.pwr.state = .active ∧ base.clk.pllLost.getD 5 none = none ∧ quiet base = true ∧ base.blocks.length = 24) ∧
    (base.regs.pwrCap < 1401 ∧ ((List.range 16).all fun n => !overThrottle n (if n = 0 then 4800 else if n = 15 then 300 else 0)) = true ∧ base.pwr.lastStep + 100000000 ≤ base.now ∧
      (base.pwr.level < 3 ∧ ¬ 3 ≤ base.pwr.level)) ∧
    (base.fenceAhead = false ∧ base.tripAhead = false ∧
      ({ base with pending := [.envFence { monitor := 9, value := 32000, heldMs := 2000 }] } : State).fenceAhead = true ∧
      ({ base with pending := [.envTrip { monitor := 9, value := 32000, heldMs := 0 }] } : State).tripAhead = true) ∧
    ((List.range 16).any (fun n => overFence n 32000 2000) = true ∧ (List.range 16).any (fun n => overTrip n 32000) = true ∧
      overFence 9 0 0 = false ∧ overTrip 9 0 = false) ∧
    ((base.port 0).link = false ∧ ({ link := true } : Port).link = true ∧ (100 : Int).natAbs ≤ 100 ∧ 100 < (-101 : Int).natAbs) ∧
    (19500000000 + 500000000 ≤ base.now ∧ base.now < 19500000001 + 500000000) := by decide +kernel

/-- Parts of a command of 64 bytes and of 80, an acknowledgement, and messages of another type. -/
def mpart (ty total next off : Nat) (data : List Byte) : List Byte := mgmtMessage ty 7 off total next data

theorem test_hyp_lane :
    let ex : Exchange := { xid := 7, next := 16, total := 80, data := zeros 16 }
    let done : Exchange := { xid := 7, next := 64, total := 64, reply := zeros 64, sentAt := 19999000000, heldUntil := none }
    let s := fun (l : List Exchange) => ({ base with net := { base.net with lane := l } } : State)
    base.takesCommands = true ∧ parseMgmt [] = none ∧ (parseMgmt (mpart 1 64 0 0 (zeros 64))).map (fun m => (m.ty, m.off, m.data.length)) = some (1, 0, 64) ∧
    (parseMgmt (mpart 2 64 4 0 [])).map (fun m => (m.ty, m.next)) = some (2, 4) ∧ (parseMgmt (mpart 1 80 0 16 (zeros 48))).map (fun m => (m.off, m.total)) = some (16, 80) ∧
    (s []).exchange 7 = none ∧ (s [ex]).exchange 7 = some ex ∧ ex.reply = [] ∧ ex.running = false ∧ (s [done]).exchange 7 = some done ∧ done.reply ≠ [] ∧
    4 ≤ ((s (List.replicate 4 { ex with xid := 1 })).net.lane.filter fun e => e.heldUntil.isNone).length ∧
    done.sentAt + 1000000 ≤ base.now ∧ base.now < done.sentAt + 1 + 1000000 ∧ done.tries < 7 ∧ 7 ≤ ({ done with tries := 7 } : Exchange).tries ∧
    ({ done with heldUntil := some 20000000000 } : Exchange).heldUntil = some 20000000000 := by decide +kernel

end Sys2Proof.Tests
end

section
/-! SUPPORT. Reads of the memory, byte by byte, and the bytes that a write to a frame leaves (R55). -/

namespace Sys2Proof.Machine

/-- A read out of cells in order, none below its first address, byte by byte. -/
theorem Memory.fill_eq_map (n : Nat) : ∀ (a : Nat) (cells : List Host.Cell), cells.Pairwise (fun x y => x.1 < y.1) →
    (∀ c ∈ cells, a ≤ c.1) → Memory.fill a n cells = (List.range n).map fun i => Memory.byte cells (a + i) := by
  induction n with
  | zero => intros; rfl
  | succ n ih =>
    intro a cells sorted above
    have step : ∀ i, a + (i + 1) = a + 1 + i := by omega
    rw [List.range_succ_eq_map, List.map_cons, List.map_map]
    cases cells with
    | nil =>
      simp only [Memory.fill, ih (a + 1) [] List.Pairwise.nil (by simp)]
      rfl
    | cons c rest =>
      obtain ⟨k, b⟩ := c
      obtain ⟨low, sorted'⟩ := List.pairwise_cons.mp sorted
      have ak : a ≤ k := above _ List.mem_cons_self
      simp only [Memory.fill]
      split
      · next e =>
        subst e
        rw [ih (k + 1) rest sorted' low]
        refine List.cons_eq_cons.mpr ⟨by simp [Memory.byte, Table.get], List.map_congr_left fun i _ => ?_⟩
        have beyond : k + (i + 1) ≠ k := by omega
        show Memory.byte rest (k + 1 + i) = Memory.byte ((k, b) :: rest) (k + (i + 1))
        rw [Memory.byte, Memory.byte, Table.get, if_neg beyond, step i]
      · next e =>
        have above' : ∀ c ∈ (k, b) :: rest, a + 1 ≤ c.1 := by
          intro c hc
          rcases List.mem_cons.mp hc with rfl | hc
          · show a + 1 ≤ k
            omega
          · have := low c hc
            simp only at this
            omega
        rw [ih (a + 1) _ sorted above']
        have none_at : Table.get rest a = none := by
          cases g : Table.get rest a with
          | none => rfl
          | some v =>
            have := low _ (Table.mem_of_get g)
            simp only at this
            omega
        refine List.cons_eq_cons.mpr ⟨?_, List.map_congr_left fun i _ => congrArg _ (step i).symm⟩
        simp [Memory.byte, Table.get, none_at, Ne.symm e]

/-- A read of a memory in its canonical form, byte by byte. -/
theorem Memory.read_eq_map {m : List Host.Cell} (h : Memory.wf m = true) (a n : Nat) :
    Memory.read m a n = (List.range n).map fun i => Memory.byte m (a + i) := by
  have sorted := ((Memory.wf_iff m).mp h).1
  unfold Memory.read
  have above : ∀ c ∈ m.filter (fun c => decide (a ≤ c.1) && decide (c.1 < a + n)), a ≤ c.1 := fun c hc => by
    have := (List.mem_filter.mp hc).2
    simp only [Bool.and_eq_true, decide_eq_true_eq] at this
    exact this.1
  rw [Memory.fill_eq_map n a _ (sorted.filter _) above]
  refine List.map_congr_left fun i hi => ?_
  have : i < n := List.mem_range.mp hi
  unfold Memory.byte
  rw [Table.get_filter_key m fun k => decide (a ≤ k) && decide (k < a + n)]
  simp [this]

/-- A read of what has just been written gives it back. -/
theorem Memory.read_write {m : List Host.Cell} (h : Memory.wf m = true) (a : Nat) (bs : List Byte) :
    Memory.read (Memory.write m a bs) a bs.length = bs := by
  rw [Memory.read_eq_map (Memory.write_wf h a bs)]
  refine List.ext_getElem (by simp) fun i hi hj => ?_
  simp [Memory.byte_write, hj]

/-- Settles O8: a write to a frame is a write to the memory at the frame's address. -/
theorem frameReadAfterWrite : Obligations.FrameReadAfterWrite := by
  intro s t f off bs wf
  refine ⟨Memory.read_write wf _ bs, fun a outside => ?_, Memory.write_wf wf _ bs⟩
  show Memory.byte (Memory.write s.tiers.mem (frameAddr t f + off) bs) a = Memory.byte s.tiers.mem a
  rw [Memory.byte_write, if_neg (by omega)]

end Sys2Proof.Machine
end

section
/-! SUPPORT. The conversation table beside the operations on pages, frames and appends: what leaves every entry as it is. -/

namespace Sys2Proof.Machine

variable (s : State)

/-! ## Faults, counters and free values -/

@[simp] theorem State.wordCorrected_convs (b : Nat) : (s.wordCorrected b).convs = s.convs := by simp [State.wordCorrected]
@[simp] theorem State.wordUncorrectable_convs (b d : Nat) (i : Bool) : (s.wordUncorrectable b d i).convs = s.convs := by
  simp [State.wordUncorrectable]
@[simp] theorem State.poisonConsumedAt_convs (b d : Nat) (i : Bool) : (s.poisonConsumedAt b d i).convs = s.convs := by
  simp [State.poisonConsumedAt]
@[simp] theorem State.checkFailed_convs (b d : Nat) (i : Bool) : (s.checkFailed b d i).convs = s.convs := by
  simp [State.checkFailed, State.checkNoted]
@[simp] theorem State.fireSlot_convs (i : Nat) : (s.fireSlot i).convs = s.convs := by simp [State.fireSlot, State.healthEvent]
@[simp] theorem State.injected_convs (b p : Nat) : (s.injected b p).2.convs = s.convs := by
  unfold State.injected; split <;> simp
@[simp] theorem State.drawBelow_convs (n : Nat) : (s.drawBelow n).2.convs = s.convs := rfl
@[simp] theorem State.drawBytes_convs : s.drawBytes.2.convs = s.convs := rfl

/-! ## Frames and messages -/

theorem State.allocFrame_convs {t : Tier} {u : FrameUse} {f : Nat} {v : State} (h : s.allocFrame t u = some (f, v)) :
    v.convs = s.convs := by
  unfold State.allocFrame at h
  split at h
  · cases h
  · rw [show v = (s.takeFrame t u).2 from (congrArg Prod.snd (Option.some.inj h)).symm, State.takeFrame_convs]

@[simp] theorem State.retireFrame_convs (t : Tier) (f : Nat) : (s.retireFrame t f).convs = s.convs := by
  unfold State.retireFrame; split <;> simp
@[simp] theorem State.twinWrite_convs (j k f : Nat) (ps : List (Nat × List Byte)) (tag : Tag) (held : Bool) :
    (s.twinWrite j k f ps tag held).convs = s.convs := by
  unfold State.twinWrite; split <;> simp
@[simp] theorem State.tellFreed_convs (j : Nat) : (s.tellFreed j).convs = s.convs := by
  unfold State.tellFreed; dsimp only; split <;> simp
@[simp] theorem State.twinCrc_convs (c : Conv) (a : Append) : (s.twinCrc c a).convs = s.convs := by
  unfold State.twinCrc; split <;> simp

theorem State.takeGrant_convs {j f : Nat} {v : State} (h : s.takeGrant j = some (f, v)) : v.convs = s.convs := by
  unfold State.takeGrant at h
  repeat' split at h
  all_goals cases h
  rfl

/-! ## Pages -/

@[simp] theorem State.noteFreed_convs (j f : Nat) : (s.noteFreed j f).convs = s.convs := rfl
@[simp] theorem State.leaveFrame_convs (t : Tier) (f : Nat) : (s.leaveFrame t f).convs = s.convs := by
  unfold State.leaveFrame; (repeat' split) <;> simp
@[simp] theorem State.freeSpill_convs (x : SpillAt) : (s.freeSpill x).convs = s.convs := rfl
@[simp] theorem State.freePage_convs (pid : Nat) : (s.freePage pid).convs = s.convs := by
  unfold State.freePage; dsimp only; (repeat' split) <;> simp
@[simp] theorem State.reapPage_convs (pid : Nat) : (s.reapPage pid).convs = s.convs := by
  unfold State.reapPage; (repeat' split) <;> simp
@[simp] theorem State.dropRef_convs (pid : Nat) : (s.dropRef pid).convs = s.convs := by simp [State.dropRef]
@[simp] theorem State.addRef_convs (pid : Nat) : (s.addRef pid).convs = s.convs := by simp [State.addRef]
@[simp] theorem State.enterPage_convs (cid i : Nat) (l : Layout) (k : PageKey) (t : Tier) (f : Nat) (w : Option (Nat × Nat)) :
    (s.enterPage cid i l k t f w).2.convs = s.convs := by
  simp [State.enterPage]

@[simp] theorem State.checkTags_convs (t : Tier) (f : Nat) : (s.checkTags t f).2.convs = s.convs := by
  unfold State.checkTags; dsimp only; cases t <;> (repeat' split) <;> simp

/-- A word that a read of a frame meets leaves the conversations. -/
@[simp] theorem State.checkWords_convs (t : Tier) (f : Nat) : (s.checkWords t f).2.convs = s.convs := by
  unfold State.checkWords
  dsimp only
  rw [foldl_pair (fun u : State => u.convs)]
  · dsimp only; split <;> simp
  · intro acc w
    split <;> simp

@[simp] theorem State.checkFrame_convs (t : Tier) (f : Nat) : (s.checkFrame t f).2.convs = s.convs := by
  unfold State.checkFrame
  have words := s.checkWords_convs t f
  split
  · next v e =>
    rw [e] at words
    have tags := v.checkTags_convs t f
    split <;> next w e => rw [e] at tags; exact tags.trans words
  · exact words

@[simp] theorem State.twinSats_convs (pid : Nat) : (s.twinSats pid).convs = s.convs := by
  unfold State.twinSats; (repeat' split) <;> simp
@[simp] theorem State.twinTail_convs (pid : Nat) (tag : Tag) : (s.twinTail pid tag).convs = s.convs := by
  unfold State.twinTail; (repeat' split) <;> simp
@[simp] theorem State.twinWhole_convs (pid k cls : Nat) (tag : Tag) : (s.twinWhole pid k cls tag).convs = s.convs := by
  unfold State.twinWhole; (repeat' split) <;> simp

@[simp] theorem State.sealPage_convs (pid fill : Nat) (w : Option (Nat × Nat)) : (s.sealPage pid fill w).convs = s.convs := by
  unfold State.sealPage
  split
  · rfl
  · next p _ =>
    split
    · rfl
    · have read := s.checkFrame_convs p.tier p.frame
      dsimp only
      split <;> next v e => rw [e] at read; simpa using read

@[simp] theorem State.unsealPage_convs (pid : Nat) : (s.unsealPage pid).convs = s.convs := by
  unfold State.unsealPage
  split
  · rfl
  · split
    · rfl
    · extract_lets parts opened
      have written : opened.convs = s.convs := by
        refine (State.modPage_convs ..).trans (foldl_keeps (·.convs) parts _ (fun u x => ?_) s)
        exact u.writeFrame_convs ..
      split
      · exact written
      · exact (State.twinWrite_convs ..).trans written

@[simp] theorem State.freezeRow_convs (pid : Nat) (l : Layout) (pos seg : Nat) (es : List Nat) (fresh : Bool) (tag : Tag) :
    (s.freezeRow pid l pos seg es fresh tag).2.convs = s.convs := by
  unfold State.freezeRow
  dsimp only
  (repeat' split) <;> simp

@[simp] theorem State.freezeToken_convs (pid : Nat) (l : Layout) (pos seg : Nat) (es : List Nat) (fresh : Bool) (w : Nat × Nat) :
    (s.freezeToken pid l pos seg es fresh w).2.convs = s.convs := by
  unfold State.freezeToken
  dsimp only
  split <;> simp

@[simp] theorem State.copyRows_convs (l : Layout) (t : Tier) (f dst n : Nat) (sats : Table Nat) :
    (s.copyRows l t f dst n sats).convs = s.convs := by
  unfold State.copyRows; split <;> simp

/-! ## Appends, versions and twins -/

@[simp] theorem State.releaseSlot_convs (a : Append) : (s.releaseSlot a).convs = s.convs := by
  unfold State.releaseSlot; split <;> simp
@[simp] theorem State.answerAppend_convs (a : Append) (x : Ans) : (s.answerAppend a x).convs = s.convs := by
  simp [State.answerAppend]
@[simp] theorem State.refuseAppend_convs (a : Append) (x : Ans) : (s.refuseAppend a x).convs = s.convs := by
  simp [State.refuseAppend]

@[simp] theorem State.reopenPages_convs (cid : Nat) : (s.reopenPages cid).convs = s.convs := by
  unfold State.reopenPages
  split
  · rfl
  · split
    · rfl
    · refine foldl_keeps (·.convs) _ _ (fun u p => ?_) s
      dsimp only
      (repeat' split) <;> simp

@[simp] theorem State.modVersion_convs (h : Nat) (f : Version → Version) : (s.modVersion h f).convs = s.convs := rfl
@[simp] theorem State.freeVersion_convs (h : Nat) : (s.freeVersion h).convs = s.convs := by
  unfold State.freeVersion
  split
  · rfl
  · exact foldl_keeps (·.convs) _ _ (by intros; simp) _
@[simp] theorem State.reapVersion_convs (h : Nat) : (s.reapVersion h).convs = s.convs := by
  unfold State.reapVersion; (repeat' split) <;> simp

@[simp] theorem State.needTwin_convs (cid : Nat) : (s.needTwin cid).convs = s.convs := by
  unfold State.needTwin; split <;> simp
@[simp] theorem State.twinShared_convs (cid : Nat) : (s.twinShared cid).convs = s.convs := by
  unfold State.twinShared; (repeat' split) <;> simp
@[simp] theorem State.drawSats_convs (l : Layout) (n : Nat) : (s.drawSats l n).2.convs = s.convs :=
  foldl_pair (fun u : State => u.convs) _ _ (by intros; simp) _

end Sys2Proof.Machine
end

section
/-! SUPPORT. The entry of one conversation beside the operations that change it: what each of them keeps of the entry, and that it
leaves every other entry as it is. -/

namespace Sys2Proof.Machine

variable {s t u : State} {cid : Nat}

/-! ## One entry -/

theorem State.conv_of_convs (h : t.convs = s.convs) (k : Nat) : t.conv k = s.conv k := congrArg (Table.get · k) h

@[simp] theorem State.conv_modConv_self (f : Conv → Conv) : (s.modConv cid f).conv cid = (s.conv cid).map f :=
  Table.get_modify_self s.convs cid f

theorem State.conv_modConv_of {x : Conv} (h : s.conv cid = some x) (f : Conv → Conv) : (s.modConv cid f).conv cid = some (f x) := by
  rw [State.conv_modConv_self, h, Option.map_some]

theorem State.conv_modConv_ne (f : Conv → Conv) {k : Nat} (h : k ≠ cid) : (s.modConv cid f).conv k = s.conv k :=
  Table.get_modify_ne s.convs cid k f h

/-- Between two states the entry of one conversation keeps what `f` takes of it, and the entries of all others are the same. -/
structure KeepsConv {α : Type} (f : Conv → α) (cid : Nat) (s t : State) : Prop where
  own : ∀ x, s.conv cid = some x → ∃ y, t.conv cid = some y ∧ f y = f x
  others : ∀ k, k ≠ cid → t.conv k = s.conv k

section
variable {α β : Type} {f : Conv → α}

theorem KeepsConv.of_convs (h : t.convs = s.convs) : KeepsConv f cid s t where
  own x hx := ⟨x, (State.conv_of_convs h cid).trans hx, rfl⟩
  others k _ := State.conv_of_convs h k

theorem KeepsConv.refl : KeepsConv f cid s s := .of_convs rfl

theorem KeepsConv.trans (h : KeepsConv f cid s t) (k : KeepsConv f cid t u) : KeepsConv f cid s u where
  own x hx := by
    obtain ⟨y, hy, ey⟩ := h.own x hx
    obtain ⟨z, hz, ez⟩ := k.own y hy
    exact ⟨z, hz, ez.trans ey⟩
  others j hj := (k.others j hj).trans (h.others j hj)

/-- What keeps `f` of the entry keeps all that `f` determines. -/
theorem KeepsConv.mono {g : Conv → β} (h : KeepsConv f cid s t) (determines : ∀ x y, f x = f y → g x = g y) : KeepsConv g cid s t where
  own x hx := by
    obtain ⟨y, hy, ey⟩ := h.own x hx
    exact ⟨y, hy, determines y x ey⟩
  others := h.others

theorem KeepsConv.modConv {g : Conv → Conv} (h : ∀ x, f (g x) = f x) : KeepsConv f cid s (s.modConv cid g) where
  own x hx := ⟨g x, by rw [State.conv_modConv_self, hx]; rfl, h x⟩
  others _ hk := State.conv_modConv_ne g hk

/-- A fold of steps that each keep it keeps it. -/
theorem KeepsConv.foldl {ι : Type} {step : State → ι → State} (h : ∀ t i, KeepsConv f cid t (step t i)) (l : List ι) (s : State) :
    KeepsConv f cid s (l.foldl step s) := by
  induction l generalizing s with
  | nil => exact .refl
  | cons i l ih => exact (h s i).trans (ih _)

/-- The same for a fold that carries a result beside the state. -/
theorem KeepsConv.foldlSnd {ι γ : Type} {step : γ × State → ι → γ × State} (h : ∀ p i, KeepsConv f cid p.2 (step p i).2) (l : List ι)
    (p : γ × State) : KeepsConv f cid p.2 (l.foldl step p).2 := by
  induction l generalizing p with
  | nil => exact .refl
  | cons i l ih => exact (h p i).trans (ih _)

end

/-! ## Pages of a conversation -/

/-- An entry but for its pages. -/
def Conv.unpaged (c : Conv) : Conv := { c with pages := [] }

/-- A fresh page is entered among the pages of its conversation. -/
theorem State.openPage_keeps {c : Conv} {l : Layout} {k : PageKey} {pid : Nat} {v : State} (h : s.openPage cid c l k = some (pid, v)) :
    KeepsConv Conv.unpaged cid s v := by
  have enter : ∀ (w : State) (i : Nat) (t : Tier) (f : Nat) (tw : Option (Nat × Nat)) (g : Nat → Conv → Conv), w.convs = s.convs →
      (∀ n x, (g n x).unpaged = x.unpaged) →
      KeepsConv Conv.unpaged cid s ((w.enterPage cid i l k t f tw).2.modConv cid (g (w.enterPage cid i l k t f tw).1)) := by
    intro w i t f tw g hw hg
    exact (KeepsConv.of_convs ((w.enterPage_convs ..).trans hw)).trans (.modConv (hg _))
  unfold State.openPage at h
  split at h
  · cases h
  · next f v₁ alloc =>
    have frames := s.allocFrame_convs alloc
    split at h
    · cases h
      exact enter v₁ _ _ _ _ (fun n c => { c with pages := c.pages ++ [(k, n)] }) frames fun _ _ => rfl
    · split at h
      · cases h
      · next g v₂ grant =>
        cases h
        exact enter v₂ _ _ _ _ (fun n c => { c with pages := c.pages ++ [(k, n)] }) ((v₁.takeGrant_convs grant).trans frames) fun _ _ => rfl

theorem State.leavePage_keeps (pid : Nat) : KeepsConv Conv.unpaged cid s (s.leavePage cid pid) := by
  refine KeepsConv.trans (KeepsConv.modConv (g := fun c => { c with pages := c.pages.filter fun p => p.2 != pid }) fun _ => rfl)
    (.of_convs ?_)
  simp [State.leavePage]

theorem State.copyInto_keeps (l : Layout) (k : PageKey) (src n : Nat) (tag : Tag) :
    KeepsConv Conv.unpaged cid s (s.copyInto cid l k src n tag) := by
  unfold State.copyInto
  split
  · split
    · exact .refl
    · next h =>
      refine (State.openPage_keeps h).trans (.of_convs ?_)
      dsimp only
      split <;> simp
  · exact .refl

theorem State.copyAway_keeps (l : Layout) (k : PageKey) (n : Nat) : KeepsConv Conv.unpaged cid s (s.copyAway cid l k n) := by
  unfold State.copyAway
  split
  · exact .refl
  · next pid v h =>
    obtain ⟨c, _, opened⟩ := Option.bind_eq_some_iff.mp h
    refine (State.openPage_keeps opened).trans (.of_convs ?_)
    dsimp only
    split
    · rfl
    · simp

/-- A freeze changes no more of its conversation than its pages. -/
theorem State.freezeAppend_keeps (a : Append) (l : Layout) : KeepsConv Conv.unpaged a.cid s (s.freezeAppend a l).2 := by
  have told : (match s.conv a.cid with
      | some c => s.twinCrc c a
      | none => s).convs = s.convs := by split <;> simp
  unfold State.freezeAppend
  refine (KeepsConv.of_convs told).trans ?_
  dsimp only
  refine KeepsConv.foldlSnd (fun acc x => ?_) _ (0, _)
  split
  · exact .refl
  · next c _ =>
    split
    · exact .refl
    · next pid fresh v h =>
      refine KeepsConv.trans ?_ (.of_convs (v.freezeToken_convs ..))
      split at h
      · cases h
        exact .refl
      · obtain ⟨⟨p, w⟩, opened, e⟩ := Option.map_eq_some_iff.mp h
        cases e
        exact State.openPage_keeps opened

/-- Sealing the tails changes no more of its conversation than its pages. -/
theorem State.sealTails_keeps : KeepsConv Conv.unpaged cid s (s.sealTails cid) := by
  unfold State.sealTails
  split
  · exact .refl
  · split
    · exact .refl
    · refine KeepsConv.foldl (fun t p => ?_) _ s
      dsimp only
      split
      · exact .refl
      · split
        · exact .refl
        · split
          · exact State.leavePage_keeps _
          · exact .of_convs (t.sealPage_convs ..)

/-! ## Uncommitted appends (R83) -/

/-- A discard leaves the appends that it does not take, in their order. -/
theorem State.conv_discardAppends_self (f : Append → Bool) (a : Ans) : (s.discardAppends cid f a).conv cid =
    (s.conv cid).map fun c => { c with passed := c.passed.filter fun x => !f x, held := c.held.filter fun x => !f x } := by
  unfold State.discardAppends
  cases hc : s.conv cid with
  | none => simp [hc]
  | some c =>
    dsimp only
    split
    · next gone =>
      have none_goes : ∀ x ∈ c.passed ++ c.held, f x = false := by simpa [or_imp, forall_and] using gone
      rw [Option.map_some, List.filter_eq_self.mpr fun x hx => by simp [none_goes x (List.mem_append_left _ hx)],
        List.filter_eq_self.mpr fun x hx => by simp [none_goes x (List.mem_append_right _ hx)]]
      exact hc
    · refine (State.conv_of_convs ((State.reopenPages_convs ..).trans
        (foldl_keeps (·.convs) _ _ (by intros; simp) _)) cid).trans ?_
      rw [State.conv_modConv_self, hc]

theorem State.conv_discardAppends_ne (f : Append → Bool) (a : Ans) {k : Nat} (h : k ≠ cid) :
    (s.discardAppends cid f a).conv k = s.conv k := by
  unfold State.discardAppends
  split
  · rfl
  · dsimp only
    split
    · rfl
    · refine (State.conv_of_convs ((State.reopenPages_convs ..).trans
        (foldl_keeps (·.convs) _ _ (by intros; simp) _)) k).trans ?_
      exact State.conv_modConv_ne _ h

/-- A conversation without its uncommitted appends. -/
def Conv.tailless (c : Conv) : Conv := { c with passed := [], held := [] }

@[simp] theorem State.conv_discardTail_self : (s.discardTail cid).conv cid = (s.conv cid).map Conv.tailless := by
  refine (State.conv_discardAppends_self ..).trans (congrArg (Option.map · _) (funext fun c => ?_))
  simp [Conv.tailless]

theorem State.conv_discardTail_ne {k : Nat} (h : k ≠ cid) : (s.discardTail cid).conv k = s.conv k :=
  State.conv_discardAppends_ne _ _ h

end Sys2Proof.Machine
end

section
/-! SUPPORT. The clocks beside the operations on appends and their pages: none of these moves the time. -/

namespace Sys2Proof.Machine

variable (s : State)

@[simp] theorem State.wordCorrected_clk (b : Nat) : (s.wordCorrected b).clk = s.clk := by simp [State.wordCorrected]
@[simp] theorem State.wordUncorrectable_clk (b d : Nat) (i : Bool) : (s.wordUncorrectable b d i).clk = s.clk := by
  simp [State.wordUncorrectable]
@[simp] theorem State.poisonConsumedAt_clk (b d : Nat) (i : Bool) : (s.poisonConsumedAt b d i).clk = s.clk := by
  simp [State.poisonConsumedAt]
@[simp] theorem State.checkFailed_clk (b d : Nat) (i : Bool) : (s.checkFailed b d i).clk = s.clk := by
  simp [State.checkFailed, State.checkNoted]
@[simp] theorem State.fireSlot_clk (i : Nat) : (s.fireSlot i).clk = s.clk := by simp [State.fireSlot, State.healthEvent]
@[simp] theorem State.injected_clk (b p : Nat) : (s.injected b p).2.clk = s.clk := by
  unfold State.injected; split <;> simp
@[simp] theorem State.retireFrame_clk (t : Tier) (f : Nat) : (s.retireFrame t f).clk = s.clk := by
  unfold State.retireFrame; split <;> simp
@[simp] theorem State.checkTags_clk (t : Tier) (f : Nat) : (s.checkTags t f).2.clk = s.clk := by
  unfold State.checkTags; dsimp only; cases t <;> (repeat' split) <;> simp
@[simp] theorem State.checkWords_clk (t : Tier) (f : Nat) : (s.checkWords t f).2.clk = s.clk := by
  unfold State.checkWords
  dsimp only
  rw [foldl_pair (fun u : State => u.clk)]
  · dsimp only; split <;> simp
  · intro acc w
    split <;> simp
@[simp] theorem State.checkFrame_clk (t : Tier) (f : Nat) : (s.checkFrame t f).2.clk = s.clk := by
  unfold State.checkFrame
  have words := s.checkWords_clk t f
  split
  · next v e =>
    rw [e] at words
    have tags := v.checkTags_clk t f
    split <;> next w e => rw [e] at tags; exact tags.trans words
  · exact words
@[simp] theorem State.releaseSlot_clk (a : Append) : (s.releaseSlot a).clk = s.clk := by
  unfold State.releaseSlot; split <;> simp
@[simp] theorem State.answerAppend_clk (a : Append) (x : Ans) : (s.answerAppend a x).clk = s.clk := by
  simp [State.answerAppend]
@[simp] theorem State.refuseAppend_clk (a : Append) (x : Ans) : (s.refuseAppend a x).clk = s.clk := by
  simp [State.refuseAppend]
@[simp] theorem State.twinWrite_clk (j k f : Nat) (ps : List (Nat × List Byte)) (tag : Tag) (held : Bool) :
    (s.twinWrite j k f ps tag held).clk = s.clk := by
  unfold State.twinWrite; split <;> simp
@[simp] theorem State.twinCrc_clk (c : Conv) (a : Append) : (s.twinCrc c a).clk = s.clk := by
  unfold State.twinCrc; split <;> simp
@[simp] theorem State.twinWhole_clk (pid k cls : Nat) (tag : Tag) : (s.twinWhole pid k cls tag).clk = s.clk := by
  unfold State.twinWhole; (repeat' split) <;> simp
@[simp] theorem State.twinTail_clk (pid : Nat) (tag : Tag) : (s.twinTail pid tag).clk = s.clk := by
  unfold State.twinTail; (repeat' split) <;> simp
@[simp] theorem State.twinSats_clk (pid : Nat) : (s.twinSats pid).clk = s.clk := by
  unfold State.twinSats; (repeat' split) <;> simp
@[simp] theorem State.enterPage_clk (cid i : Nat) (l : Layout) (k : PageKey) (t : Tier) (f : Nat) (w : Option (Nat × Nat)) :
    (s.enterPage cid i l k t f w).2.clk = s.clk := by
  simp [State.enterPage]

theorem State.allocFrame_clk {t : Tier} {u : FrameUse} {f : Nat} {v : State} (h : s.allocFrame t u = some (f, v)) : v.clk = s.clk := by
  unfold State.allocFrame at h
  split at h
  · cases h
  · rw [show v = (s.takeFrame t u).2 from (congrArg Prod.snd (Option.some.inj h)).symm, State.takeFrame_clk]

theorem State.takeGrant_clk {j f : Nat} {v : State} (h : s.takeGrant j = some (f, v)) : v.clk = s.clk := by
  unfold State.takeGrant at h
  repeat' split at h
  all_goals cases h
  rfl

theorem State.openPage_clk {cid : Nat} {c : Conv} {l : Layout} {k : PageKey} {pid : Nat} {v : State}
    (h : s.openPage cid c l k = some (pid, v)) : v.clk = s.clk := by
  unfold State.openPage at h
  split at h
  · cases h
  · next f v₁ alloc =>
    have frames := s.allocFrame_clk alloc
    split at h
    · cases h
      simpa using frames
    · split at h
      · cases h
      · next g v₂ grant =>
        cases h
        simpa using (v₁.takeGrant_clk grant).trans frames

@[simp] theorem State.sealPage_clk (pid fill : Nat) (w : Option (Nat × Nat)) : (s.sealPage pid fill w).clk = s.clk := by
  unfold State.sealPage
  split
  · rfl
  · next p _ =>
    split
    · rfl
    · have read := s.checkFrame_clk p.tier p.frame
      dsimp only
      split <;> next v e => rw [e] at read; simpa using read
@[simp] theorem State.freezeRow_clk (pid : Nat) (l : Layout) (pos seg : Nat) (es : List Nat) (fresh : Bool) (tag : Tag) :
    (s.freezeRow pid l pos seg es fresh tag).2.clk = s.clk := by
  unfold State.freezeRow
  dsimp only
  (repeat' split) <;> simp

@[simp] theorem State.freezeToken_clk (pid : Nat) (l : Layout) (pos seg : Nat) (es : List Nat) (fresh : Bool) (w : Nat × Nat) :
    (s.freezeToken pid l pos seg es fresh w).2.clk = s.clk := by
  unfold State.freezeToken
  dsimp only
  split <;> simp

@[simp] theorem State.unsealPage_clk (pid : Nat) : (s.unsealPage pid).clk = s.clk := by
  unfold State.unsealPage
  split
  · rfl
  · split
    · rfl
    · extract_lets parts opened
      have written : opened.clk = s.clk := by
        refine (State.modPage_clk ..).trans (foldl_keeps (·.clk) parts _ (fun u x => ?_) s)
        exact u.writeFrame_clk ..
      split
      · exact written
      · exact (State.twinWrite_clk ..).trans written

@[simp] theorem State.reopenPages_clk (cid : Nat) : (s.reopenPages cid).clk = s.clk := by
  unfold State.reopenPages
  split
  · rfl
  · split
    · rfl
    · refine foldl_keeps (·.clk) _ _ (fun u p => ?_) s
      dsimp only
      (repeat' split) <;> simp

@[simp] theorem State.discardAppends_clk (cid : Nat) (f : Append → Bool) (a : Ans) : (s.discardAppends cid f a).clk = s.clk := by
  unfold State.discardAppends
  split
  · rfl
  · dsimp only
    split
    · rfl
    · exact (State.reopenPages_clk ..).trans (foldl_keeps (·.clk) _ _ (by intros; simp) _)

@[simp] theorem State.endLease_clk (cid : Nat) : (s.endLease cid).clk = s.clk := by simp [State.endLease, State.discardTail]

/-- A freeze takes no time. -/
@[simp] theorem State.freezeAppend_clk (a : Append) (l : Layout) : (s.freezeAppend a l).2.clk = s.clk := by
  have told : (match s.conv a.cid with
      | some c => s.twinCrc c a
      | none => s).clk = s.clk := by split <;> simp
  unfold State.freezeAppend
  refine Eq.trans ?_ told
  dsimp only
  refine foldl_pair (fun u : State => u.clk) _ _ (fun acc x => ?_) (0, _)
  split
  · rfl
  · next c _ =>
    split
    · rfl
    · next pid fresh v h =>
      refine (v.freezeToken_clk ..).trans ?_
      split at h
      · cases h
        rfl
      · obtain ⟨⟨p, w⟩, opened, e⟩ := Option.map_eq_some_iff.mp h
        cases e
        exact State.openPage_clk _ opened

end Sys2Proof.Machine
end

section
/-! SUPPORT. Commands at a conversation's gate, tail leases, and replies that follow a twin record (R62, R80 to R85, R558). -/

namespace Sys2Proof.Machine

variable {s t : State} {cid : Nat}

/-! ## Commands at their gate -/

/-- A command other than a fork passes at once at a gate where nothing waits or goes ahead (R62, R63). -/
theorem State.AtGate.passes {x : Conv} {legal : ConvState → Bool} {ctx : CmdCtx} (h : s.AtGate cid x legal ctx.src) {c : Cmd}
    (op : c.hdr.opcode.toNat ≠ 0x0205) (pass : State → State) : s.throughGate cid c ctx pass = pass s := by
  refine h.throughGate c (fun k hk hne => ?_) pass
  rw [gatesOf_of_ne fun e => op (by rw [e]; rfl), List.mem_singleton] at hk
  exact absurd hk hne

/-- A gate that is clear has its lease, its commits and its held appends in order, and nothing goes ahead at it. -/
theorem State.gateClear_iff {key : Nat} : s.gateClear cid key = true ↔
    s.commitDue cid = false ∧ s.leaseDue cid = false ∧ s.heldNext cid = none ∧ s.ahead cid (key + 1) = false := by
  simp [State.gateClear, and_assoc]

section
variable {c d : Cmd} {ctx : CmdCtx} {x : Conv} {legal : ConvState → Bool}

theorem exec_convSeal_atGate (h : s.Accepts 0x0203 c d ctx t) (empty : d.payload = []) (gate : t.AtGate d.hdr.cid x legal ctx.src) :
    exec (.convSeal c) s = .next (t.sealAt d.hdr.cid ctx) := by
  rw [exec_convSeal, execConvSeal, h.onArrive, State.noPayload_nil empty, gate.passes (by rw [h.opcode]; decide)]

theorem exec_convClose_atGate (h : s.Accepts 0x0206 c d ctx t) (empty : d.payload = []) (gate : t.AtGate d.hdr.cid x legal ctx.src) :
    exec (.convClose c) s = .next (t.closeAt d.hdr.cid ctx) := by
  rw [exec_convClose, execConvClose, h.onArrive, State.noPayload_nil empty, gate.passes (by rw [h.opcode]; decide)]

theorem exec_convTruncate_atGate (h : s.Accepts 0x0204 c d ctx t) (empty : d.payload = []) (gate : t.AtGate d.hdr.cid x legal ctx.src) :
    exec (.convTruncate c) s = .next (t.truncateAt d.hdr.cid d ctx) := by
  rw [exec_convTruncate, execConvTruncate, h.onArrive, State.noPayload_nil empty, gate.passes (by rw [h.opcode]; decide)]

theorem exec_convPin_atGate (h : s.Accepts 0x0207 c d ctx t) (empty : d.payload = []) (gate : t.AtGate d.hdr.cid x legal ctx.src) :
    exec (.convPin c) s = .next (t.pinAt d.hdr.cid d ctx) := by
  rw [exec_convPin, execConvPin, h.onArrive, State.noPayload_nil empty, gate.passes (by rw [h.opcode]; decide)]

theorem exec_convStat_atGate (h : s.Accepts 0x0208 c d ctx t) (len : d.payload.length = 0 ∨ d.payload.length = 16)
    (gate : t.AtGate d.hdr.cid x legal ctx.src) : exec (.convStat c) s = .next (t.statAt d.hdr.cid d ctx) := by
  rw [exec_convStat, execConvStat, h.onArrive, if_pos len, gate.passes (by rw [h.opcode]; decide)]

theorem exec_convLease_atGate (h : s.Accepts 0x020C c d ctx t) (len : d.payload.length = if d.hdr.param0 = 0 then 0 else 16)
    (gate : t.AtGate d.hdr.cid x legal ctx.src) : exec (.convLease c) s = .next (t.leaseAt d.hdr.cid d ctx) := by
  rw [exec_convLease, execConvLease, h.onArrive, if_pos len, gate.passes (by rw [h.opcode]; decide)]

/-- A fork passes its child's gate as well. -/
theorem exec_convFork_atGate (h : s.Accepts 0x0205 c d ctx t) (empty : d.payload = []) (gate : t.AtGate d.hdr.cid x legal ctx.src)
    (child : t.ahead d.hdr.p0 (srcKey ctx.src + 1) = false) : exec (.convFork c) s = .next (t.forkAt d.hdr.cid d ctx) := by
  have op : d.hdr.opcode = 0x0205 := BitVec.eq_of_toNat_eq h.opcode
  rw [exec_convFork, execConvFork, h.onArrive, State.noPayload_nil empty, gate.throughGate d fun k hk hne => ?_]
  rcases (by simpa [gatesOf, op] using hk : k = d.hdr.cid ∨ k = d.hdr.p0) with rfl | rfl
  · exact absurd rfl hne
  · exact child

end

/-! ## Guards and leases -/

/-- A conversation whose entry names this node is found at home (R47). -/
theorem State.homed_of {x : Conv} (entry : s.conv cid = some x) (home : x.home = s.nodeId) : s.homed cid = .ok x := by
  simp [State.homed, entry, home]

/-- A guard that lets a command pass bars nothing, and the state is legal (R93). -/
theorem State.guard_none {x : Conv} {legal : ConvState → Bool} (h : s.guard x legal = none) :
    s.barred x = none ∧ legal x.state = true := by
  unfold State.guard at h
  split at h
  · cases h
  · next bars =>
    refine ⟨bars, ?_⟩
    unfold Conv.illegal at h
    (repeat' split at h) <;> simp_all

/-- The holder of the lease passes its check (R80). -/
theorem State.leaseCheck_holder {x : Conv} {key : Nat} (entry : s.conv cid = some x) (lease : x.lease = some key) :
    s.leaseCheck cid key = (none, s) := by
  simp [State.leaseCheck, entry, lease]

@[simp] theorem State.conv_renewLease_self : (s.renewLease cid).conv cid = (s.conv cid).map fun c => { c with leaseExpiry := s.now + 5000000 } :=
  State.conv_modConv_self _

theorem State.conv_renewLease_ne {k : Nat} (h : k ≠ cid) : (s.renewLease cid).conv k = s.conv k := State.conv_modConv_ne _ h

@[simp] theorem State.modConv_now (i : Nat) (f : Conv → Conv) : (s.modConv i f).now = s.now := rfl

/-- A conversation whose lease a source has taken for 5 ms (R80, R82). -/
def Conv.leased (c : Conv) (key now : Nat) : Conv :=
  { c with lease := some key, lostLease := c.lostLease.filter (· != key), leaseExpiry := now + 5000000 }

@[simp] theorem State.conv_grantLease_self (key : Nat) :
    (s.grantLease cid key).conv cid = (s.conv cid).map fun c => c.leased key s.now := by
  simp [State.grantLease, Function.comp_def, Conv.leased]

theorem State.conv_grantLease_ne (key : Nat) {k : Nat} (h : k ≠ cid) : (s.grantLease cid key).conv k = s.conv k :=
  (State.conv_renewLease_ne h).trans (State.conv_modConv_ne _ h)

/-- A conversation whose lease has ended: who held it is still to be told (R83, R85). -/
def Conv.unleased (c : Conv) : Conv :=
  { c.tailless with
    lease := none
    lostLease := match c.lease with
      | none => c.lostLease
      | some q => addOnce c.lostLease q }

@[simp] theorem State.conv_endLease_self : (s.endLease cid).conv cid = (s.conv cid).map Conv.unleased := by
  rw [State.endLease, State.conv_discardTail_self, State.conv_modConv_self, Option.map_map]
  rfl

theorem State.now_of_clk (h : t.clk = s.clk) : t.now = s.now := by rw [State.now, h, State.now]

/-! ## Replies after a twin record (R558) -/

/-- Where every twin frame that is gone has been told to the partner, nothing is told. -/
theorem State.tellFreed_told {j : Nat} (h : ∀ p, s.partner j = some p → ∀ f ∈ p.freed, f.2 = true) : s.tellFreed j = s := by
  have none_left : (((Table.get s.recover.partners j).map (·.freed)).getD []).filterMap
      (fun x => if x.2 then none else some x.1) = [] := by
    refine List.filterMap_eq_nil_iff.mpr fun f hf => ?_
    cases e : Table.get s.recover.partners j with
    | none => simp [e] at hf
    | some p => simp [h p e f (by simpa [e] using hf)]
  unfold State.tellFreed
  rw [none_left]
  rfl

/-- A message to a node whose link is up is posted in its own class (R496). -/
theorem State.post_linkUp {j cls : Nat} (up : s.linkUp j = true) (ops : List WireOp) (tag : Tag) :
    ∃ m : Msg, (s.post (s.nodeQp j) cls ops tag).net.egress = s.net.egress ++ [m] ∧ m.qp = s.nodeQp j ∧ m.cls = cls ∧ m.tag = tag ∧
      m.ops = ops := by
  obtain ⟨rts, kind⟩ : s.rts (s.nodeQp j) = true ∧ (s.qp (s.nodeQp j)).kind = .node := by simpa [State.linkUp] using up
  exact ⟨_, by rw [State.post, if_pos rts]; rfl, rfl, by simp [State.classOf, kind], rfl, rfl⟩

/-- A message that is posted changes the transport alone: it joins those that wait to leave. -/
theorem State.post_frame (qp cls : Nat) (ops : List WireOp) (tag : Tag) (held : Bool) :
    SameBut [.net] s (s.post qp cls ops tag held) ∧ (s.post qp cls ops tag held).net.waiting = s.net.waiting ∧
      (s.post qp cls ops tag held).net.records = s.net.records := by
  refine ⟨SameBut.of fun p => by cases p <;> simp [Part.Same], ?_, ?_⟩ <;> unfold State.post <;> split <;> rfl

end Sys2Proof.Machine
end

section
/-! SUPPORT. CONV_OPEN, CONV_SEAL and CONV_CLOSE, and the replies that wait for a twin record (R49, R80, R86, R90, R558). -/

namespace Sys2Proof.Machine

variable {s t : State} {cid : Nat}

/-! ## CONV_OPEN -/

/-- A conversation enters the table with its lease, and is offered for a stand-in where it has no twin. -/
def State.enterConv (s : State) (cid : Nat) (c : Conv) (key : Nat) : State :=
  (State.grantLease { s with convs := Table.set s.convs cid c } cid key).needTwin cid

theorem State.conv_set_self (c : Conv) : State.conv { s with convs := Table.set s.convs cid c } cid = some c :=
  Table.get_set_self s.convs cid c

theorem State.conv_set_ne (c : Conv) {k : Nat} (h : k ≠ cid) : State.conv { s with convs := Table.set s.convs cid c } k = s.conv k :=
  Table.get_set_ne s.convs cid k c h

theorem State.conv_enterConv_self (c : Conv) (key : Nat) : (s.enterConv cid c key).conv cid = some (c.leased key s.now) := by
  rw [State.enterConv, State.conv_of_convs (State.needTwin_convs ..), State.conv_grantLease_self, State.conv_set_self]
  rfl

theorem State.conv_enterConv_ne (c : Conv) (key : Nat) {k : Nat} (h : k ≠ cid) : (s.enterConv cid c key).conv k = s.conv k := by
  rw [State.enterConv, State.conv_of_convs (State.needTwin_convs ..), State.conv_grantLease_ne _ h, State.conv_set_ne _ h]

/-- Only the table and the list of conversations without a twin change. -/
theorem State.enterConv_frame (c : Conv) (key : Nat) : SameBut [.convs, .recover] s (s.enterConv cid c key) := by
  unfold State.enterConv State.needTwin
  refine SameBut.of fun p => ?_
  split <;> cases p <;> simp [Part.Same, State.grantLease, State.renewLease]

/-- The entry that a CONV_OPEN makes (R418). -/
def State.openedConv (s : State) (b : List Byte) (cid layers : Nat) : Conv :=
  s.freshConv (s.mappedPool (cidHash cid)) (fieldAt b 0 1) layers 0 ((List.range (fieldAt b 1 1)).map fun k => fieldAt b (8 + 2 * k) 2)
    s.newTwin

/-- A CID that no conversation has is opened where its block is right and there is room for it (R745). -/
theorem State.openConv_free {c : Cmd} {ctx : CmdCtx} {l : Layout} (free : s.conv c.hdr.cid = none) (right : s.openRefusal c.payload = none)
    (layout : s.layout (fieldAt c.payload 0 1) = some l) (room : s.tableUse (s.mappedPool (cidHash c.hdr.cid)) < Config.tablePerPool)
    (warm : s.regs.warmAdmitMark ≤ s.avail .warm) :
    let e := s.openedConv c.payload c.hdr.cid l.layers
    s.openConv c ctx = (s.enterConv c.hdr.cid e (srcKey ctx.src)).finishTwinned c.hdr.cid (e.leased (srcKey ctx.src) s.now) ctx (Ans.ok) := by
  intro e
  have calm : s.pressure = none := by simp [State.pressure, State.pressed, Nat.not_lt.mpr warm]
  have layers : ((s.layout (fieldAt c.payload 0 1)).map (·.layers)).getD 0 = l.layers := by rw [layout]; rfl
  unfold State.openConv
  simp only [free, right, calm, Nat.not_le.mpr room, if_false, layers]
  change (match State.conv (State.enterConv s c.hdr.cid e (srcKey ctx.src)) c.hdr.cid with
    | none => _
    | some conv => _) = _
  rw [State.conv_enterConv_self]
  rfl

/-- A CONV_OPEN of a conversation that this node is home to is refused (R418). -/
theorem State.openConv_taken {c : Cmd} {ctx : CmdCtx} {x : Conv} (taken : s.conv c.hdr.cid = some x) (home : x.home = s.nodeId)
    (bars : s.barred x = none) (right : s.openRefusal c.payload = none) :
    s.openConv c ctx = s.finish ctx (Ans.state Reason.convState x.word) := by
  have refused : s.guard x (fun _ => false) true = some (Ans.state Reason.convState x.word) := by
    simp [State.guard, bars, Conv.illegal]
  simp [State.openConv, taken, home, right, refused]

/-- Where nothing bars a conversation, every state is legal of a command to which all are. -/
theorem State.guard_all {x : Conv} (bars : s.barred x = none) : s.guard x (fun _ => true) = none := by
  simp [State.guard, bars, Conv.illegal]

theorem exec_convOpen_taken {c d : Cmd} {ctx : CmdCtx} {x : Conv} (h : s.Accepts 0x0201 c d ctx t)
    (gate : t.AtGate d.hdr.cid x (fun _ => true) ctx.src) : exec (.convOpen c) s = .next (t.openConv d ctx) := by
  rw [exec_convOpen, execConvOpen, h.onArrive, if_pos (by rw [gate.entry]; rfl), gate.passes (by rw [h.opcode]; decide)]

theorem exec_convOpen_free {c d : Cmd} {ctx : CmdCtx} (h : s.Accepts 0x0201 c d ctx t) (free : t.conv d.hdr.cid = none)
    (first : t.ahead d.hdr.cid (srcKey ctx.src + 1) = false) (alone : t.openFirst d.hdr.cid = none) :
    exec (.convOpen c) s = .next (t.openConv d ctx) := by
  rw [exec_convOpen, execConvOpen, h.onArrive, if_neg (by simp [free]), if_neg (by simp [first, alone])]

/-! ## CONV_SEAL -/

/-- A conversation that has been sealed, its pages apart (R86). -/
def Conv.sealedOff (c : Conv) : Conv := { c.tailless with state := .sealed, lease := none, lostLease := [], pages := [] }

/-- A reply with the committed length follows the twin record of the conversation as it stands. -/
theorem State.finishLength_eq {x : Conv} (entry : s.conv cid = some x) (ctx : CmdCtx) :
    s.finishLength cid ctx = s.finishTwinned cid x ctx (Ans.ok (2 ^ 32 * x.length)) := by
  rw [State.finishLength, entry]
  rfl

/-- A seal by the lease holder (R86). -/
theorem State.sealAt_holder {x : Conv} {ctx : CmdCtx} (homed : s.homed cid = .ok x) (entry : s.conv cid = some x)
    (guard : s.guard x onlyOpen = none) (lease : x.lease = some (srcKey ctx.src)) :
    ∃ (v : State) (y : Conv), s.sealAt cid ctx = v.finishTwinned cid y ctx (Ans.ok (2 ^ 32 * y.length)) ∧ v.conv cid = some y ∧
      y.unpaged = x.sealedOff := by
  have cut : ((s.discardTail cid).modConv cid fun c => { c with state := .sealed, lease := none, lostLease := [] }).conv cid =
      some { x.tailless with state := .sealed, lease := none, lostLease := [] } := by simp [entry]
  obtain ⟨y, hy, e⟩ := State.sealTails_keeps.own _ cut
  refine ⟨_, y, ?_, hy, e⟩
  simp only [State.sealAt, homed, guard, State.leaseCheck_holder entry lease]
  exact State.finishLength_eq hy ctx

/-! ## CONV_CLOSE -/

/-- What a conversation's twin record says once it is closed (R90). -/
def Conv.closed (c : Conv) : Conv :=
  { c with state := .free, pages := [], extents := [], attached := [], committed := c.committed.map fun _ => 0 }

theorem foldl_min_zero {l : List Nat} (h : ∀ n ∈ l, n = 0) : l.foldl min 0 = 0 := by
  induction l with
  | nil => rfl
  | cons n l ih => rw [List.foldl_cons, h n (by simp)]; exact ih fun m hm => h m (by simp [hm])

theorem Conv.closed_length (c : Conv) : c.closed.length = 0 := by
  unfold Conv.length Conv.closed
  cases c.committed with
  | nil => rfl
  | cons n l => exact foldl_min_zero fun m hm => (List.mem_map.mp hm).elim fun _ e => e.2.symm

/-- A close releases the entry; nothing waits at its row (R90). -/
theorem State.closeAt_idle {x : Conv} {ctx : CmdCtx} (homed : s.homed cid = .ok x) (entry : s.conv cid = some x) (row : x.row = [])
    (guard : s.guard x (fun st => st == .opened || st == .sealed || st == .lost) = none) :
    ∃ v : State, s.closeAt cid ctx = v.finishTwinned cid x.closed ctx (Ans.ok) ∧ v.conv cid = none := by
  have waiting : (((s.discardTail cid).conv cid).map (·.row)).getD [] = [] := by simp [entry, Conv.tailless, row]
  unfold State.closeAt
  simp only [homed, guard, waiting]
  exact ⟨_, rfl, Table.get_erase_self ..⟩

/-! ## Replies that wait for the twin record (R558) -/

/-- Without a twin the reply is given at once. -/
theorem State.finishTwinned_untwinned {x : Conv} (h : x.twin = none) (ctx : CmdCtx) (a : Ans) :
    s.finishTwinned cid x ctx a = s.finish ctx a := by
  simp [State.finishTwinned, State.finishAll, h]

/-- With one it is kept, and the record is posted to the twin. -/
theorem State.finishTwinned_twinned {x : Conv} {j : Nat} (h : x.twin = some j) (told : ∀ p, s.partner j = some p → ∀ f ∈ p.freed, f.2 = true)
    (ctx : CmdCtx) (a : Ans) : s.finishTwinned cid x ctx a = (s.keepAnswer cid ctx a).post (s.nodeQp j) 4
      [.write (BitVec.ofNat 64 cid) 0 (s.twinRecordBytes x) (some (twinImm 3 0))] (.twinRecord s.net.nextWait) := by
  simp only [State.finishTwinned, State.finishAll, h, State.twinRecord, List.foldl_cons, List.foldl_nil]
  refine (State.tellFreed_told fun p hp => told p (Eq.trans ?_ hp)).trans ?_
  · simp [State.partner, State.keepAnswer]
  · rfl

theorem State.keepAnswer_waiting (ctx : CmdCtx) (a : Ans) : ∃ w, Table.get (s.keepAnswer cid ctx a).net.waiting s.net.nextWait = some w ∧
    w.ctx = ctx ∧ w.status = a.status ∧ w.reason = a.reason ∧ w.result = a.result ∧ w.cid = cid :=
  ⟨_, Table.get_set_self .., rfl, rfl, rfl, rfl, rfl⟩

/-- Settles O27: each command at an idle gate by its own pass, and the reply by the two cases of the twin. -/
theorem openSealClose : Obligations.OpenSealClose := by
  refine ⟨⟨?_, ?_, ?_⟩, ?_⟩
  · intro s t c d ctx h
    refine ⟨fun l free first alone right layout room warm => ?_, fun x taken home row clear bars right => ?_⟩
    · refine ⟨_, _, (exec_convOpen_free h free first alone).trans (congrArg _ (State.openConv_free free right layout room warm)),
        State.conv_enterConv_self .., rfl, rfl, rfl, rfl, rfl, rfl, rfl, fun k hk => State.conv_enterConv_ne _ _ hk,
        State.enterConv_frame _ _⟩
    · rw [exec_convOpen_taken h ⟨taken, home, row, clear, State.guard_all bars⟩, State.openConv_taken taken home bars right]
      rfl
  · intro s t c d ctx x h empty gate lease
    obtain ⟨v, y, hv, hy, e⟩ := State.sealAt_holder gate.homed gate.entry gate.guard lease
    exact ⟨v, y, (exec_convSeal_atGate h empty gate).trans (congrArg _ hv), hy, congrArg Conv.state e, congrArg Conv.lease e,
      congrArg Conv.passed e, congrArg Conv.held e, (congrArg Conv.committed e :)⟩
  · intro s t c d ctx x h empty gate
    obtain ⟨v, hv, gone⟩ := State.closeAt_idle gate.homed gate.entry gate.row gate.guard (ctx := ctx)
    exact ⟨v, x.closed, (exec_convClose_atGate h empty gate).trans (congrArg _ hv), gone, rfl, x.closed_length⟩
  · intro s cid x ctx a
    refine ⟨fun h => State.finishTwinned_untwinned h ctx a, fun j h told => ?_⟩
    intro t
    have posted : t = _ := State.finishTwinned_twinned h told ctx a
    obtain ⟨same, waiting, records⟩ := (s.keepAnswer cid ctx a).post_frame (s.nodeQp j) 4
      [.write (BitVec.ofNat 64 cid) 0 (s.twinRecordBytes x) (some (twinImm 3 0))] (.twinRecord s.net.nextWait) false
    have kept : SameBut [.net] s (s.keepAnswer cid ctx a) := SameBut.of fun p => by cases p <;> simp [Part.Same, State.keepAnswer]
    rw [posted]
    refine ⟨by rw [waiting]; exact State.keepAnswer_waiting ctx a, by rw [records]; rfl, kept.trans same, fun up => ?_⟩
    obtain ⟨m, sent, qp, cls, tag, ops⟩ := State.post_linkUp (s := s.keepAnswer cid ctx a) (j := j) (cls := 4) up
      [.write (BitVec.ofNat 64 cid) 0 (s.twinRecordBytes x) (some (twinImm 3 0))] (.twinRecord s.net.nextWait)
    exact ⟨m, sent, qp, cls, tag, ops⟩

end Sys2Proof.Machine
end

section
/-! SUPPORT. CONV_TRUNCATE and CONV_FORK (R87 to R89). -/

namespace Sys2Proof.Machine

variable {s t : State} {cid : Nat}

/-- What of an entry its pages, extents and attachments do not touch: the state and the committed lengths. -/
def Conv.core (c : Conv) : ConvState × List Nat := (c.state, c.committed)

theorem Conv.core_of_unpaged {x y : Conv} (h : x.unpaged = y.unpaged) : x.core = y.core :=
  Prod.ext (congrArg Conv.state h :) (congrArg Conv.committed h :)

theorem KeepsConv.core (h : KeepsConv Conv.unpaged cid s t) : KeepsConv Conv.core cid s t := h.mono fun _ _ => Conv.core_of_unpaged

theorem State.dropMove_keeps (m : ExtentMove) : KeepsConv Conv.core cid s (s.dropMove cid m) :=
  (KeepsConv.modConv (g := fun c => { c with extentMoves := c.extentMoves.filter (· != m) }) fun _ => rfl).trans (.of_convs rfl)

theorem State.cutMoves_keeps (page : Nat) : KeepsConv Conv.core cid s (s.cutMoves cid page) := by
  unfold State.cutMoves
  split
  · exact .refl
  · exact (KeepsConv.foldl (fun t m => State.dropMove_keeps m) _ s).trans (.modConv fun _ => rfl)

theorem State.detachConv_keeps (h : W64) : KeepsConv Conv.core cid s (s.detachConv cid h) := by
  refine KeepsConv.trans (KeepsConv.modConv (g := fun c => { c with
    attached := c.attached.filter (· != h), prefixHandle := if c.prefixHandle = some h then none else c.prefixHandle }) fun _ => rfl)
    (.of_convs ?_)
  simp [State.detachConv]

/-- A cut for which there is room ends with the twin record of the cut conversation (R89, R558). -/
theorem State.cutConv_fits {x : Conv} {l : Layout} {n : Nat} {cmd : Cmd} {ctx : CmdCtx} (entry : s.conv cid = some x)
    (reads : s.blocked ((x.cutPages l n fun ly => x.committed.getD ly 0).map (·.2)) ctx = (none, s))
    (room : s.roomFor x.twin ((x.cutPages l n fun ly => x.committed.getD ly 0).length +
      (x.cutAway l n fun ly => x.committed.getD ly 0).length) = none) :
    ∃ (v : State) (y : Conv), s.cutConv cid x l n cmd ctx = (v.finishLength cid ctx).twinShared cid ∧ v.conv cid = some y ∧
      y.core = (x.state, x.committed.map (min n)) := by
  unfold State.cutConv
  extract_lets cut away
  rw [reads]
  simp -zeta only
  rw [room]
  simp -zeta only
  extract_lets s₁ s₂ s₃ s₄ s₅ s₆ s₇
  have ended : s₁.conv cid = some x.tailless := by rw [show s₁ = s.discardTail cid from rfl, State.conv_discardTail_self, entry]; rfl
  have start := State.conv_modConv_of ended fun c => { c with
    committed := c.committed.map (min n), crcs := c.crcs.map fun r => r.filter fun e => e.1 < n, prefixTokens := 0 }
  have gone : KeepsConv Conv.unpaged cid s₂ s₃ := by
    refine KeepsConv.foldl (fun t p => ?_) _ _
    exact State.leavePage_keeps _
  have copied : KeepsConv Conv.unpaged cid s₃ s₄ := by
    refine KeepsConv.foldl (fun t p => ?_) _ _
    exact (KeepsConv.modConv (g := fun c => { c with pages := c.pages.filter fun x => x.2 != p.2 }) fun _ => rfl).trans
      ((State.copyInto_keeps ..).trans (.of_convs ((State.dropRef_convs ..).trans (State.modPage_convs ..))))
  have fetched : KeepsConv Conv.unpaged cid s₄ s₅ := by
    refine KeepsConv.foldl (fun t k => ?_) _ _
    exact State.copyAway_keeps ..
  have clipped : KeepsConv Conv.core cid s₅ s₆ :=
    (KeepsConv.modConv (g := fun c => { c with extents := c.clipExtents l n }) fun _ => rfl).trans (State.cutMoves_keeps _)
  have detached : KeepsConv Conv.core cid s₆ s₇ := by
    simp only [s₇]
    split
    · exact .refl
    · split
      · exact .refl
      · exact State.detachConv_keeps _
  obtain ⟨y, hy, e⟩ := ((gone.trans (copied.trans fetched)).core.trans (clipped.trans detached)).own _ start
  exact ⟨s₇, y, rfl, hy, e⟩
/-- A truncation by the lease holder, by its length against the longest layer (R89). -/
theorem State.truncateAt_holder {x : Conv} {l : Layout} {c : Cmd} {ctx : CmdCtx} (homed : s.homed cid = .ok x) (entry : s.conv cid = some x)
    (guard : s.guard x onlyOpen = none) (lease : x.lease = some (srcKey ctx.src)) (layout : s.layout x.layout = some l) :
    s.truncateAt cid c ctx = if c.hdr.p0 > x.committed.foldl max 0 then s.finish ctx (Ans.param Reason.truncateLength)
      else if c.hdr.p0 = x.committed.foldl max 0 then s.finish ctx (Ans.ok x.lengthWord)
      else s.cutConv cid x l c.hdr.p0 c ctx := by
  simp only [State.truncateAt, homed, guard, State.leaseCheck_holder entry lease, layout]

/-- A fork's child at its length, with the lease at the source; every other conversation stays (R87, R88). -/
theorem State.makeChild_conv (child pool : Nat) (c : Conv) (l : Layout) (f : Nat) (cut : List (PageKey × Nat)) (away : List PageKey)
    (ctx : CmdCtx) : ∃ (v : State) (y : Conv), s.makeChild child pool c l f cut away ctx = v.finishTwinned child y ctx (Ans.ok) ∧
      v.conv child = some y ∧ y.state = .opened ∧ y.committed = List.replicate l.layers f ∧ y.lease = some (srcKey ctx.src) ∧
      y.attached = c.attached ∧ ∀ k, k ≠ child → v.conv k = s.conv k := by
  unfold State.makeChild
  extract_lets fresh conv whole s₁ s₂ s₃ s₄ s₅ s₆
  have entered : s₁.conv child = some { conv with pages := whole } := State.conv_set_self _
  have counted : s₃.convs = s₁.convs :=
    (foldl_keeps (·.convs) _ _ (by intros; simp) s₂).trans (foldl_keeps (·.convs) _ _ (by intros; simp) s₁)
  have copied : KeepsConv Conv.unpaged child s₃ s₄ := KeepsConv.foldl (fun _ _ => State.copyInto_keeps ..) _ _
  have shared : KeepsConv Conv.unpaged child s₄ s₅ :=
    (KeepsConv.foldl (fun _ _ => State.copyAway_keeps ..) _ _).trans (.of_convs (State.twinShared_convs ..))
  have made := (KeepsConv.of_convs counted).trans (copied.trans shared)
  obtain ⟨y, hy, e⟩ := made.own _ entered
  have leased : s₆.conv child = some (y.leased (srcKey ctx.src) s₅.now) := by
    rw [State.conv_of_convs (State.needTwin_convs ..), State.conv_grantLease_self, hy]; rfl
  rw [leased]
  refine ⟨s₆, _, rfl, leased, (congrArg Conv.state e :), (congrArg Conv.committed e :), rfl, (congrArg Conv.attached e :), fun k hk => ?_⟩
  calc s₆.conv k
    _ = s₅.conv k := (State.conv_of_convs (State.needTwin_convs ..) k).trans (State.conv_grantLease_ne _ hk)
    _ = s₁.conv k := made.others k hk
    _ = s.conv k := State.conv_set_ne _ hk

/-- A fork that its parent's gate lets pass, by its length (R87, R88, R745). -/
theorem State.forkAt_parent {x : Conv} {l : Layout} {c : Cmd} {ctx : CmdCtx} (homed : s.homed cid = .ok x)
    (guard : s.guard x openOrSealed = none) (layout : s.layout x.layout = some l) :
    let f := c.hdr.p1
    let cut := if f % l.tokens = 0 then [] else x.pages.filter fun p => p.1.index == f / l.tokens
    let away := x.cutAway l f fun _ => f + 1
    let pool := s.mappedPool (cidHash c.hdr.p0)
    (x.length < f → s.forkAt cid c ctx = s.finish ctx (Ans.param Reason.forkLength)) ∧
    (f ≤ x.length → s.conv c.hdr.p0 = none → s.tableUse pool < Config.tablePerPool → s.regs.warmAdmitMark ≤ s.avail .warm →
      s.blocked (cut.map (·.2)) ctx = (none, s) → s.roomFor x.twin (cut.length + away.length) = none →
      s.forkAt cid c ctx = s.makeChild c.hdr.p0 pool x l f cut away ctx) := by
  intro f cut away pool
  obtain ⟨bars, legal⟩ := State.guard_none guard
  have legal : x.illegal openOrSealed false = none := by simp [Conv.illegal, legal]
  refine ⟨fun long => ?_, fun short free use warm reads room => ?_⟩
  · simp only [State.forkAt, homed, bars, gt_iff_lt, if_pos long, f]
  · have calm : s.pressure = none := by simp [State.pressure, State.pressed, Nat.not_lt.mpr warm]
    simp only [State.forkAt, homed, bars, if_neg (Nat.not_lt.mpr short), legal, layout, free, Option.isSome_none, Bool.false_eq_true,
      if_false, Nat.not_le.mpr use, calm, reads, room, f, cut, away, pool]

/-- Settles O28: a truncation by its length against the longest layer, a fork by its length against the parent's. -/
theorem truncateAndFork : Obligations.TruncateAndFork := by
  refine ⟨?_, ?_⟩
  · intro s t c d ctx x l h empty gate lease layout n longest
    have ran := (exec_convTruncate_atGate h empty gate).trans
      (congrArg _ (State.truncateAt_holder gate.homed gate.entry gate.guard lease layout))
    refine ⟨fun long => ?_, fun same => ?_, fun short => ?_⟩
    · rw [ran, if_pos long]
    · rw [ran, if_neg (Nat.not_lt.mpr (Nat.le_of_eq same)), if_pos same]
      rfl
    · intro cut away reads room
      obtain ⟨v, y, cutTo, hy, e⟩ := State.cutConv_fits (cmd := d) gate.entry reads room
      refine ⟨v, y, ?_, hy, congrArg Prod.snd e, ?_⟩
      · rw [ran, if_neg (Nat.not_lt.mpr (Nat.le_of_lt short)), if_neg (Nat.ne_of_lt short), cutTo, State.finishLength_eq hy]
      · rw [show y.state = x.state from congrArg Prod.fst e]
        exact beq_iff_eq.mp (State.guard_none gate.guard).2
  · intro s t c d ctx x l h empty gate layout child f first cut
    obtain ⟨refused, forked⟩ := State.forkAt_parent (c := d) (ctx := ctx) gate.homed gate.guard layout
    have ran := exec_convFork_atGate h empty gate first
    refine ⟨fun long => by rw [ran, refused long], fun short free use warm reads room => ?_⟩
    obtain ⟨v, y, made, hy, state, committed, lease, attached, others⟩ := t.makeChild_conv child (t.mappedPool (cidHash child)) x l f cut
      (x.cutAway l f fun _ => f + 1) ctx
    have apart : d.hdr.cid ≠ child := fun e => by
      have := gate.entry
      rw [e, free] at this
      cases this
    exact ⟨v, y, by rw [ran, forked short free use warm reads room, made], hy, state, committed, lease, attached,
      (others _ apart).trans gate.entry⟩

end Sys2Proof.Machine
end

section
/-! SUPPORT. CONV_STAT, CONV_LEASE and CONV_PIN (R66, R81, R82, R146, R421, R422). -/

namespace Sys2Proof.Machine

variable {s t : State} {cid pid : Nat}

/-! ## Lengths and leases -/

theorem length_le_bytes (w n : Nat) : (le w n).length = w := by
  induction w generalizing n with
  | zero => rfl
  | succ w ih => rw [le, List.length_cons, ih]

/-- The record of committed lengths is 4 bytes for each layer (R422). -/
theorem Conv.lengths_length (c : Conv) : c.lengths.length = 4 * c.committed.length := by
  unfold Conv.lengths
  induction c.committed with
  | nil => rfl
  | cons n l ih => rw [List.map_cons, List.flatten_cons, List.length_append, ih, length_le_bytes, List.length_cons]; omega

/-- A status without a payload, or with the lengths of every layer (R66, R422). -/
theorem State.statAt_eq {x : Conv} {c : Cmd} {ctx : CmdCtx} (homed : s.homed cid = .ok x) (guard : s.guard x (fun st => st != .free) = none) :
    s.statAt cid c ctx = if c.payload.isEmpty then s.finish ctx (Ans.ok x.word x.statWord)
      else s.finishResult ctx (resultItemAt c.payload 0) (Ans.ok x.word x.statWord) x.lengths := by
  simp only [State.statAt, homed, guard]

/-- A renewal by the holder (R81). -/
theorem State.leaseAt_renew {x : Conv} {c : Cmd} {ctx : CmdCtx} (homed : s.homed cid = .ok x) (entry : s.conv cid = some x)
    (guard : s.guard x onlyOpen = none) (renew : c.hdr.param0 = 0) (lease : x.lease = some (srcKey ctx.src)) :
    s.leaseAt cid c ctx = (s.renewLease cid).finish ctx (Ans.ok x.lengthWord) := by
  simp only [State.leaseAt, homed, guard, if_pos renew, State.leaseCheck_holder entry lease]

/-- The state after a source has taken the lease: renewed for the holder, else ended and granted (R82). -/
def State.takeLease (s : State) (cid key : Nat) (x : Conv) : State :=
  if x.lease = some key then s.renewLease cid else (s.endLease cid).grantLease cid key

theorem State.leaseAt_take {x : Conv} {c : Cmd} {ctx : CmdCtx} (homed : s.homed cid = .ok x) (guard : s.guard x onlyOpen = none)
    (take : c.hdr.param0 ≠ 0) (fits : itemFits ctx.src (resultItemAt c.payload 0) x.lengths.length = true) :
    s.leaseAt cid c ctx = (s.takeLease cid (srcKey ctx.src) x).finish ctx
      { Ans.ok x.lengthWord with result := x.lengths, item := resultItemAt c.payload 0 } := by
  simp only [State.leaseAt, homed, guard, if_neg take, fits, Bool.not_true, Bool.false_eq_true, if_false, State.takeLease]

/-- Who takes the lease holds it for 5 ms; the appends of another holder are gone (R82, R83). -/
theorem State.conv_takeLease {x : Conv} (entry : s.conv cid = some x) (key : Nat) : ∃ y, (s.takeLease cid key x).conv cid = some y ∧
    y.lease = some key ∧ y.leaseExpiry = s.now + 5000000 ∧ y.committed = x.committed ∧
    (x.lease ≠ some key → y.passed = [] ∧ y.held = []) := by
  unfold State.takeLease
  split
  · next held =>
    have renewed : (s.renewLease cid).conv cid = some { x with leaseExpiry := s.now + 5000000 } := State.conv_modConv_of entry _
    exact ⟨_, renewed, held, rfl, rfl, fun other => absurd held other⟩
  · have taken : ((s.endLease cid).grantLease cid key).conv cid = some (x.unleased.leased key s.now) := by
      rw [State.conv_grantLease_self, State.conv_endLease_self, entry, Option.map_some, Option.map_some,
        State.now_of_clk (s.endLease_clk cid)]
    exact ⟨_, taken, rfl, rfl, rfl, fun _ => ⟨rfl, rfl⟩⟩

/-! ## Pins (R146, R421) -/

/-- The conversations that pin a page. -/
def State.pinners (s : State) (pid : Nat) : Option (List Nat) := (s.page pid).map (·.pinnedBy)

theorem State.page_modPage_self (f : Page → Page) : (s.modPage pid f).page pid = (s.page pid).map f :=
  Table.get_modify_self s.tiers.pages pid f

theorem State.page_modPage_ne (f : Page → Page) {k : Nat} (h : k ≠ pid) : (s.modPage pid f).page k = s.page k :=
  Table.get_modify_ne s.tiers.pages pid k f h

theorem State.pinners_modPage_self {f : Page → Page} {g : List Nat → List Nat} (h : ∀ p, (f p).pinnedBy = g p.pinnedBy) :
    (s.modPage pid f).pinners pid = (s.pinners pid).map g := by
  simp [State.pinners, State.page_modPage_self, Function.comp_def, h]

theorem State.pinners_modPage_ne (f : Page → Page) {k : Nat} (h : k ≠ pid) : (s.modPage pid f).pinners k = s.pinners k :=
  congrArg _ (State.page_modPage_ne f h)

theorem State.pinners_modPage {f : Page → Page} (h : ∀ p, (f p).pinnedBy = p.pinnedBy) (k : Nat) :
    (s.modPage pid f).pinners k = s.pinners k := by
  by_cases e : k = pid
  · rw [e, State.pinners_modPage_self (g := id) h, Option.map_id, id]
  · exact State.pinners_modPage_ne f e

/-- A move that is asked for pins and unpins nothing. -/
theorem State.pinners_wantMove (m : MoveKind) (k : Nat) : (s.wantMove pid m).pinners k = s.pinners k := by
  have asked : (s.modPage pid fun p => { p with queued := some m }).pinners k = s.pinners k :=
    State.pinners_modPage (f := fun p => { p with queued := some m }) (fun _ => rfl) k
  unfold State.wantMove
  split
  · rfl
  · split
    · rfl
    · split
      · unfold State.queueMove
        split
        · rfl
        · split
          · rfl
          · exact asked
      · exact asked

/-- A pin of a page adds the conversation to those that pin it, and leaves the pins of all others. -/
theorem State.pinners_pinPage_self : (s.pinPage cid pid).pinners pid = (s.pinners pid).map (addOnce · cid) := by
  unfold State.pinPage
  split
  · next none => simp [State.pinners, none]
  · have pinned : (s.modPage pid fun p => { p with pinnedBy := addOnce p.pinnedBy cid }).pinners pid = (s.pinners pid).map (addOnce · cid) :=
      State.pinners_modPage_self (f := fun p => { p with pinnedBy := addOnce p.pinnedBy cid }) (g := (addOnce · cid)) fun _ => rfl
    dsimp only
    (repeat' split) <;> simp only [State.pinners_wantMove, pinned]

theorem State.pinners_pinPage_ne {k : Nat} (h : k ≠ pid) : (s.pinPage cid pid).pinners k = s.pinners k := by
  unfold State.pinPage
  dsimp only
  (repeat' split) <;> simp only [State.pinners_wantMove, State.pinners_modPage_ne _ h]

/-- What each step of a fold makes of its own item and no later step undoes holds of all items at the end. -/
theorem foldl_makes_each {α ι : Type} {P : α → ι → Prop} {step : α → ι → α} (makes : ∀ a i, P (step a i) i)
    (keeps : ∀ a i j, P a j → P (step a i) j) (l : List ι) (a : α) : ∀ j ∈ l, P (l.foldl step a) j := by
  have kept : ∀ (l : List ι) (a : α) j, P a j → P (l.foldl step a) j := by
    intro l
    induction l with
    | nil => exact fun _ _ h => h
    | cons i l ih => exact fun a j h => ih _ j (keeps a i j h)
  induction l generalizing a with
  | nil => simp
  | cons i l ih =>
    intro j hj
    rcases List.mem_cons.mp hj with rfl | hj
    · exact kept l _ _ (makes a _)
    · exact ih _ j hj

theorem mem_addOnce_self {α : Type} [DecidableEq α] (l : List α) (x : α) : x ∈ addOnce l x := by
  unfold addOnce
  split
  · next h => exact List.contains_iff_mem.mp h
  · simp

/-- After a pin of some pages the conversation is among those that pin each of them. -/
theorem State.pinned_foldl (pages : List Nat) : ∀ k ∈ pages, ∀ p, (pages.foldl (fun s pid => s.pinPage cid pid) s).page k = some p →
    cid ∈ p.pinnedBy := by
  have each := foldl_makes_each (P := fun (u : State) k => ∀ l, u.pinners k = some l → cid ∈ l)
    (step := fun u pid => u.pinPage cid pid) (fun u i l h => ?_) (fun u i j pinned l h => ?_) pages s
  · exact fun k hk p hp => each k hk _ (by rw [State.pinners, hp]; rfl)
  · rw [State.pinners_pinPage_self] at h
    obtain ⟨m, -, rfl⟩ := Option.map_eq_some_iff.mp h
    exact mem_addOnce_self m cid
  · by_cases e : j = i
    · rw [e, State.pinners_pinPage_self] at h
      obtain ⟨m, -, rfl⟩ := Option.map_eq_some_iff.mp h
      exact mem_addOnce_self m cid
    · exact pinned l ((State.pinners_pinPage_ne e).symm.trans h)

/-- A page that a conversation no longer pins. -/
def State.unpin (s : State) (cid pid : Nat) : State := s.modPage pid fun p => { p with pinnedBy := p.pinnedBy.filter (· != cid) }

theorem State.pinners_unpin_self : (s.unpin cid pid).pinners pid = (s.pinners pid).map (·.filter (· != cid)) :=
  State.pinners_modPage_self (f := fun p => { p with pinnedBy := p.pinnedBy.filter (· != cid) }) fun _ => rfl

/-- After an unpin of some pages the conversation is no longer among those that pin one of them. -/
theorem State.unpinned_foldl (pages : List Nat) : ∀ k ∈ pages, ∀ p, (pages.foldl (fun s pid => s.unpin cid pid) s).page k = some p →
    cid ∉ p.pinnedBy := by
  have each := foldl_makes_each (P := fun (u : State) k => ∀ l, u.pinners k = some l → cid ∉ l)
    (step := fun u pid => u.unpin cid pid) (fun u i l h => ?_) (fun u i j unpinned l h => ?_) pages s
  · exact fun k hk p hp => each k hk _ (by rw [State.pinners, hp]; rfl)
  · rw [State.pinners_unpin_self] at h
    obtain ⟨m, -, rfl⟩ := Option.map_eq_some_iff.mp h
    simp
  · by_cases e : j = i
    · rw [e, State.pinners_unpin_self] at h
      obtain ⟨m, -, rfl⟩ := Option.map_eq_some_iff.mp h
      simp
    · exact unpinned l ((State.pinners_modPage_ne _ e).symm.trans h)

/-- An unpin changes what is known of pages alone. -/
theorem State.unpin_foldl_frame (pages : List Nat) : SameBut [.tiers] s (pages.foldl (fun s pid => s.unpin cid pid) s) := by
  induction pages generalizing s with
  | nil => exact SameBut.refl _ _
  | cons pid l ih => exact SameBut.trans (SameBut.of fun p => by cases p <;> simp [Part.Same, State.unpin, State.modPage]) ih

/-- A pin within the layout and the committed length (R421). -/
theorem State.pinAt_range {x : Conv} {l : Layout} {ls : List Nat} {c : Cmd} {ctx : CmdCtx} (homed : s.homed cid = .ok x)
    (guard : s.guard x openOrSealed = none) (layout : s.layout x.layout = some l) (range : pinLayers l.layers c.hdr.p1 = some ls)
    (within : bits c.hdr.p0 31 0 < (ls.map fun ly => x.committed.getD ly 0).foldl max 0) :
    let pages := x.pinPages l ls (bits c.hdr.p0 31 0) (bits c.hdr.p0 63 32)
    let n := pages.length + x.pinnedAway l ls (bits c.hdr.p0 31 0) (bits c.hdr.p0 63 32)
    (bit c.hdr.p1 32 = true → s.pinAt cid c ctx = (pages.foldl (fun s pid => s.unpin cid pid) s).finish ctx (Ans.ok n)) ∧
    (bit c.hdr.p1 32 = false → (s.tiers.pages.filter fun p => !p.2.pinnedBy.isEmpty).length +
        (pages.filter fun pid => ((s.page pid).map (·.pinnedBy.isEmpty)).getD false).length ≤ Config.pinLimit →
      s.pinAt cid c ctx = (pages.foldl (fun s pid => s.pinPage cid pid) s).finish ctx (Ans.ok n)) := by
  intro pages n
  refine ⟨fun unpin => ?_, fun pin room => ?_⟩
  · simp only [State.pinAt, homed, guard, layout, range, if_neg (Nat.not_le.mpr within), unpin, if_true]
    rfl
  · simp only [State.pinAt, homed, guard, layout, range, if_neg (Nat.not_le.mpr within), pin, Bool.false_eq_true, if_false,
      if_neg (Nat.not_lt.mpr room), pages, n]

/-- A pin of a conversation without extents covers no page at another node. -/
theorem Conv.pinnedAway_home {x : Conv} (home : x.extents = []) (l : Layout) (ls : List Nat) (first count : Nat) :
    x.pinnedAway l ls first count = 0 := by
  rw [Conv.pinnedAway, home]
  induction ls with
  | nil => rfl
  | cons ly ls ih =>
    rw [List.map_cons, List.sum_cons, ih]
    rfl

/-- Settles O29: each of the three commands at an idle gate, by what it asks for. -/
theorem statLeasePin : Obligations.StatLeasePin := by
  refine ⟨?_, ?_, ?_⟩
  · intro s t c d ctx x h gate p0 p1
    refine ⟨fun empty => ?_, fun item fits => ?_⟩
    · rw [exec_convStat_atGate h (by simp [empty]) gate, State.statAt_eq gate.homed gate.guard, if_pos (by simp [empty])]
      rfl
    · have full : ¬ d.payload.isEmpty = true := fun e => by simp [List.isEmpty_iff.mp e] at item
      rw [exec_convStat_atGate h (.inr item) gate, State.statAt_eq gate.homed gate.guard, if_neg full, State.finishResult,
        if_pos (by rw [Conv.lengths_length]; exact fits)]
      rfl
  · intro s t c d ctx x h gate
    refine ⟨fun renew empty lease => ?_, fun take item fits => ?_⟩
    · rw [exec_convLease_atGate h (by simp [renew, empty]) gate, State.leaseAt_renew gate.homed gate.entry gate.guard renew lease]
      rfl
    · have other : d.hdr.param0 ≠ 0 := by simp [take]
      obtain ⟨y, hy, lease, expiry, committed, tail⟩ := State.conv_takeLease gate.entry (srcKey ctx.src)
      exact ⟨_, y, (exec_convLease_atGate h (by rw [item, if_neg other]) gate).trans (congrArg _
        (State.leaseAt_take gate.homed gate.guard other (by rw [Conv.lengths_length]; exact fits))), hy, lease, expiry, committed, tail⟩
  · intro s t c d ctx x l ls h empty gate layout range within pages n
    obtain ⟨unpinned, pinned⟩ := State.pinAt_range (ctx := ctx) gate.homed gate.guard layout range within
    refine ⟨fun home => ?_, fun unpin => ?_, fun pin room => ?_⟩
    · rw [show n = pages.length + _ from rfl, Conv.pinnedAway_home home, Nat.add_zero]
    · exact ⟨_, (exec_convPin_atGate h empty gate).trans (congrArg _ (unpinned unpin)), State.unpin_foldl_frame _, State.unpinned_foldl _⟩
    · exact ⟨_, (exec_convPin_atGate h empty gate).trans (congrArg _ (pinned pin room)), State.pinned_foldl _⟩

end Sys2Proof.Machine
end

section
/-! SUPPORT. The gate row (R61 to R64): what waits behind others, and what passes at its front. -/

namespace Sys2Proof.Machine

variable {s t : State} {cid : Nat}

/-! ## Two changes of one entry -/

theorem Table.set_set {α : Type} (t : Table α) (k : Nat) (v w : α) : Table.set (Table.set t k v) k w = Table.set t k w := by
  induction t with
  | nil => simp [Table.set]
  | cons x rest ih =>
    obtain ⟨j, u⟩ := x
    rcases Nat.lt_trichotomy k j with lt | rfl | gt
    · simp [Table.set, lt, Nat.ne_of_lt lt]
    · simp [Table.set]
    · simp [Table.set, Nat.not_lt.mpr (Nat.le_of_lt gt), Nat.ne_of_gt gt, ih]

theorem Table.modify_modify {α : Type} (t : Table α) (k : Nat) (f g : α → α) :
    Table.modify (Table.modify t k f) k g = Table.modify t k fun x => g (f x) := by
  cases h : Table.get t k with
  | none => simp [Table.modify, h]
  | some x => simp [Table.modify, h, Table.set_set]

theorem State.modConv_modConv (f g : Conv → Conv) : (s.modConv cid f).modConv cid g = s.modConv cid fun x => g (f x) :=
  congrArg (fun l => { s with convs := l }) (Table.modify_modify s.convs cid f g)

/-! ## Behind others -/

/-- Behind a row that is not empty a command takes its place, or finds the row full (R62, R63). -/
theorem State.throughGate_row {x : Conv} (entry : s.conv cid = some x) (home : x.home = s.nodeId) (waits : x.row ≠ [])
    (commit : s.commitDue cid = false) (lease : s.leaseDue cid = false) (held : s.heldNext cid = none) (c : Cmd) (ctx : CmdCtx)
    (pass : State → State) : s.throughGate cid c ctx pass =
      if x.row.length < 256 then s.modConv cid fun y => { y with row := rowInsert y.row (.cmd c ctx) }
      else s.finish ctx (Ans.throttled Reason.gateQueueFull 10) := by
  have homed := State.homed_of entry home
  have waiting : x.row.isEmpty = false := by simp [waits]
  simp only [State.throughGate, State.gateFirst_of_none commit lease held, homed, waiting, Bool.false_and, Bool.false_eq_true, if_false]
  split
  · next full => rw [if_neg (Nat.not_lt.mpr full)]
  · next free => rw [if_pos (Nat.not_le.mp free)]

/-- Behind all items of earlier cycles and those of its cycle of no higher number an item is the last. -/
theorem rowInsert_last {row : List RowItem} {it : RowItem} (h : ∀ y ∈ row, y.arrival = it.arrival → y.key ≤ it.key) :
    rowInsert row it = row ++ [it] := by
  have before : ∀ y ∈ row, (!(y.arrival == it.arrival && decide (it.key < y.key))) = true := by
    intro y hy
    have := h y hy
    simp only [Bool.not_eq_true', Bool.and_eq_false_imp, beq_iff_eq, decide_eq_false_iff_not, Nat.not_lt]
    exact this
  have all_taken := List.takeWhile_append_of_pos (l₂ := []) before
  have none_left := List.dropWhile_append_of_pos (l₂ := []) before
  rw [List.append_nil, List.takeWhile_nil, List.append_nil] at all_taken
  rw [List.append_nil, List.dropWhile_nil] at none_left
  simp only [rowInsert, all_taken, none_left, List.append_nil]

/-- Of its own cycle an item goes ahead of one of a higher number. -/
theorem rowInsert_first {y it : RowItem} (rest : List RowItem) (cycle : y.arrival = it.arrival) (lower : it.key < y.key) :
    rowInsert (y :: rest) it = it :: y :: rest := by
  simp [rowInsert, cycle, lower]

/-! ## The front of a row -/

/-- The conversation as the item at the front of its row finds it. -/
theorem State.homed_rest {x : Conv} (entry : s.conv cid = some x) (home : x.home = s.nodeId) (rest : List RowItem) :
    (s.modConv cid fun y => { y with row := rest }).homed cid = .ok { x with row := rest } :=
  State.homed_of (State.conv_modConv_of entry _) home

/-- A command at the front passes with the row behind it (R64). -/
theorem exec_gateRowPass_cmd {x : Conv} {c : Cmd} {ctx : CmdCtx} {rest : List RowItem} (entry : s.conv cid = some x)
    (row : x.row = .cmd c ctx :: rest) (front : s.FrontPasses cid (.cmd c ctx)) :
    exec (.gateRowPass cid) s = .next ((s.modConv cid fun y => { y with row := rest }).passCommand cid c ctx) := by
  have free := List.any_eq_false.mpr fun k hk => Bool.not_eq_true _ ▸ front.ahead k hk
  have rowed : (s.conv cid).map (·.row) = some (.cmd c ctx :: rest) := by rw [entry, Option.map_some, row]
  rw [exec_gateRowPass, execGateRowPass, State.passRow]
  simp only [front.gateFirst, front.opens, rowed, front.held, free, Option.isSome_none, Bool.or_self, Bool.false_eq_true, if_false]

/-- An append at the front passes likewise; one that passes leaves the row (R64). -/
theorem exec_gateRowPass_append {x : Conv} {a : Append} {rest : List RowItem} {u : State} (entry : s.conv cid = some x)
    (row : x.row = .append a :: rest) (front : s.FrontPasses cid (.append a))
    (passes : (s.modConv cid fun y => { y with row := rest }).passAppend a = (true, u)) : exec (.gateRowPass cid) s = .next u := by
  have free := List.any_eq_false.mpr fun k hk => Bool.not_eq_true _ ▸ front.ahead k hk
  have rowed : (s.conv cid).map (·.row) = some (.append a :: rest) := by rw [entry, Option.map_some, row]
  rw [exec_gateRowPass, execGateRowPass, State.passRow]
  simp only [front.gateFirst, front.opens, rowed, front.held, free, passes, Option.isSome_none, Bool.or_self, Bool.false_eq_true, if_false]

/-- An append of the holder whose token index leaves a gap is held aside (R75). -/
theorem State.passAppend_wait {x : Conv} {a : Append} (homed : s.homed a.cid = .ok x) (entry : s.conv a.cid = some x)
    (guard : s.guard x onlyOpen = none) (lease : x.lease = some a.key) (gap : x.judge a = .wait) :
    s.passAppend a = (true, s.modConv a.cid fun c => { c with held := c.held ++ [a] }) := by
  have kept : ¬ ((decide (x.lease = some a.key) && ((s.guard x onlyOpen).isSome || x.judge a != TokenCheck.wait)) = true) := by
    simp [guard, gap]
  unfold State.passAppend
  simp only [homed]
  rw [if_neg kept]
  simp only [guard, State.leaseCheck_holder entry lease, gap]

/-- Settles O30: a row that is not empty, the place in it, an idle gate, and a command or an append at the front of a row. -/
theorem gateRow : Obligations.GateRow := by
  refine ⟨?_, fun row it => ⟨rowInsert_last, ?_⟩, fun s cid => State.gateFirst_of_none, ?_, ?_⟩
  · intro s t c d ctx x h empty entry home waits commit lease held
    rw [exec_convSeal, execConvSeal, h.onArrive, State.noPayload_nil empty, State.throughGate_row entry home waits commit lease held]
  · rintro y rest rfl cycle lower
    exact rowInsert_first rest cycle lower
  · rintro s t cid x c ctx rest entry row home front rfl
    have homed := State.homed_rest entry home rest
    have ran := exec_gateRowPass_cmd entry row front
    refine ⟨fun op empty guard => ?_, fun op guard lease => ?_⟩
    · rw [ran, State.passCommand, op]
      refine congrArg _ ((State.statAt_eq homed guard).trans ?_)
      rw [if_pos (by simp [empty])]
      rfl
    · obtain ⟨v, y, sealed, hy, e⟩ := State.sealAt_holder (ctx := ctx) homed (State.conv_modConv_of entry _) guard lease
      refine ⟨v, y, ?_, hy, (congrArg Conv.state e :), (congrArg Conv.row e :), (congrArg Conv.committed e :)⟩
      rw [ran, State.passCommand, op]
      exact congrArg _ sealed
  · rintro s cid x a rest entry rfl row home front guard lease gap
    refine exec_gateRowPass_append entry row front ?_
    rw [State.passAppend_wait (State.homed_rest entry home rest) (State.conv_modConv_of entry _) guard lease gap, State.modConv_modConv]

end Sys2Proof.Machine
end

section
/-! SUPPORT. How appends end (R78, R79, R81, R83, R419, R600): the commit, the lease's expiry, and the two timeouts. -/

namespace Sys2Proof.Machine

variable {s t : State} {cid : Nat}

/-! ## The commit (R78, R79) -/

theorem setAt_eq_set {α : Type} (l : List α) (n : Nat) (v : α) : setAt l n v = l.set n v := by
  induction l generalizing n with
  | nil => cases n <;> rfl
  | cons x l ih =>
    cases n with
    | zero => rfl
    | succ n => rw [setAt, List.set_cons_succ, ih]

/-- Some places of a list set to one value: each of them reads so, every other as before. -/
theorem getD_foldl_setAt (v d : Nat) (places : List Nat) (l : List Nat) {k : Nat} (hk : k < l.length) :
    (places.foldl (fun l i => setAt l i v) l).getD k d = if k ∈ places then v else l.getD k d := by
  induction places generalizing l with
  | nil => simp
  | cons i places ih =>
    rw [List.foldl_cons, ih (setAt l i v) (by simpa using hk)]
    by_cases e : k = i
    · simp [e ▸ hk, setAt_eq_set, e]
    · simp [setAt_eq_set, e, Ne.symm e]

/-- The append that commits next has every twin write acknowledged and is the next token of each of its layers (R78). -/
theorem Conv.committable_spec {x : Conv} {a : Append} (h : x.committable = some a) :
    a.unacked = 0 ∧ ∀ ly ∈ a.layers, x.committed.getD ly 0 = a.token := by
  have := List.find?_some h
  simpa [List.all_eq_true] using this

/-- A commit makes the layers of its append one token longer and leaves the others (R79). -/
theorem Conv.commit_committed (x : Conv) (a : Append) {ly : Nat} (h : ly < x.committed.length) :
    (x.commit a).committed.getD ly 0 = if ly ∈ a.layers then a.token + 1 else x.committed.getD ly 0 :=
  getD_foldl_setAt _ _ _ _ h

/-- The state after a commit, its answer apart. -/
def State.committedState (s : State) (cid : Nat) (a : Append) : State :=
  ((s.takeAcks cid).modConv cid fun c => c.commit a).releaseSlot a

theorem State.commitAppend_eq {x : Conv} {a : Append} (entry : (s.takeAcks cid).conv cid = some x) (next : x.committable = some a) :
    s.commitAppend cid = (s.committedState cid a).answerAppend a { status := Status.ok, p0 := a.token + 1 + 2 ^ 32 * a.layerCount } := by
  simp only [State.commitAppend, entry, next]
  rfl

theorem State.conv_committedState {x : Conv} (entry : (s.takeAcks cid).conv cid = some x) (a : Append) :
    (s.committedState cid a).conv cid = some (x.commit a) := by
  rw [State.committedState, State.conv_of_convs (State.releaseSlot_convs ..), State.conv_modConv_of entry]

theorem State.committedState_frame (a : Append) : SameBut [.convs, .net, .regions] s (s.committedState cid a) := by
  unfold State.committedState State.releaseSlot
  refine SameBut.of fun p => ?_
  split <;> cases p <;> simp [Part.Same, State.takeAcks]

/-! ## The lease's expiry (R81, R83) -/

theorem State.leaseDue_of {x : Conv} {q : Nat} (entry : s.conv cid = some x) (lease : x.lease = some q) (out : x.leaseExpiry ≤ s.now) :
    s.leaseDue cid = true := by
  simp [State.leaseDue, entry, lease, out]

/-- A lease that has run out ends where no commit is due. -/
theorem State.expireLease_due (commit : s.commitDue cid = false) (due : s.leaseDue cid = true) : s.expireLease cid = s.endLease cid := by
  simp only [State.expireLease, State.applyCommits_of_none commit, due, if_true]

/-- A lease that has not stays. -/
theorem State.expireLease_none (commit : s.commitDue cid = false) (lease : s.leaseDue cid = false) : s.expireLease cid = s := by
  simp only [State.expireLease, State.applyCommits_of_none commit, lease, Bool.false_eq_true, if_false]

/-- Who held a lease that has ended is still to be told (R85). -/
theorem Conv.mem_unleased_lostLease {x : Conv} {q : Nat} (lease : x.lease = some q) : q ∈ x.unleased.lostLease := by
  simp only [Conv.unleased, lease]
  exact mem_addOnce_self _ q

/-! ## The timeouts (R419, R600) -/

/-- The state after a held append has waited too long, its refusal apart. -/
def State.gapState (s : State) (cid uid : Nat) : State :=
  (s.modConv cid fun c => { c with held := c.held.filter fun x => x.uid != uid }).bump Ctr.gapTimeout

theorem exec_gapTimeout_due {uid : Nat} {x : Conv} {a : Append} (entry : s.conv cid = some x)
    (held : (x.held.find? fun b => b.uid == uid) = some a) (out : a.arrival + 5000000 ≤ s.now) (commit : s.commitDue cid = false)
    (lease : s.leaseDue cid = false) (gap : s.heldNext cid = none) :
    exec (.gapTimeout cid uid) s = .next ((s.gapState cid uid).refuseAppend a (Ans.miss Reason.gapTimeout)) := by
  have found : ((s.conv cid).bind fun c => c.held.find? fun b => b.uid == uid) = some a := by rw [entry]; exact held
  have still : ((s.conv cid).map fun c => c.held.any fun b => b.uid == uid).getD false = true := by
    rw [entry]
    exact List.any_eq_true.mpr ⟨a, List.mem_of_find?_eq_some held, (List.find?_some held :)⟩
  rw [exec_gapTimeout, execGapTimeout]
  simp only [found, ge_iff_le, if_pos out, State.gateFirst_of_none commit lease gap, if_pos still]
  rfl

/-- The appends that a twin timeout takes with it: the later ones of a layer of the append (R419). -/
def Append.before (a b : Append) : Bool := decide (b.token > a.token) && b.layers.any fun l => a.layers.contains l

theorem Append.before_iff (a b : Append) : a.before b = true ↔ a.token < b.token ∧ ∃ ly ∈ b.layers, ly ∈ a.layers := by
  simp [Append.before]

/-- A conversation after a twin timeout: the append and all that it takes with it are gone. -/
def Conv.timedOut (c : Conv) (uid : Nat) (a : Append) : Conv :=
  { c with passed := (c.passed.filter fun x => x.uid != uid).filter fun x => !a.before x, held := c.held.filter fun x => !a.before x }

theorem exec_twinTimeout_due {uid : Nat} {x : Conv} {a : Append} (entry : s.conv cid = some x)
    (passed : (x.passed.find? fun b => b.uid == uid) = some a) (out : a.passedAt + 5000000 ≤ s.now) :
    ∃ u : State, exec (.twinTimeout cid uid) s = .next u ∧ u.conv cid = some (x.timedOut uid a) := by
  have found : ((s.conv cid).bind fun c => c.passed.find? fun b => b.uid == uid) = some a := by rw [entry]; exact passed
  rw [exec_twinTimeout, execTwinTimeout]
  simp only [found, ge_iff_le, if_pos out]
  refine ⟨_, rfl, ?_⟩
  rw [State.conv_of_convs (State.reopenPages_convs ..), State.conv_discardAppends_self, State.conv_of_convs (State.refuseAppend_convs ..),
    State.conv_modConv_of entry]
  rfl

/-- Settles O32: the commit by its state before the answer, the expiry by the end of the lease, and the two timeouts. -/
theorem appendEnds : Obligations.AppendEnds := by
  refine ⟨?_, ?_, ?_, ?_⟩
  · intro s cid x a entry next
    obtain ⟨acked, first⟩ := Conv.committable_spec next
    refine ⟨acked, first, s.committedState cid a, x.commit a, ?_, State.conv_committedState entry a,
      fun ly h => Conv.commit_committed x a h, rfl, State.committedState_frame a⟩
    rw [exec_appendCommit, execAppendCommit, State.commitAppend_eq entry next]
  · intro s cid q x entry lease out commit
    refine ⟨s.endLease cid, x.unleased, ?_, ?_, rfl, Conv.mem_unleased_lostLease lease, rfl, rfl, rfl, rfl⟩
    · rw [exec_leaseExpiry, execLeaseExpiry, State.expireLease_due commit (State.leaseDue_of entry lease out)]
    · rw [State.conv_endLease_self, entry, Option.map_some]
  · intro s cid uid x a entry held out commit lease gap
    refine ⟨s.gapState cid uid, exec_gapTimeout_due entry held out commit lease gap, ?_, ?_⟩
    · rw [State.gapState, State.conv_of_convs (State.bump_convs ..), State.conv_modConv_of entry]
    · exact SameBut.of fun p => by cases p <;> simp [Part.Same, State.gapState]
  · intro s cid uid x a entry passed out
    obtain ⟨u, ran, left⟩ := exec_twinTimeout_due entry passed out
    have mem : ∀ b, b ∈ (x.timedOut uid a).passed ↔ (b ∈ x.passed ∧ b.uid ≠ uid) ∧
        ¬ (a.token < b.token ∧ ∃ ly ∈ b.layers, ly ∈ a.layers) := by
      intro b
      rw [← Append.before_iff, Conv.timedOut, List.mem_filter, List.mem_filter, bne_iff_ne, Bool.not_eq_true', Bool.not_eq_true]
    refine ⟨u, _, ran, left, rfl, fun b hb => ?_, fun b hb other alone => (mem b).mpr ⟨⟨hb, other⟩, alone⟩⟩
    obtain ⟨⟨old, other⟩, alone⟩ := (mem b).mp hb
    exact ⟨old, other, alone⟩

end Sys2Proof.Machine
end

section
/-! SUPPORT. How appends arrive (R68 to R79, R742): by command, by window, and from behind a gap. -/

namespace Sys2Proof.Machine

variable {s t : State} {cid : Nat}

/-! ## No fault armed -/

theorem State.Quiet.none_hits (q : s.Quiet) (f : InjSlot → Bool) (busy : ∀ x, f x = true → x.busy = true) : s.regs.inj.findIdx? f = none := by
  refine List.findIdx?_eq_none_iff.mpr fun x hx => ?_
  cases e : f x with
  | false => rfl
  | true => exact absurd ((q x hx).symm.trans (busy x e)) (by decide)

theorem InjSlot.busy_of_hits {x : InjSlot} {now b p : Nat} (h : x.hits now b p = true) : x.busy = true := by
  simp only [InjSlot.hits, Bool.and_eq_true] at h
  exact h.1.1.1

theorem State.Quiet.injected (q : s.Quiet) (b p : Nat) : s.injected b p = (none, s) := by
  rw [State.injected, q.none_hits _ fun _ => InjSlot.busy_of_hits]

theorem State.Quiet.unitStruck (q : s.Quiet) (u k : Nat) : s.unitStruck u k = (false, s) := by
  rw [State.unitStruck, q.none_hits]
  intro x h
  rw [Bool.and_eq_true] at h
  exact InjSlot.busy_of_hits h.1

theorem State.Quiet.checkStruck (q : s.Quiet) (b p u : Nat) : s.checkStruck b p u = (false, s) := by
  rw [State.checkStruck, q.injected]
  exact q.unitStruck u 3

theorem State.Quiet.sramRead (q : s.Quiet) (b p d : Nat) : s.sramRead b p d = (true, s) := by
  rw [State.sramRead, q.injected]

/-- No packet is lost on its way. -/
theorem State.Quiet.wireOk (q : s.Quiet) (i : Nat) : s.wireOk i = (true, s) := by
  have lanes : ∀ l : List Nat, l.foldl (fun (acc : Bool × State) lane =>
      ((acc.1 && (acc.2.injected Blk.net lane).1 != some 1, (acc.2.injected Blk.net lane).2) : Bool × State)) (true, s) = (true, s) := by
    intro l
    induction l with
    | nil => rfl
    | cons n l ih => rw [List.foldl_cons, q.injected]; exact ih
  unfold State.wireOk
  simp only [lanes, q.sramRead, q.injected]
  rfl

/-! ## An append that passes its gate (R73, R81, R742) -/

/-- What of a conversation an append's freeze looks at is what its pages, its layout and its lengths say: neither its lease's time nor
its held appends nor its row. -/
theorem State.CanFreeze.of_entry {x y : Conv} {a : Append} {l : Layout} (h : s.CanFreeze x a l) (tiers : t.tiers = s.tiers)
    (regs : t.regs = s.regs) (free : t.avail .hot = s.avail .hot) (attn : t.attn = s.attn) (recover : t.recover = s.recover) (layout : y.layout = x.layout)
    (judged : y.judge a = x.judge a) (pages : y.pages = x.pages) (twin : y.twin = x.twin) : t.CanFreeze y a l := by
  have new : y.newPages l a = x.newPages l a := by simp only [Conv.newPages, Conv.pageAt, pages]
  have waiters : t.hotWaiters = s.hotWaiters := by simp only [State.hotWaiters, tiers]
  refine ⟨?_, judged.trans h.judged, ?_, ?_, ?_, ?_, ?_⟩
  · rw [State.layout, attn, layout]
    exact h.layout
  · rw [← h.noWait]
    simp only [State.waitsHot, Conv.pageAt, State.page, pages, tiers]
  · rw [new, free, regs]
    exact h.grow
  · obtain ⟨j, hj, room⟩ := h.twin
    exact ⟨j, twin.trans hj, by rw [new, State.partner, recover]; exact room⟩
  · rw [← h.twinned]
    simp only [State.twinless, Conv.pageAt, State.page, pages, tiers]
  · rw [new, State.allocatable, free, waiters]
    exact h.room

/-- The state after an append has been frozen: it waits for its twin writes. -/
def State.frozenAppend (s : State) (a : Append) (l : Layout) : State :=
  (s.freezeAppend a l).2.modConv a.cid fun c =>
    { c with
      passed := c.passed ++ [{ a with passedAt := (s.freezeAppend a l).2.now, unacked := (s.freezeAppend a l).1 }]
      lastTwinWrite := (s.freezeAppend a l).2.now }

/-- An append of the holder that can be frozen passes its gate, and renews the lease (R81). -/
theorem State.passAppend_freezes {x : Conv} {a : Append} {l : Layout} (homed : s.homed a.cid = .ok x) (entry : s.conv a.cid = some x)
    (guard : s.guard x onlyOpen = none) (lease : x.lease = some a.key) (can : s.CanFreeze x a l) :
    s.passAppend a = (true, (s.renewLease a.cid).frozenAppend a l) := by
  have passes : (decide (x.lease = some a.key) && ((s.guard x onlyOpen).isSome || x.judge a != TokenCheck.wait)) = true := by
    simp [lease, can.judged]
  have renewed : (s.renewLease a.cid).conv a.cid = some { x with leaseExpiry := s.now + 5000000 } := State.conv_modConv_of entry _
  have can' : (s.renewLease a.cid).CanFreeze x a l := can.of_entry rfl rfl rfl rfl rfl rfl rfl rfl rfl
  have guard' : (s.renewLease a.cid).guard x onlyOpen = none := guard
  have grown : ¬ (decide ((x.newPages l a).length > 0) &&
      decide ((s.renewLease a.cid).avail .hot ≤ (s.renewLease a.cid).regs.hotGrowMark)) = true := by
    rcases can'.grow with none_new | above
    · simp [none_new]
    · simp [Nat.not_le.mpr above]
  obtain ⟨j, twin, granted⟩ := can'.twin
  have twinned : ¬ (decide ((x.newPages l a).length > (((s.renewLease a.cid).partner j).map (·.grantsFree.length)).getD 0) ||
      (s.renewLease a.cid).twinless x l a) = true := by
    simp [can'.twinned, granted]
  unfold State.passAppend
  simp only [homed]
  rw [if_pos passes]
  simp only [guard', State.leaseCheck_holder renewed lease, can'.judged, can'.layout, can'.noWait, if_neg grown, twin, if_neg twinned,
    if_neg (Nat.not_lt.mpr can'.room), Bool.false_eq_true, if_false]
  rfl

/-- A frozen append is the last of those that have passed; its conversation's lengths, its lease and all other conversations stay. -/
theorem State.conv_frozenAppend {x : Conv} {a : Append} (entry : s.conv a.cid = some x) (l : Layout) :
    ∃ (y : Conv) (n : Nat), (s.frozenAppend a l).conv a.cid = some y ∧ y.passed = x.passed ++ [{ a with passedAt := s.now, unacked := n }] ∧
      y.committed = x.committed ∧ y.held = x.held ∧ y.lease = x.lease ∧ y.leaseExpiry = x.leaseExpiry ∧
      ∀ k, k ≠ a.cid → (s.frozenAppend a l).conv k = s.conv k := by
  have kept := s.freezeAppend_keeps a l
  obtain ⟨z, hz, e⟩ := kept.own x entry
  have passed : z.passed = x.passed := (congrArg Conv.passed e :)
  have now : (s.freezeAppend a l).2.now = s.now := State.now_of_clk (s.freezeAppend_clk a l)
  refine ⟨_, (s.freezeAppend a l).1, State.conv_modConv_of hz _, by rw [passed, now], (congrArg Conv.committed e :),
    (congrArg Conv.held e :), (congrArg Conv.lease e :), (congrArg Conv.leaseExpiry e :), fun k hk => ?_⟩
  exact (State.conv_modConv_ne _ hk).trans (kept.others k hk)

/-! ## By command (R72, R419) -/

/-- The append that a command's payload and trailer say. -/
def State.inlined (s : State) (c : Cmd) (ctx : CmdCtx) : Append :=
  { s.makeAppend (srcKey ctx.src) 0 0 0 (some ctx) (c.payload.take (c.payload.length - 32)) (c.payload.drop (c.payload.length - 32)) with
    cid := c.hdr.cid }

/-- What R742 refuses of it. -/
def State.inlineRefusal (s : State) (c : Cmd) (ctx : CmdCtx) : Option (Ans × Bool) :=
  let n := c.payload.length - 32
  let tr := c.payload.drop n
  s.appendRefusal (s.inlined c ctx) tr n (fieldAt tr 16 4 == n)
    ((s.inlined c ctx).crc.toNat == crc32c (c.payload.take n ++ tr.take 28)) (fieldAt tr 0 6 == c.hdr.cid && fieldAt tr 6 1 == 0)

/-- With no fault armed an append that a command carries is refused so, or comes to its row. -/
theorem State.Quiet.inlineAppend {c : Cmd} (q : s.Quiet) (long : 32 ≤ c.payload.length) (ctx : CmdCtx) :
    s.inlineAppend c ctx = match s.inlineRefusal c ctx with
      | some x => s.refuseTrailer (s.inlined c ctx) x false
      | none => s.rowAppend (s.inlined c ctx) true := by
  simp only [State.inlineAppend, if_neg (Nat.not_lt.mpr long), q.checkStruck, Bool.false_eq_true, if_false]
  rfl

/-- At a gate where nothing waits an append that a command carries passes at once. -/
theorem State.AtGate.rowAppend {x : Conv} {a : Append} {src : Src} {u : State} (gate : s.AtGate a.cid x onlyOpen src) (key : a.key = srcKey src)
    (passes : (s.modNet fun n => { n with nextWait := n.nextWait + 1 }).passAppend a = (true, u)) : s.rowAppend a true = u := by
  obtain ⟨-, -, held, first⟩ := State.gateClear_iff.mp gate.clear
  have held' : (s.modNet fun n => { n with nextWait := n.nextWait + 1 }).heldNext a.cid = none := held
  have first' : (s.modNet fun n => { n with nextWait := n.nextWait + 1 }).ahead a.cid (a.key + 1) = false := key ▸ first
  have short : ¬ ([] : List RowItem).length ≥ 256 := by decide
  simp only [State.rowAppend, State.gateFirst_of_clear gate.clear, gate.homed, gate.row, if_neg short, List.isEmpty_nil, held', first', passes,
    Option.isNone_none, Bool.not_false, Bool.and_self, if_true]

/-! ## From behind a gap (R64) -/

/-- The only held append passes next where its gap is filled. -/
theorem State.heldNext_single {x : Conv} {a : Append} (entry : s.conv cid = some x) (held : x.held = [a]) (filled : x.judge a ≠ .wait) :
    s.heldNext cid = some a := by
  have kept : x.held.filter (fun b => x.judge b != .wait) = [a] := by simp [held, filled]
  simp only [State.heldNext, entry, Option.bind_some, kept]
  rfl

/-- A held append that passes leaves those that are held. -/
theorem exec_heldAppendPass_due {a : Append} {u : State} (commit : s.commitDue cid = false) (lease : s.leaseDue cid = false)
    (first : s.ahead cid 1 = false) (next : s.heldNext cid = some a)
    (passes : (s.modConv cid fun c => { c with held := c.held.filter fun b => b.uid != a.uid }).passAppend a = (true, u)) :
    exec (.heldAppendPass cid) s = .next u := by
  rw [exec_heldAppendPass, execHeldAppendPass, State.expireLease_none commit lease]
  simp only [first, State.passHeld, next, passes, Bool.false_eq_true, if_false, if_true]

/-! ## By window (R67 to R71) -/

/-- A write to a region changes the bytes of its frames, and what protects them. -/
theorem State.writeRegion_frame (r : Region) (off : Nat) (bs : List Byte) : SameBut [.tiers, .mem] s (s.writeRegion r off bs) := by
  have pieces : ∀ (l : List Nat) (u : State), SameBut [.tiers, .mem] u (l.foldl (fun s k =>
      let fr := off / 65536 + k
      let lo := max off (fr * 65536)
      let hi := min (off + bs.length) ((fr + 1) * 65536)
      match r.frames[fr]? with
      | none => s
      | some f => s.writeFrame r.tier f (lo - fr * 65536) (slice bs (lo - off) (hi - lo))) u) := by
    intro l
    induction l with
    | nil => exact fun u => SameBut.refl _ u
    | cons k l ih =>
      refine fun u => SameBut.trans (SameBut.of fun p => ?_) (ih _)
      dsimp only
      split <;> cases p <;> simp [Part.Same]
  exact pieces _ s

/-- The state after a window write has been placed and acknowledged. -/
def State.placeWindow (s : State) (qp : Nat) (r : Region) (slot : Nat) (payload trailer : List Byte) : State :=
  ((s.writeRegion r (slot * r.slotBytes) payload).writeRegion r ((slot + 1) * r.slotBytes - 32) trailer).ackMessage qp r.slotBytes

/-- A QP in RTS has an entry, so a change of it is read back. -/
theorem State.qp_modQp_self {i : Nat} (up : s.rts i = true) (f : Qp → Qp) : (s.modQp i f).qp i = f (s.qp i) := by
  cases e : Table.get s.net.qps i with
  | none => simp [State.rts, State.qp, Table.getD, e] at up
  | some q => simp [State.qp, State.modQp, Table.getD, Table.get_modify_self, e]

theorem State.modQp_frame (i : Nat) (f : Qp → Qp) : SameBut [.net] s (s.modQp i f) :=
  SameBut.of fun p => by cases p <;> simp [Part.Same]

theorem State.sendControl_frame (i : Nat) (op : WireOp) : SameBut [.net] s (s.sendControl i op) :=
  SameBut.of fun p => by cases p <;> simp [Part.Same]

theorem State.ackMessage_frame (i n : Nat) : SameBut [.net] s (s.ackMessage i n) :=
  (s.modQp_frame i _).trans (State.sendControl_frame i _)

/-- An acknowledgement moves the expected PSN of its QP on, and counts and awaits what it did. -/
theorem State.ackMessage_net (i n : Nat) : (s.ackMessage i n).net.nextWait = s.net.nextWait ∧ (s.ackMessage i n).net.acked = s.net.acked ∧
    (s.rts i = true → ∃ psn, (s.ackMessage i n).qp i = { s.qp i with rqPsn := psn, nakSent := false }) :=
  ⟨rfl, rfl, fun up => ⟨((s.qp i).rqPsn + packets n (s.qp i).mtu) % 2 ^ 24, State.qp_modQp_self up _⟩⟩

/-- Two states at whose gates the same is found: they differ in bytes and in the transport, but not in what it has acknowledged. -/
structure State.SameGate (s t : State) : Prop where
  frame : SameBut [.tiers, .mem, .net] s t
  nextWait : t.net.nextWait = s.net.nextWait
  acked : t.net.acked = s.net.acked

namespace State.SameGate

theorem trans {u : State} (h : s.SameGate t) (k : t.SameGate u) : s.SameGate u :=
  ⟨h.frame.trans k.frame, k.nextWait.trans h.nextWait, k.acked.trans h.acked⟩

theorem modQp (i : Nat) (f : Qp → Qp) : s.SameGate (s.modQp i f) := ⟨(s.modQp_frame i f).mono (by decide), rfl, rfl⟩

variable (h : s.SameGate t)
include h

theorem convs : t.convs = s.convs := h.frame .convs (by decide)
theorem now : t.now = s.now := State.now_of_clk (h.frame .clk (by decide))
theorem node : t.node = s.node := h.frame .node (by decide)
theorem quiet (q : s.Quiet) : t.Quiet := by
  have regs : t.regs = s.regs := h.frame .regs (by decide)
  rw [State.Quiet, regs]
  exact q
theorem conv (k : Nat) : t.conv k = s.conv k := State.conv_of_convs h.convs k
theorem nodeId : t.nodeId = s.nodeId := by rw [State.nodeId, h.node, State.nodeId]

theorem homed (k : Nat) : t.homed k = s.homed k := by
  have recover : t.recover = s.recover := h.frame .recover (by decide)
  simp only [State.homed, State.notOwner, h.conv, h.nodeId, recover]

theorem layout (k : Nat) : t.layout k = s.layout k := by
  have attn : t.attn = s.attn := h.frame .attn (by decide)
  rw [State.layout, attn, State.layout]

theorem appendRefusal (a : Append) (tr : List Byte) (n : Nat) (b c d : Bool) : t.appendRefusal a tr n b c d = s.appendRefusal a tr n b c d := by
  simp only [State.appendRefusal, h.homed, h.layout]

theorem commitDue (k : Nat) : t.commitDue k = s.commitDue k := by
  have acks : (t.takeAcks k).conv k = (s.takeAcks k).conv k := by
    simp only [State.takeAcks, State.conv_modConv_self, h.acked]
    exact congrArg _ (h.conv k)
  rw [State.commitDue, acks, State.commitDue]

theorem leaseDue (k : Nat) : t.leaseDue k = s.leaseDue k := by simp only [State.leaseDue, h.conv, h.now]

theorem heldNext (k : Nat) : t.heldNext k = s.heldNext k := by rw [State.heldNext, h.conv, State.heldNext]

end State.SameGate

theorem State.placeWindow_placed {qp : Nat} (up : s.rts qp = true) (r : Region) (slot : Nat) (payload trailer : List Byte) :
    s.SameGate (s.placeWindow qp r slot payload trailer) ∧
      ∃ psn, (s.placeWindow qp r slot payload trailer).qp qp = { s.qp qp with rqPsn := psn, nakSent := false } := by
  have written := ((s.writeRegion_frame r (slot * r.slotBytes) payload).trans
    (State.writeRegion_frame r ((slot + 1) * r.slotBytes - 32) trailer))
  unfold State.placeWindow
  generalize (s.writeRegion r (slot * r.slotBytes) payload).writeRegion r ((slot + 1) * r.slotBytes - 32) trailer = v at written ⊢
  have net : v.net = s.net := written .net (by decide)
  obtain ⟨wait, acked, psn⟩ := v.ackMessage_net qp r.slotBytes
  have same : v.qp qp = s.qp qp := by rw [State.qp, net, State.qp]
  refine ⟨⟨(written.mono (by decide)).trans ((v.ackMessage_frame qp r.slotBytes).mono (by decide)), by rw [wait, net], by rw [acked, net]⟩, ?_⟩
  rw [← same]
  exact psn (by rw [State.rts, same]; exact up)

/-- A window write that its QP may make is placed and acknowledged, and its ticket is judged (R465, R466, R477). -/
theorem exec_windowAppend_placed {qp psn slot : Nat} {w : W64} {tk : W32} {data tr : List Byte} {r : Region} (q : s.Quiet)
    (takes : s.takesCommands = true) (up : s.rts qp = true) (order : psnClass (s.qp qp).rqPsn psn = .expected) (entry : s.region w = some r)
    (window : r.window = true) (own : r.qp = qp) (slots : slot < r.slots) (live : r.state = .live) :
    exec (.windowAppend ⟨qp, psn⟩ w slot tk data tr) s = .next ((s.placeWindow qp r slot data tr).takeTicket qp w r slot tk data tr) := by
  have mine : ¬ (!r.window || r.qp != qp || decide (slot ≥ r.slots)) = true := by simp [window, own, slots]
  have alive : ¬ (r.state != RegionState.live) = true := by simp [live]
  rw [exec_windowAppend, execWindowAppend, State.windowWrite]
  simp only [takes, up, q.wireOk, State.inOrder, order, entry, if_neg mine, if_neg alive, Bool.not_true, Bool.or_self, Bool.false_eq_true,
    if_false]
  rfl

theorem State.counter_bump_self (c : CtrId) : (s.bump c).counter c = min (s.counter c + 1) (2 ^ 64 - 1) := by
  rw [State.bump, State.bumpBy, if_neg (by decide), State.counter, Table.getD, Table.get_set_self, Option.getD_some]

/-- A ticket that does not name its slot and generation is counted, and its append is none (R70). -/
theorem State.takeTicket_stale {qp slot : Nat} {w : W64} {tk : W32} {data tr : List Byte} {r : Region}
    (stale : tk.toNat % 2 ^ 24 ≠ slot ∨ tk.toNat / 2 ^ 24 ≠ Table.getD r.generations slot 0 ∨ fieldAt tr 6 1 ≠ tk.toNat / 2 ^ 24) :
    s.takeTicket qp w r slot tk data tr = s.bump Ctr.appendStale := by
  rw [State.takeTicket]
  refine if_pos ?_
  simpa [Bool.or_eq_true, or_assoc] using stale

/-- The state after a window's append has been counted against its QP's slots (R374). -/
def State.countAppend (s : State) (qp : Nat) : State := s.modQp qp fun q => { q with outstanding := q.outstanding + 1 }

/-- One that does and is not refused comes to its gate row (R69 to R71, R742). -/
theorem State.takeTicket_row {qp slot : Nat} {w : W64} {tk : W32} {data tr : List Byte} {r : Region} (q : s.Quiet)
    (good : ¬ (tk.toNat % 2 ^ 24 ≠ slot ∨ tk.toNat / 2 ^ 24 ≠ Table.getD r.generations slot 0 ∨ fieldAt tr 6 1 ≠ tk.toNat / 2 ^ 24))
    (room : (s.qp qp).outstanding < (s.qp qp).slots) (legal : LegalIn.holds .svc s.node.state = true)
    (taken : let a := (s.countAppend qp).makeAppend qp w slot tk none (data.take (fieldAt tr 16 4)) tr
      (s.countAppend qp).appendRefusal a tr (fieldAt tr 16 4) (decide (fieldAt tr 16 4 ≤ r.slotBytes - 32))
        (a.crc.toNat == crc32c (data.take (fieldAt tr 16 4) ++ tr.take 28)) true = none) :
    s.takeTicket qp w r slot tk data tr =
      (s.countAppend qp).rowAppend ((s.countAppend qp).makeAppend qp w slot tk none (data.take (fieldAt tr 16 4)) tr) false := by
  have fresh : ¬ (tk.toNat % 2 ^ 24 != slot || tk.toNat / 2 ^ 24 != Table.getD r.generations slot 0 ||
      fieldAt tr 6 1 != tk.toNat / 2 ^ 24) = true := by
    simpa [Bool.or_eq_true, or_assoc] using good
  have quiet : (s.countAppend qp).Quiet := q
  have same : LegalIn.holds .svc (s.countAppend qp).node.state = true := legal
  have lawful : ¬ (!LegalIn.holds .svc (s.countAppend qp).node.state) = true := by simp [same]
  unfold State.countAppend at *
  rw [State.takeTicket, if_neg fresh, if_neg (Nat.not_le.mpr room)]
  dsimp only
  rw [if_neg lawful, quiet.checkStruck]
  simp only [Bool.false_eq_true, if_false]
  rw [taken]

/-- The state after an append has taken its place in its row. -/
def State.rowed (s : State) (a : Append) : State :=
  (s.modNet fun n => { n with nextWait := n.nextWait + 1 }).modConv a.cid fun c => { c with row := rowInsert c.row (.append a) }

theorem State.conv_rowed {x : Conv} {a : Append} (entry : s.conv a.cid = some x) :
    (s.rowed a).conv a.cid = some { x with row := rowInsert x.row (.append a) } :=
  State.conv_modConv_of (s := s.modNet fun n => { n with nextWait := n.nextWait + 1 }) entry _

theorem State.qp_rowed (a : Append) (i : Nat) : (s.rowed a).qp i = s.qp i := rfl

theorem State.rowed_frame (a : Append) : SameBut [.net, .convs] s (s.rowed a) :=
  SameBut.of fun p => by cases p <;> simp [Part.Same, State.rowed]

/-- An append of a window waits at its row, wherever that is (R62). -/
theorem State.rowAppend_row {x : Conv} {a : Append} (entry : s.conv a.cid = some x) (home : x.home = s.nodeId) (room : x.row.length < 256)
    (commit : s.commitDue a.cid = false) (lease : s.leaseDue a.cid = false) (held : s.heldNext a.cid = none) :
    s.rowAppend a false = s.rowed a := by
  have homed := State.homed_of entry home
  simp only [State.rowAppend, State.gateFirst_of_none commit lease held, homed, if_neg (Nat.not_le.mpr room), Bool.false_and,
    Bool.false_eq_true, if_false]
  rfl

/-- Two states at whose gates the same is found make the same append of a write, where its QP has not left RTS between them. -/
theorem State.SameGate.makeAppend (h : s.SameGate t) {qp : Nat} (conn : (t.qp qp).conn = (s.qp qp).conn) (w : W64) (slot : Nat) (tk : W32)
    (c : Option CmdCtx) (data tr : List Byte) : t.makeAppend qp w slot tk c data tr = s.makeAppend qp w slot tk c data tr := by
  simp only [State.makeAppend, h.nextWait, h.now, conn]

/-- Settles O31: a command's append at an idle gate, a window's by its ticket, and the only held append whose gap is filled. -/
theorem appendArrival : Obligations.AppendArrival := by
  refine ⟨?_, ?_, ?_⟩
  · intro s t c d ctx h long quiet n tr a refusal
    have ran : exec (.convAppend c) s = .next (t.inlineAppend d ctx) := by rw [exec_convAppend, execConvAppend, h.onArrive]
    refine ⟨fun r refused => ?_, fun x l taken gate lease can => ?_⟩
    · rw [ran, quiet.inlineAppend long, show t.inlineRefusal d ctx = some r from refused]
      rfl
    · have entry : (t.modNet fun n => { n with nextWait := n.nextWait + 1 }).conv a.cid = some x := gate.entry
      have passes := State.passAppend_freezes (a := a) (s := t.modNet fun n => { n with nextWait := n.nextWait + 1 }) gate.homed entry
        gate.guard lease (can.of_entry rfl rfl rfl rfl rfl rfl rfl rfl rfl)
      have renewed := State.conv_modConv_of entry fun c => { c with leaseExpiry := t.now + 5000000 }
      obtain ⟨y, k, hy, passed, committed, held, kept, expiry, others⟩ := State.conv_frozenAppend (a := a) renewed l
      refine ⟨_, y, k, ?_, hy, passed, committed, held, kept, expiry, fun j hj => (others j hj).trans (State.conv_renewLease_ne hj)⟩
      rw [ran, quiet.inlineAppend long, show t.inlineRefusal d ctx = none from taken]
      exact congrArg _ (State.AtGate.rowAppend (a := a) gate rfl passes)
  · intro s qp psn slot w tk data tr r quiet takes up order entry window own slots live stale a len
    have ran := exec_windowAppend_placed (data := data) (tr := tr) (tk := tk) quiet takes up order entry window own slots live
    obtain ⟨gate, p, placed⟩ := State.placeWindow_placed up r slot data tr
    refine ⟨fun bad => ?_, fun x fresh room legal taken entry home short commit lease held => ?_⟩
    · refine ⟨_, ran.trans (congrArg _ (State.takeTicket_stale bad)), ?_, ?_⟩
      · have counters : (s.placeWindow qp r slot data tr).counters = s.counters := gate.frame .counters (by decide)
        rw [State.counter_bump_self, State.counter, counters, State.counter]
      · refine (gate.frame.mono (by decide)).trans (SameBut.of fun p => ?_)
        cases p <;> simp [Part.Same]
    · have counted : (s.placeWindow qp r slot data tr).SameGate ((s.placeWindow qp r slot data tr).countAppend qp) := .modQp _ _
      have same := gate.trans counted
      have up' : (s.placeWindow qp r slot data tr).rts qp = true := by rw [State.rts, placed]; exact up
      have count : ((s.placeWindow qp r slot data tr).countAppend qp).qp qp = _ := State.qp_modQp_self up' _
      have total : (((s.placeWindow qp r slot data tr).countAppend qp).qp qp).outstanding = (s.qp qp).outstanding + 1 := by rw [count, placed]
      have made := same.makeAppend (qp := qp) (by rw [count, placed]) w slot tk none (data.take (fieldAt tr 16 4)) tr
      have row := State.takeTicket_row (gate.quiet quiet) fresh (by rw [placed]; exact room) (by rw [gate.node]; exact legal)
        (by rw [made]; exact (same.appendRefusal ..).trans taken)
      rw [made] at row
      refine ⟨_, ran.trans (congrArg _ (row.trans (State.rowAppend_row (x := x) ((same.conv _).trans entry) (home.trans same.nodeId.symm) short
        ((same.commitDue _).trans commit) ((same.leaseDue _).trans lease) ((same.heldNext _).trans held)))), ?_, ?_, ?_⟩
      · exact State.conv_rowed ((same.conv _).trans entry)
      · rw [State.qp_rowed]
        exact total
      · exact (same.frame.mono (by decide)).trans ((State.rowed_frame _).mono (by decide))
  · intro s cid x a l entry home guard held own lease commit due first can
    subst own
    have emptied := State.conv_modConv_of entry fun c => { c with held := c.held.filter fun b => b.uid != a.uid }
    have passes := State.passAppend_freezes (State.homed_of emptied home) emptied guard lease (can.of_entry rfl rfl rfl rfl rfl rfl rfl rfl rfl)
    have renewed := State.conv_modConv_of emptied fun c => { c with leaseExpiry := s.now + 5000000 }
    obtain ⟨y, n, hy, passed, committed, left, -⟩ := State.conv_frozenAppend (a := a) renewed l
    refine ⟨_, y, n, exec_heldAppendPass_due commit due first (State.heldNext_single entry held (by rw [can.judged]; decide)) passes, hy,
      left.trans ?_, passed, committed⟩
    simp [held]

end Sys2Proof.Machine
end

section
/-! SUPPORT. A request that reads a page on its way out of the warm tier: the promotion that it asks for is queued behind the move,
and MOVE_QUEUED counts it (R150). -/

namespace Sys2Proof.Machine.MovingPage

/-! ## The state and the command -/

/-- One layer of one KV head with two BF16 elements, in pages of 16 tokens. -/
def layout : Layout :=
  { tpp := 0, kvHeads := 1, headDim := 2, keyFormat := 0, valueFormat := 0, latent := false, cairn := false, latentRank := 0, ropeDims := 0
    layers := 1 }

/-- A conversation of two tokens in state OPEN, which page 0 holds. -/
def conversation : Conv :=
  { pool := 2, home := 0, layout := 1, committed := [2], crcs := [[]], epoch := 1, pages := [({ layer := 0, head := 0, index := 0 }, 0)] }

/-- That page lies in warm frame 0 and is being evicted from it. -/
def page : Page :=
  { cid := 6, layout := 1, key := { layer := 0, head := 0, index := 0 }, tier := .warm, frame := 0, fill := 2, state := .moving
    moveKind := some .evictWarm }

/-- A serving node with a tenant, a host QP, 64 tiles at work, and nothing else than that conversation and its page. -/
def node : State :=
  { State.reset with
    clk := { rime := 1000000000 }
    node := { state := .serving }
    trust := { tenant := some { epoch := 3, blockBytes := [], listBytes := [], setId := 77, entries := [], secret := [] }, lastEpoch := 3 }
    attn := { State.reset.attn with
      layouts := [(1, layout)]
      tiles := (List.range 72).map fun p =>
        if p < 64 then { role := .active, power := .run, logical := some p } else { role := .spare, power := .clockStop }
      logicals := (List.range 64).map fun n => { phys := n, valid := true } }
    net := { State.reset.net with
      qps := [(0, { kind := .host, state := .rts, subscriber := 5, slots := 16, mtu := 4096, remoteAddr := 9, ringKey := 1 })] }
    convs := [(6, conversation)]
    tiers := { State.reset.tiers with pages := [(0, page)], warm := [(0, .page 0)], nextPage := 1 } }

/-- A request block: one token of one BF16 row at scale 1.0, and room for its result (R57). -/
def block : List Byte :=
  le 1 1 ++ le 1 0 ++ le 1 1 ++ le 1 0 ++ le 4 0x3F800000 ++ zeros 16 ++ le 8 256 ++ le 4 3 ++ le 4 65536 ++ zeros 104 ++
    [0x80, 0x3F, 0x80, 0x3F] ++ zeros 12

/-- ATTN_GRAZE of the conversation. -/
def command : Cmd :=
  { src := .qp 0
    hdr := ({ opcode := 0x0301, targetId := 6, tenantEpoch := 3, requestId := 40, payloadLen := BitVec.ofNat 32 block.length } : Hdr).signed
    payload := block }

/-! ## What the statement asks for -/

/-- The conditions on the command, its gate and its time. -/
def admitted (d : Cmd) (ctx : CmdCtx) (t : State) : Bool :=
  d.hdr.opcode.toNat == 0x0301 && !d.hdr.forward && t.conv d.hdr.cid == some conversation && conversation.home == t.nodeId &&
    t.gateClear d.hdr.cid (srcKey ctx.src) && t.guard conversation (fun st => openOrSealed st || st == .moving) == none &&
    t.layout conversation.layout == some layout && decide (t.now < ctx.deadline) && d.hdr.deadlineUs != 1 && d.hdr.param0 == 0 &&
    d.hdr.param1 == 0

/-- The conditions of work without waiting, for a request that names no version and no absorb region. -/
def works (t : State) (r : Req) : Bool :=
  t.layout r.layout == some layout && decide ((t.attn.reqs.filter fun x => x.2.pool == conversation.pool).length < Config.contextsPerPool) &&
    r.versions == [] && t.absorbAway r.graze == [] && r.graze.absorb == 0 && (t.stageRows r.graze layout r.layer).isSome &&
    (t.tiers.pages.all fun p => !p.2.away) && decide (t.reqNow r + t.workNs r layout false ≤ r.deadline) &&
    decide (t.reqNow r + t.estimateNs r layout ≤ r.deadline) && (List.range 64).all fun n => (t.logical n).live

theorem canWork_of_works {t : State} {r : Req} (h : works t r = true) : ∃ rows, t.CanWork conversation r layout rows := by
  simp only [works, Bool.and_eq_true, decide_eq_true_eq, beq_iff_eq, List.all_eq_true, Option.isSome_iff_exists] at h
  obtain ⟨⟨⟨⟨⟨⟨⟨⟨⟨lay, context⟩, versions⟩, away⟩, absorb⟩, rows, staged⟩, pages⟩, work⟩, time⟩, tiles⟩ := h
  refine ⟨rows, lay, context, by simp [versions], ⟨away, fun v named => absurd absorb named⟩, staged, fun pid p hp _ => ?_, work, time,
    .inr fun n hn => tiles n (List.mem_range.mpr hn)⟩
  simpa using pages _ (Table.mem_of_get hp)

/-- A command is admitted and its request can work, and its execution moves a counter. -/
def countsMove (s : State) (c : Cmd) : Bool :=
  match s.arrive 0x0301 c, exec (.attnGraze c) s with
  | (some (d, ctx), t), .next u =>
    match t.checkGraze d.payload conversation.layout layout d.hdr.layer.toNat false false none with
    | .ok g =>
      let r := t.newReq conversation d.hdr.cid d.hdr.layer.toNat ctx false false g layout
      admitted d ctx t && decide (r.parts.length < 2) && works t r && u.counters != t.counters
    | .error _ => false
  | _, _ => false

theorem node_countsMove : countsMove node command = true := by decide +kernel

/-- Such a command meets every hypothesis of the statement, and changes the counters. -/
theorem countsMove_spec {s : State} {c : Cmd} (h : countsMove s c = true) : ∃ (d : Cmd) (ctx : CmdCtx) (t u : State) (g : Graze)
    (rows : List (List Byte)), s.Accepts 0x0301 c d ctx t ∧ exec (.attnGraze c) s = .next u ∧
      t.checkGraze d.payload conversation.layout layout d.hdr.layer.toNat false false none = .ok g ∧ admitted d ctx t = true ∧
      (t.newReq conversation d.hdr.cid d.hdr.layer.toNat ctx false false g layout).parts.length < 2 ∧
      t.CanWork conversation (t.newReq conversation d.hdr.cid d.hdr.layer.toNat ctx false false g layout) layout rows ∧
      u.counters ≠ t.counters := by
  unfold countsMove at h
  split at h
  · next d ctx t u arrived ran =>
    split at h
    · next g checked =>
      simp only [Bool.and_eq_true, decide_eq_true_eq, bne_iff_ne] at h
      obtain ⟨⟨⟨admits, single⟩, work⟩, counts⟩ := h
      obtain ⟨rows, can⟩ := canWork_of_works work
      exact ⟨d, ctx, t, u, g, rows, arrived, ran, checked, admits, single, can, counts⟩
    · cases h
  · cases h

end Sys2Proof.Machine.MovingPage

namespace Sys2Proof.Machine

/-- Refutes O35: a request that reads a warm page on its way out queues a promotion behind that move, and MOVE_QUEUED rises (R150), where
the statement leaves the counters as they were. -/
theorem not_attentionRequests : ¬ Obligations.AttentionRequests := by
  intro claim
  obtain ⟨requests, -⟩ := claim
  obtain ⟨d, ctx, t, u, g, rows, accepts, ran, checked, admits, single, can, counts⟩ := MovingPage.countsMove_spec MovingPage.node_countsMove
  simp only [MovingPage.admitted, Bool.and_eq_true, beq_iff_eq, Bool.not_eq_true', decide_eq_true_eq, bne_iff_ne] at admits
  obtain ⟨⟨⟨⟨⟨⟨⟨⟨⟨⟨op, forward⟩, entry⟩, home⟩, clear⟩, guard⟩, layout⟩, early⟩, deadline⟩, p0⟩, p1⟩ := admits
  obtain ⟨-, v, n, sv, ran', -, -, -, -, -, -, frame⟩ := requests MovingPage.node t MovingPage.command d ctx MovingPage.conversation g
    MovingPage.layout rows false false _ 0x0301 (List.mem_cons_self ..) op forward accepts ⟨entry, home, rfl, clear, guard⟩ layout early
    deadline p0 p1 checked (.inl single) (fun e he => absurd he (List.not_mem_nil)) can
  have same : u = v := by
    rw [ran] at ran'
    cases ran'
    rfl
  exact counts (same ▸ frame .counters (by decide))

end Sys2Proof.Machine
end

section
/-! SUPPORT. What the registers read as after reset (R700 to R713). -/

namespace Sys2Proof.Machine

/-- Reset leaves every block as it is before it is enabled (R710). -/
theorem State.blockAt_reset (b : Nat) : State.reset.blockAt b = {} := by
  show (List.replicate 24 ({} : Block)).getD (b - 1) {} = {}
  rw [List.getD_eq_getElem?_getD, List.getElem?_replicate]
  split <;> rfl

/-- A register that every block has is read at its place in the block's address range (R700). -/
theorem State.regValue_of_common {s : State} {b off v : Nat} (low : 1 ≤ b) (high : b ≤ 24) (place : off < 65536)
    (reads : s.commonRead b off = some v) : s.regValue (b * 65536 + off) = some v := by
  have block : (b * 65536 + off) / 65536 = b := by omega
  have offset : (b * 65536 + off) % 65536 = off := by omega
  have held : ¬ (b = 0 || b > 24) = true := by simp; omega
  simp only [State.regValue, block, offset, if_neg held, reads]

/-- BLK_CTL, BLK_STAT and ERR_SUM of every block read 0 after reset: each is DISABLED, without a reason and without an error
(R633, R704, R705, R710). -/
theorem State.commonRead_reset (b : Nat) : State.reset.commonRead b 4 = some 0 ∧ State.reset.commonRead b 8 = some 0 ∧
    State.reset.commonRead b 12 = some 0 := by
  simp only [State.commonRead, State.blockAt_reset]
  exact ⟨rfl, rfl, rfl⟩

/-- Settles O3: the registers with a value of their own by evaluation, those that every block has by the state of the blocks. -/
theorem resetValues : Obligations.ResetValues := by
  refine ⟨by decide +kernel, by decide +kernel, by decide +kernel, by decide +kernel, by decide +kernel, fun b low high => ?_, rfl, rfl,
    fun _ => rfl, rfl, rfl, rfl⟩
  obtain ⟨ctl, stat, err⟩ := State.commonRead_reset b
  exact ⟨State.regValue_of_common low high (by decide) ctl, State.regValue_of_common low high (by decide) stat,
    State.regValue_of_common low high (by decide) err⟩

end Sys2Proof.Machine
end

section
/-! SUPPORT. The hot frame that a promoted page moves to is taken out of HOT_RESERVE (R154, R572; log entry 89). -/

namespace Sys2Proof.Machine

/-- Where PROMOTED_PAGE_HOT_MOVE takes a frame, what remains of HOT_RESERVE falls by one (R154, R572). -/
theorem exec_promotedPageHotMove_reserve {s u : State} {pid : Nat} {p : Page} (entry : s.page pid = some p) (waits : p.awaitsHot = true)
    (resident : p.state = .resident) (free : s.freeFrames .hot ≠ 0) (ran : exec (.promotedPageHotMove pid) s = .next u) :
    u.regs.hotReserve = s.regs.hotReserve - 1 := by
  simp only [exec_promotedPageHotMove, execPromotedPageHotMove, entry, waits, resident, State.allocReserve, if_neg free, bne_self_eq_false,
    Bool.not_true, Bool.or_self, Bool.false_eq_true, if_false, Host.Outcome.next.injEq] at ran
  rw [← ran, State.modPage_regs, State.takeFrame_regs]
  rfl

namespace ReserveUsed

/-- An open page of a promoted conversation that lies in a warm frame for want of a hot one (R572). -/
def page : Page := { cid := 6, layout := 1, key := { layer := 0, head := 0, index := 0 }, tier := .warm, frame := 0, awaitsHot := true }

/-- A node with that page, every hot frame free, and one frame left in HOT_RESERVE. -/
def node : State :=
  { State.reset with
    regs := { State.reset.regs with hotReserve := 1 }
    tiers := { State.reset.tiers with pages := [(0, page)], warm := [(0, .page 0)], nextPage := 1 } }

end ReserveUsed

/-- Refutes O46: the page's move to a hot frame takes the last frame of HOT_RESERVE (R572), where the statement leaves the registers as
they were. -/
theorem not_tierMoves : ¬ Obligations.TierMoves := by
  intro claim
  obtain ⟨-, -, -, promotions, -⟩ := claim
  obtain ⟨-, hotMove⟩ := promotions ReserveUsed.node 0 ReserveUsed.page rfl rfl
  have free : ReserveUsed.node.freeFrames .hot ≠ 0 := by decide +kernel
  obtain ⟨u, f, ran, frame, -⟩ := hotMove rfl free
  have used : u.regs.hotReserve = 0 := exec_promotedPageHotMove_reserve (p := ReserveUsed.page) rfl rfl rfl free ran
  have same : u.regs = ReserveUsed.node.regs := frame .regs (by decide)
  rw [same] at used
  exact absurd used (by decide)

end Sys2Proof.Machine
end

section
/-! SUPPORT. A repair in a page directory whose keys do not rise: the entry of the page is written ahead of the one that stood there, so
that a page that waits for a hot frame waits twice, and the frame that the repair could have taken is kept for it (R165, R175, R572). -/

namespace Sys2Proof.Machine

namespace DisorderedDirectory

/-- A page in a hot frame that is being evicted to a warm one, marked as waiting for a hot frame, with a copy at node 1. -/
def page : Page :=
  { cid := 6, layout := 1, key := { layer := 0, head := 0, index := 0 }, tier := .hot, frame := 0, state := .moving
    moveKind := some .evictHot, targetTier := .warm, targetFrame := 0, twinNode := some 1, awaitsHot := true }

/-- Another page of the conversation. -/
def other : Page := { cid := 6, layout := 1, key := { layer := 0, head := 0, index := 1 }, tier := .hot, frame := 1 }

/-- A node whose directory names page 3 after page 5, with two hot frames available, of which one is kept for page 3, and with the QP to
node 1 in RTS. -/
def node : State :=
  { State.reset with
    regs := { State.reset.regs with hotReserve := Config.hotFrames - 4 }
    net := { State.reset.net with qps := [(1, { kind := .node, state := .rts })] }
    tiers := { State.reset.tiers with
      pages := [(5, other), (3, page)], hot := [(0, .page 3), (1, .page 5)], warm := [(0, .leaving)], nextPage := 6 } }

/-- One frame may be allocated before the repair. -/
theorem node_allocatable : node.allocatable .hot = 1 := by decide +kernel

/-- None may be once the eviction has given up its target: two entries of page 3 wait for a hot frame then. The repair waits, and the
page is in no move. -/
theorem repairOrPoison_waits : (node.turnMove 3).hotWaiters = 2 ∧ ((node.repairOrPoison 3).page 3).map (fun p => (p.moveKind, p.queued)) =
    some (none, some .repair) := by
  decide +kernel

end DisorderedDirectory

/-- Refutes O47: the statement asks for no order of the directory's keys, and where they do not rise the repair of a page that waits for a
hot frame finds none and is queued, where the statement has it begun (R155, R175). -/
theorem not_recallAndRepair : ¬ Obligations.RecallAndRepair := by
  intro claim
  obtain ⟨-, -, -, repairs, -⟩ := claim
  obtain ⟨u, y, m, ran, entry, -, kind, -⟩ := repairs DisorderedDirectory.node 3 1 DisorderedDirectory.page rfl (by decide) (by decide) rfl
    (by decide) (fun y hy => absurd hy List.not_mem_nil) (by decide) (by
      rw [show (if DisorderedDirectory.page.outside then Tier.warm else DisorderedDirectory.page.tier) = .hot from rfl,
        DisorderedDirectory.node_allocatable]
      decide)
  obtain ⟨-, waits⟩ := DisorderedDirectory.repairOrPoison_waits
  rw [ran, entry, Option.map_some, kind] at waits
  cases waits

end Sys2Proof.Machine
end

section
/-! SUPPORT. The tiles, the logical tiles and the requests after the changes that the operations on tiles are made of (R182, R188). -/

namespace Sys2Proof.Machine

variable {s t : State} {n p q : Nat}

/-! ## Entries of a list -/

theorem modifyAt_eq_modify {α : Type} (l : List α) (n : Nat) (f : α → α) : modifyAt l n f = l.modify n f := by
  induction l generalizing n with
  | nil => rw [List.modify_nil]; rfl
  | cons x l ih =>
    cases n with
    | zero => rfl
    | succ n => rw [modifyAt, List.modify_succ_cons, ih]

/-- A list read beyond its end gives the default. -/
theorem getD_beyond {α : Type} {l : List α} (d : α) {k : Nat} (h : l.length ≤ k) : l.getD k d = d := by
  rw [List.getD_eq_getElem?_getD, List.getElem?_eq_none h, Option.getD_none]

/-- A change of every entry that leaves the default, at one place. -/
theorem getD_map_default {α : Type} {f : α → α} {d : α} (keeps : f d = d) (l : List α) (k : Nat) :
    (l.map f).getD k d = f (l.getD k d) := by
  rw [List.getD_eq_getElem?_getD, List.getD_eq_getElem?_getD, List.getElem?_map]
  cases l[k]? with
  | none => exact keeps.symm
  | some x => rfl

theorem getD_modifyAt {α : Type} (l : List α) (n k : Nat) (f : α → α) (d : α) :
    (modifyAt l n f).getD k d = if k = n ∧ n < l.length then f (l.getD k d) else l.getD k d := by
  rw [modifyAt_eq_modify, List.getD_eq_getElem?_getD, List.getD_eq_getElem?_getD, List.getElem?_modify]
  by_cases e : k = n
  · subst e
    by_cases hk : k < l.length
    · simp [hk]
    · simp [hk]
  · simp [e, Ne.symm e]

/-- A change of one entry that leaves `g` of it leaves `g` of the whole list. -/
theorem map_modifyAt {α β : Type} {f : α → α} {g : α → β} (keeps : ∀ x, g (f x) = g x) (l : List α) (n : Nat) :
    (modifyAt l n f).map g = l.map g := by
  induction l generalizing n with
  | nil => rfl
  | cons x l ih => cases n <;> simp [modifyAt, keeps, ih]

theorem mem_modifyAt {α : Type} {l : List α} {n : Nat} {f : α → α} {x : α} (h : x ∈ modifyAt l n f) : x ∈ l ∨ ∃ y ∈ l, x = f y := by
  induction l generalizing n with
  | nil => exact .inl h
  | cons y l ih =>
    cases n with
    | zero =>
      rcases List.mem_cons.mp h with rfl | h
      · exact .inr ⟨y, List.mem_cons_self, rfl⟩
      · exact .inl (List.mem_cons_of_mem y h)
    | succ n =>
      rcases List.mem_cons.mp h with rfl | h
      · exact .inl List.mem_cons_self
      · rcases ih h with h | ⟨z, hz, e⟩
        · exact .inl (List.mem_cons_of_mem y h)
        · exact .inr ⟨z, List.mem_cons_of_mem y hz, e⟩

/-! ## One tile, one logical tile, one request -/

theorem State.tile_of_attn (h : t.attn = s.attn) (k : Nat) : t.tile k = s.tile k := congrArg (fun a : Attn => a.tiles.getD k {}) h
theorem State.logical_of_attn (h : t.attn = s.attn) (k : Nat) : t.logical k = s.logical k :=
  congrArg (fun a : Attn => a.logicals.getD k { phys := k }) h
theorem State.req_of_attn (h : t.attn = s.attn) (k : Nat) : t.req k = s.req k := congrArg (fun a : Attn => Table.get a.reqs k) h

theorem State.tile_modTile (f : Tile → Tile) (k : Nat) :
    (s.modTile q f).tile k = if k = q ∧ q < s.attn.tiles.length then f (s.tile k) else s.tile k :=
  getD_modifyAt s.attn.tiles q k f {}

theorem State.tile_modTile_self (h : p < s.attn.tiles.length) (f : Tile → Tile) : (s.modTile p f).tile p = f (s.tile p) := by
  rw [State.tile_modTile, if_pos ⟨rfl, h⟩]

theorem State.tile_modTile_ne (h : p ≠ q) (f : Tile → Tile) : (s.modTile q f).tile p = s.tile p := by
  rw [State.tile_modTile, if_neg fun e => h e.1]

@[simp] theorem State.tile_modLogical (f : Logical → Logical) (k : Nat) : (s.modLogical n f).tile k = s.tile k := rfl
@[simp] theorem State.logical_modTile (f : Tile → Tile) (k : Nat) : (s.modTile p f).logical k = s.logical k := rfl

theorem State.logical_modLogical (f : Logical → Logical) (k : Nat) :
    (s.modLogical n f).logical k = if k = n ∧ n < s.attn.logicals.length then f (s.logical k) else s.logical k :=
  getD_modifyAt s.attn.logicals n k f { phys := k }

theorem State.logical_modLogical_self (h : n < s.attn.logicals.length) (f : Logical → Logical) :
    (s.modLogical n f).logical n = f (s.logical n) := by
  rw [State.logical_modLogical, if_pos ⟨rfl, h⟩]

/-- A change of one tile changes the tiles alone. -/
theorem State.modTile_frame (f : Tile → Tile) : SameBut [.attn] s (s.modTile p f) :=
  SameBut.of fun part => by cases part <;> simp [Part.Same]

end Sys2Proof.Machine
end

section
/-! SUPPORT. The tiles and requests beside the operations on frames, pages, versions and messages: none of these changes them. -/

namespace Sys2Proof.Machine

variable (s : State)

/-! ## Reads of frames -/

@[simp] theorem State.wordCorrected_attn (b : Nat) : (s.wordCorrected b).attn = s.attn := by simp [State.wordCorrected]
@[simp] theorem State.wordUncorrectable_attn (b d : Nat) (i : Bool) : (s.wordUncorrectable b d i).attn = s.attn := by
  simp [State.wordUncorrectable]
@[simp] theorem State.poisonConsumedAt_attn (b d : Nat) (i : Bool) : (s.poisonConsumedAt b d i).attn = s.attn := by
  simp [State.poisonConsumedAt]
@[simp] theorem State.checkFailed_attn (b d : Nat) (i : Bool) : (s.checkFailed b d i).attn = s.attn := by
  simp [State.checkFailed, State.checkNoted]
@[simp] theorem State.injected_attn (b p : Nat) : (s.injected b p).2.attn = s.attn := by
  unfold State.injected; split <;> simp [State.fireSlot, State.healthEvent]
@[simp] theorem State.retireFrame_attn (t : Tier) (f : Nat) : (s.retireFrame t f).attn = s.attn := by
  unfold State.retireFrame; split <;> simp
@[simp] theorem State.checkTags_attn (t : Tier) (f : Nat) : (s.checkTags t f).2.attn = s.attn := by
  unfold State.checkTags; dsimp only; cases t <;> (repeat' split) <;> simp
@[simp] theorem State.checkWords_attn (t : Tier) (f : Nat) : (s.checkWords t f).2.attn = s.attn := by
  unfold State.checkWords
  dsimp only
  rw [foldl_pair (fun u : State => u.attn)]
  · dsimp only; split <;> simp
  · intro acc w
    split <;> simp

/-- What a frame's check keeps of its words and of its tags it keeps. -/
theorem State.checkFrame_keeps {α : Type} {g : State → α} {t : Tier} {f : Nat} (words : ∀ u : State, g (u.checkWords t f).2 = g u)
    (tags : ∀ u : State, g (u.checkTags t f).2 = g u) : g (s.checkFrame t f).2 = g s := by
  unfold State.checkFrame
  have first := words s
  split
  · next v e =>
    rw [e] at first
    have second := tags v
    split <;> next w e => rw [e] at second; exact second.trans first
  · exact first

/-- A read through a thaw unit keeps what its parts keep. -/
theorem State.readThaw_keeps {α : Type} {g : State → α} {t : Tier} {f : Nat} (check : ∀ u : State, g (u.checkFrame t f).2 = g u)
    (retire : ∀ u : State, g (u.retireFrame t f) = g u) (strike : ∀ u : State, ∀ p, g (u.injected Blk.hot p).2 = g u)
    (count : ∀ u : State, ∀ i, g ((u.bump Ctr.thawFormatFault).wordUncorrectable Blk.hot f i) = g u) (ok : State → Bool) :
    g (s.readThaw t f ok).2 = g s := by
  unfold State.readThaw
  have first := check s
  split
  · next v e => rw [e] at first; exact first
  · next v e => rw [e] at first; exact (retire v).trans first
  · next v e =>
    rw [e] at first
    have second := strike v (17 + f % 8)
    dsimp only
    split
    · exact second.trans first
    · exact (retire _).trans ((count _ _).trans (second.trans first))

/-- A tile's read of a page leaves the state of the thaw unit's read. -/
theorem State.readDescriptor_snd (l : Layout) (d : Descriptor) (values : Bool) : (s.readDescriptor l d values).2 =
    (s.readThaw d.tier d.frame fun s => (s.thawPage l d.tier d.frame d.firstToken d.valid values).isSome).2 := by
  unfold State.readDescriptor
  split <;> next e => rw [e]

@[simp] theorem State.readDescriptor_attn (l : Layout) (d : Descriptor) (values : Bool) : (s.readDescriptor l d values).2.attn = s.attn := by
  rw [State.readDescriptor_snd]
  exact s.readThaw_keeps (g := (·.attn)) (fun u => u.checkFrame_keeps (g := (·.attn)) (by simp) (by simp)) (by simp) (by simp) (by simp) _
@[simp] theorem State.readDescriptor_convs (l : Layout) (d : Descriptor) (values : Bool) :
    (s.readDescriptor l d values).2.convs = s.convs := by
  rw [State.readDescriptor_snd]
  exact s.readThaw_keeps (g := (·.convs)) (by simp) (by simp) (by simp) (by simp) _

@[simp] theorem State.noteLate_attn (d : Descriptor) : (s.noteLate d).attn = s.attn := by unfold State.noteLate; split <;> simp
@[simp] theorem State.noteLate_convs (d : Descriptor) : (s.noteLate d).convs = s.convs := by unfold State.noteLate; split <;> simp

/-! ## Pages, versions and messages -/

@[simp] theorem State.settleFrame_attn (t : Tier) (f : Nat) : (s.settleFrame t f).attn = s.attn := by
  unfold State.settleFrame; split <;> simp
@[simp] theorem State.tellFreed_attn (j : Nat) : (s.tellFreed j).attn = s.attn := by
  unfold State.tellFreed; dsimp only; split <;> simp
@[simp] theorem State.leaveFrame_attn (t : Tier) (f : Nat) : (s.leaveFrame t f).attn = s.attn := by
  unfold State.leaveFrame; (repeat' split) <;> simp
@[simp] theorem State.freeSpill_attn (x : SpillAt) : (s.freeSpill x).attn = s.attn := rfl
@[simp] theorem State.noteFreed_attn (j f : Nat) : (s.noteFreed j f).attn = s.attn := rfl
@[simp] theorem State.freePage_attn (pid : Nat) : (s.freePage pid).attn = s.attn := by
  unfold State.freePage; dsimp only; (repeat' split) <;> simp
@[simp] theorem State.reapPage_attn (pid : Nat) : (s.reapPage pid).attn = s.attn := by
  unfold State.reapPage; (repeat' split) <;> simp
@[simp] theorem State.dropRef_attn (pid : Nat) : (s.dropRef pid).attn = s.attn := by simp [State.dropRef]
@[simp] theorem State.dropUser_attn (ctx : Nat) : (s.dropUser ctx).attn = s.attn := by
  unfold State.dropUser; exact foldl_keeps (·.attn) _ _ (by intros; simp) s
@[simp] theorem State.modVersion_attn (h : Nat) (f : Version → Version) : (s.modVersion h f).attn = s.attn := rfl
@[simp] theorem State.freeVersion_attn (h : Nat) : (s.freeVersion h).attn = s.attn := by
  unfold State.freeVersion
  split
  · rfl
  · exact foldl_keeps (·.attn) _ _ (by intros; simp) _
@[simp] theorem State.reapVersion_attn (h : Nat) : (s.reapVersion h).attn = s.attn := by
  unfold State.reapVersion; (repeat' split) <;> simp
@[simp] theorem State.dropVersions_attn (ctx : Nat) (hs : List W64) : (s.dropVersions ctx hs).attn = s.attn := by
  unfold State.dropVersions; exact foldl_keeps (·.attn) _ _ (by intros; simp) s
@[simp] theorem State.cancelHeld_attn (f : Tag → Bool) : (s.cancelHeld f).attn = s.attn := rfl

/-! ## Drift passes -/

@[simp] theorem State.sendMember_attn (d : Drift) (m : Nat) (bs : List Byte) : (s.sendMember d m bs).attn = s.attn := by
  unfold State.sendMember; split <;> simp
@[simp] theorem State.cancelSends_attn (slot : Nat) : (s.cancelSends slot).attn = s.attn := rfl
@[simp] theorem State.rememberAbort_attn (a : Abort) : (s.rememberAbort a).attn = s.attn := by simp [State.rememberAbort]
@[simp] theorem State.dropDriftGates_attn (slot : Nat) : (s.dropDriftGates slot).attn = s.attn := State.modPort_attn ..
@[simp] theorem State.freeKey_attn (k : Nat) : (s.freeKey k).attn = s.attn := rfl

/-! ## Reports -/

@[simp] theorem State.checkSpares_attn (n : Nat) : (s.checkSpares n).attn = s.attn := by unfold State.checkSpares; split <;> simp
@[simp] theorem State.reportTile_attn (p : Nat) (cause : TileFault) (i : Bool) : (s.reportTile p cause i).attn = s.attn := by
  cases cause <;> simp [State.reportTile]

end Sys2Proof.Machine
end

section
/-! SUPPORT. The counters beside reads of frames and reports of tiles (R713): each raises its own counters alone. -/

namespace Sys2Proof.Machine

variable {s : State} {c d : CtrId}

theorem State.counter_of_counters {t : State} (h : t.counters = s.counters) (c : CtrId) : t.counter c = s.counter c :=
  congrArg (Table.getD · c.key 0) h

theorem State.counter_bumpBy_ne (h : c.key ≠ d.key) (n : Nat) : (s.bumpBy d n).counter c = s.counter c := by
  unfold State.bumpBy
  split
  · rfl
  · rw [State.counter, Table.getD, Table.get_set_ne _ _ _ _ h, State.counter, Table.getD]

theorem State.counter_bump_ne (h : c.key ≠ d.key) : (s.bump d).counter c = s.counter c := State.counter_bumpBy_ne h 1

/-- A counter that is a 64-bit number rises by n, and saturates. -/
theorem State.counter_bumpBy_self (h : s.counter c < 2 ^ 64) (n : Nat) : (s.bumpBy c n).counter c = min (s.counter c + n) (2 ^ 64 - 1) := by
  unfold State.bumpBy
  split
  · next e => subst e; omega
  · rw [State.counter, Table.getD, Table.get_set_self, Option.getD_some]

theorem State.counter_raise (h : c.key ≠ Ctr.evtLost.key) (b r x : Nat) (i : Bool) : (s.raise b r x i).counter c = s.counter c := by
  unfold State.raise
  split
  · exact State.counter_bump_ne h
  · rfl

/-- The counters that a read of a frame raises (R174, R612, R616, R629, R637). -/
def readCounters : List CtrId :=
  [Ctr.injFired, Ctr.wcCorrected, Ctr.wcUncorrected, Ctr.poisonConsumed, Ctr.evtLost, Ctr.framesRetired, Ctr.thawFormatFault]

/-- A counter that no read of a frame raises. -/
abbrev CtrId.beyondReads (c : CtrId) : Prop := ∀ d ∈ readCounters, c.key ≠ d.key

section
variable (h : c.beyondReads)
include h

theorem State.counter_raise_beyond (b r x : Nat) (i : Bool) : (s.raise b r x i).counter c = s.counter c :=
  State.counter_raise (h _ (by decide)) b r x i

theorem State.counter_wordCorrected (b : Nat) : (s.wordCorrected b).counter c = s.counter c :=
  State.counter_bump_ne (h _ (by decide))

theorem State.counter_wordUncorrectable (b x : Nat) (i : Bool) : (s.wordUncorrectable b x i).counter c = s.counter c :=
  (State.counter_raise_beyond h ..).trans (State.counter_bump_ne (h _ (by decide)))

theorem State.counter_poisonConsumedAt (b x : Nat) (i : Bool) : (s.poisonConsumedAt b x i).counter c = s.counter c :=
  (State.counter_raise_beyond h ..).trans (State.counter_bump_ne (h _ (by decide)))

theorem State.counter_checkFailed (b x : Nat) (i : Bool) : (s.checkFailed b x i).counter c = s.counter c :=
  State.counter_raise_beyond h ..

theorem State.counter_injected (b x : Nat) : (s.injected b x).2.counter c = s.counter c := by
  unfold State.injected
  split
  · rfl
  · exact State.counter_bump_ne (h _ (by decide))

theorem State.counter_retireFrame (t : Tier) (f : Nat) : (s.retireFrame t f).counter c = s.counter c := by
  unfold State.retireFrame
  split
  · rfl
  · exact State.counter_bump_ne (h _ (by decide))

theorem State.counter_checkTags (t : Tier) (f : Nat) : (s.checkTags t f).2.counter c = s.counter c := by
  unfold State.checkTags
  dsimp only
  cases t <;> (repeat' split) <;> simp [State.counter_checkFailed h, State.counter_injected h]

theorem State.counter_checkWords (t : Tier) (f : Nat) : (s.checkWords t f).2.counter c = s.counter c := by
  have struck := State.counter_injected (s := s) h (readPoint t f).1 (readPoint t f).2
  unfold State.checkWords
  dsimp only
  rw [foldl_pair (fun u : State => u.counter c)]
  · dsimp only
    split <;> exact struck
  · intro acc w
    split
    · rfl
    · exact State.counter_wordCorrected h _
    · exact State.counter_poisonConsumedAt h ..
    · exact State.counter_wordUncorrectable h ..

/-- A tile's read of a page raises no other counter. -/
theorem State.counter_readDescriptor (l : Layout) (d : Descriptor) (values : Bool) :
    (s.readDescriptor l d values).2.counter c = s.counter c := by
  rw [State.readDescriptor_snd]
  exact s.readThaw_keeps (g := (·.counter c))
    (fun u => u.checkFrame_keeps (g := (·.counter c)) (fun _ => State.counter_checkWords h ..) fun _ => State.counter_checkTags h ..)
    (fun _ => State.counter_retireFrame h ..) (fun _ _ => State.counter_injected h ..)
    (fun _ _ => (State.counter_wordUncorrectable h ..).trans (State.counter_bump_ne (h _ (by decide)))) _

end

theorem State.counter_noteLate (h : c.key ≠ Ctr.stallWarmLate.key) (d : Descriptor) : (s.noteLate d).counter c = s.counter c := by
  unfold State.noteLate
  split
  · exact State.counter_bump_ne h
  · rfl

theorem State.counter_checkSpares (h : c.key ≠ Ctr.evtLost.key) (n : Nat) : (s.checkSpares n).counter c = s.counter c := by
  unfold State.checkSpares
  split
  · exact State.counter_raise h ..
  · rfl

theorem State.counter_reportTile (h : c.beyondReads) (p : Nat) (cause : TileFault) (i : Bool) : (s.reportTile p cause i).counter c = s.counter c := by
  cases cause with
  | sram => exact (State.counter_raise_beyond h ..).trans (State.counter_bump_ne (h _ (by decide)))
  | residue => exact State.counter_raise_beyond h ..
  | test => exact State.counter_raise_beyond h ..

end Sys2Proof.Machine
end

section
/-! SUPPORT. A tile that has failed is OFF, bound to no logical tile, with nothing queued, and no operation on the work that it leaves
brings it back (R226 to R230, R353). -/

namespace Sys2Proof.Machine

variable {s t : State} {n p : Nat}

/-- A tile is FAILED and OFF with nothing queued, and no logical tile is bound to it. -/
structure State.TileDown (s : State) (p : Nat) : Prop where
  role : (s.tile p).role = .failed
  power : (s.tile p).power = .off
  queue : (s.tile p).queue = []
  logical : (s.tile p).logical = none
  unbound : ∀ k, (s.logical k).valid = true → (s.logical k).phys ≠ p

/-! ## The work of one request or pass -/

/-- Whether work is of a request, or of a pass. -/
def Work.isOf (drift : Bool) (ctx : Nat) (w : Work) : Bool := w.drift == drift && w.ctx == ctx

/-- A tile without some of the work in its queue: its idle time runs from now where it had any (R186). -/
def Tile.without (mine : Work → Bool) (now : Nat) (t : Tile) : Tile :=
  if t.queue.any mine then { t with queue := t.queue.filter fun w => !mine w, idleSince := now } else t

/-- A logical tile without some of the work that a failure has left. -/
def Logical.without (mine : Work → Bool) (l : Logical) : Logical := { l with abandoned := l.abandoned.filter fun w => !mine w }

/-- The work of a request or pass leaves every tile and logical tile, and nothing else of them changes. -/
theorem State.dropWork_attn (s : State) (drift : Bool) (ctx : Nat) : (s.dropWork drift ctx).attn =
    { s.attn with
      tiles := s.attn.tiles.map (Tile.without (Work.isOf drift ctx) s.now)
      logicals := s.attn.logicals.map (Logical.without (Work.isOf drift ctx)) } := by
  unfold State.dropWork
  exact foldl_keeps (·.attn) _ _ (by intros; simp) _

namespace State.TileDown

/-! ## The changes of the tiles and logical tiles -/

theorem of_units (h : s.TileDown p) (tile : t.tile p = s.tile p) (logicals : ∀ k, t.logical k = s.logical k) : t.TileDown p where
  role := by rw [tile]; exact h.role
  power := by rw [tile]; exact h.power
  queue := by rw [tile]; exact h.queue
  logical := by rw [tile]; exact h.logical
  unbound k := by rw [logicals]; exact h.unbound k

theorem of_lists (h : s.TileDown p) (tiles : t.attn.tiles = s.attn.tiles) (logicals : t.attn.logicals = s.attn.logicals) : t.TileDown p :=
  h.of_units (congrArg (·.getD p {}) tiles) fun k => congrArg (·.getD k { phys := k }) logicals

theorem of_attn (h : s.TileDown p) (attn : t.attn = s.attn) : t.TileDown p := h.of_lists (by rw [attn]) (by rw [attn])

theorem modTile (h : s.TileDown p) {q : Nat} (other : q ≠ p) (f : Tile → Tile) : (s.modTile q f).TileDown p :=
  h.of_units (State.tile_modTile_ne other.symm f) fun _ => rfl

/-- A change that binds no logical tile. -/
theorem modLogical (h : s.TileDown p) {f : Logical → Logical} (phys : ∀ l, (f l).phys = l.phys)
    (valid : ∀ l, (f l).valid = true → l.valid = true) : (s.modLogical n f).TileDown p where
  role := h.role
  power := h.power
  queue := h.queue
  logical := h.logical
  unbound k bound := by
    rw [State.logical_modLogical] at bound ⊢
    split at bound <;> rename_i at_n
    · rw [if_pos at_n, phys]
      exact h.unbound k (valid _ bound)
    · rw [if_neg at_n]
      exact h.unbound k bound

/-- A change of every tile and every logical tile that leaves an idle one, and binds none. -/
theorem of_maps (h : s.TileDown p) {f : Tile → Tile} {g : Logical → Logical} (tiles : t.attn.tiles = s.attn.tiles.map f)
    (logicals : t.attn.logicals = s.attn.logicals.map g) (same : f (s.tile p) = s.tile p) (none_tile : f {} = {})
    (none_logical : ∀ k, g { phys := k } = { phys := k }) (phys : ∀ l, (g l).phys = l.phys) (valid : ∀ l, (g l).valid = l.valid) :
    t.TileDown p := by
  have tile : t.tile p = s.tile p := by
    rw [State.tile, tiles, getD_map_default none_tile]
    exact same
  have logical : ∀ k, t.logical k = g (s.logical k) := fun k => by
    rw [State.logical, logicals, getD_map_default (none_logical k), State.logical]
  exact {
    role := by rw [tile]; exact h.role
    power := by rw [tile]; exact h.power
    queue := by rw [tile]; exact h.queue
    logical := by rw [tile]; exact h.logical
    unbound := fun k => by rw [logical, phys, valid]; exact h.unbound k }

theorem modReq (h : s.TileDown p) (f : Req → Req) : (s.modReq n f).TileDown p := h.of_units rfl fun _ => rfl

/-- A fold of steps that each keep it keeps it. -/
theorem foldl {ι : Type} {step : State → ι → State} (keeps : ∀ u i, u.TileDown p → (step u i).TileDown p) (l : List ι)
    (h : s.TileDown p) : (l.foldl step s).TileDown p := by
  induction l generalizing s with
  | nil => exact h
  | cons i l ih => exact ih (keeps s i h)

/-! ## The end of requests and passes -/

theorem dropWork (h : s.TileDown p) (drift : Bool) (ctx : Nat) : (s.dropWork drift ctx).TileDown p := by
  refine h.of_maps (f := Tile.without (Work.isOf drift ctx) s.now) (g := Logical.without (Work.isOf drift ctx)) ?_ ?_ ?_ rfl (fun _ => rfl)
    (fun _ => rfl) fun _ => rfl
  · rw [State.dropWork_attn]
  · rw [State.dropWork_attn]
  · simp [Tile.without, h.queue]

theorem releaseReq (h : s.TileDown p) (ctx : Nat) : (s.releaseReq ctx).TileDown p := by
  unfold State.releaseReq
  split
  · exact h
  · exact (h.dropWork false ctx).of_lists (by simp) (by simp)

theorem endReq (h : s.TileDown p) (ctx : Nat) (a : Ans) : (s.endReq ctx a).TileDown p := by
  unfold State.endReq
  split
  · exact h
  · refine (h.releaseReq ctx).of_attn ?_
    dsimp only
    (repeat' split) <;> simp

theorem failReq (h : s.TileDown p) (ctx : Nat) (a : Ans) : (s.failReq ctx a).TileDown p := by
  unfold State.failReq
  split
  · exact h
  · exact h.endReq ctx a

theorem foreseeSubst (h : s.TileDown p) (ctx : Nat) : (s.foreseeSubst ctx).TileDown p := by
  unfold State.foreseeSubst
  split
  · exact h
  · split
    · exact h
    · split
      · exact h.failReq ..
      · exact h

theorem releaseDrift (h : s.TileDown p) (slot : Nat) : (s.releaseDrift slot).TileDown p := by
  have freed : (((s.drift slot).frames.foldl (fun s f => s.freeFrame .hot f) (s.dropWork true slot)).dropDriftGates slot).TileDown p :=
    (foldl (fun u f hu => hu.of_attn (u.freeFrame_attn ..)) _ (h.dropWork true slot)).of_attn (State.dropDriftGates_attn ..)
  unfold State.releaseDrift
  dsimp only
  split <;> exact freed.of_lists (by simp) (by simp)

theorem abortPass (h : s.TileDown p) (slot : Nat) (a : Abort) : (s.abortPass slot a).TileDown p := by
  have stopped : ((s.modDrift slot fun d => { d with state := .aborted }).cancelSends slot).TileDown p := h.of_attn (by simp)
  refine (stopped.releaseDrift slot).of_attn ?_
  unfold State.abortPass
  dsimp only
  split <;> simp

theorem detectAbort (h : s.TileDown p) (slot reason st rs : Nat) (o : Option Nat) (x : W64) :
    (s.detectAbort slot reason o st rs x).TileDown p := by
  unfold State.detectAbort
  extract_lets d a sent
  have told : sent.TileDown p := foldl (fun u m hu => hu.of_attn (u.sendMember_attn ..)) _ h
  split
  · exact h
  · split
    · exact told.of_attn (State.bump_attn ..)
    · exact (told.of_attn (State.rememberAbort_attn ..)).abortPass slot a

theorem abortPasses (h : s.TileDown p) (f : Drift → Bool) (reason st rs : Nat) : (s.abortPasses f reason st rs).TileDown p := by
  refine foldl (fun u slot hu => ?_) _ h
  dsimp only
  split
  · exact hu.detectAbort ..
  · exact hu

/-! ## Work that moves -/

theorem wakeTile (h : s.TileDown p) {q : Nat} (other : q ≠ p) : (s.wakeTile q).TileDown p := h.modTile other _

theorem queueWork (h : s.TileDown p) (m : Nat) (w : Work) : (s.queueWork m w).TileDown p := by
  unfold State.queueWork
  dsimp only
  split
  · next bound =>
    have other := h.unbound m (Bool.and_eq_true_iff.mp bound).1
    exact (h.modTile other _).wakeTile other
  · exact h.modLogical (fun _ => rfl) fun _ => id

theorem issueWork (h : s.TileDown p) (m : Nat) (w : Work) : (s.issueWork m w).TileDown p := by
  unfold State.issueWork
  dsimp only
  split
  · next bound =>
    have other := h.unbound m (Bool.and_eq_true_iff.mp bound).1
    split
    · exact h.queueWork m w
    · exact (h.modTile other _).wakeTile other
  · split
    · exact h.queueWork m w
    · exact h.modLogical (fun _ => rfl) fun _ => id

theorem giveWork (h : s.TileDown p) (m : Nat) (w : Work) : (s.giveWork m w).TileDown p := by
  have served := h.modReq (n := w.ctx) fun r => { r with served := addOnce r.served (m, w.pair) }
  unfold State.giveWork
  dsimp only
  split
  · next bound =>
    have other := served.unbound m (Bool.and_eq_true_iff.mp bound).1
    split
    · exact served.issueWork m w
    · exact (served.modTile other _).modReq _
  · split
    · exact served.issueWork m w
    · refine modReq ?_ _
      exact served.modLogical (fun _ => rfl) fun _ => id

theorem takeAbandoned (h : s.TileDown p) (m : Nat) (w : Work) : (s.takeAbandoned m w).TileDown p :=
  h.modLogical (fun _ => rfl) fun _ => id

theorem moveWork (h : s.TileDown p) (m : Nat) (w : Work) : (s.moveWork m w).TileDown p := by
  unfold State.moveWork
  split
  · exact h
  · split
    · exact h.takeAbandoned m w
    · split
      · exact h
      · dsimp only
        split
        · exact (h.takeAbandoned m w).giveWork ..
        · split
          · exact (h.takeAbandoned m w).giveWork ..
          · exact h.endReq ..

/-! ## Substitution -/

/-- A failed tile is no spare. -/
theorem ne_of_freeSpares (h : s.TileDown p) {q : Nat} (free : q ∈ s.freeSpares) : q ≠ p := by
  rintro rfl
  have spare := (List.mem_filter.mp free).2
  rw [h.role] at spare
  exact absurd spare (by simp)

theorem chooseSubstitute (h : s.TileDown p) (m : Nat) : (s.chooseSubstitute m).TileDown p := by
  have chosen : ∀ x, (s.modLogical m fun l => { l with substitute := x }).TileDown p := fun _ => h.modLogical (fun _ => rfl) fun _ => id
  unfold State.chooseSubstitute
  split
  · next q rest free => exact (chosen _).modTile (h.ne_of_freeSpares (free ▸ List.mem_cons_self)) _
  · exact foldl (fun u w hu => hu.moveWork m w) _ ((chosen none).abortPasses ..)

theorem foreseeStep (h : s.TileDown p) (slot : Nat) : (s.foreseeStep slot).TileDown p := by
  unfold State.foreseeStep
  dsimp only
  split
  · exact h
  · split
    · exact h.detectAbort ..
    · exact h

theorem foreseeSubstitute (h : s.TileDown p) (m : Nat) : (s.foreseeSubstitute m).TileDown p := by
  refine foldl (fun u slot hu => ?_) _ (foldl (fun u ctx hu => hu.foreseeSubst ctx) _ h)
  split
  · exact hu.foreseeStep slot
  · exact hu

end State.TileDown

end Sys2Proof.Machine
end

section
/-! SUPPORT. TILE_FAIL (R226 to R228, R230, R233): what a failed tile is left as, and the spare that is chosen where one is free. -/

namespace Sys2Proof.Machine

variable {s : State} {n p k : Nat}

/-! ## The parts of a failure -/

/-- A tile that has failed. -/
def Tile.failed (t : Tile) : Tile := { t with role := .failed, power := .off, logical := none, wakeDue := none, queue := [] }

/-- A failure is reported and counted, and the tile is FAILED and OFF. -/
def State.tileOff (s : State) (p : Nat) (cause : TileFault) (injected : Bool) : State :=
  ((s.reportTile p cause injected).bump Ctr.tileFault).modTile p Tile.failed

/-- A logical tile is bound no more, and holds work to be done again. -/
def Logical.unbound (ws : List Work) (l : Logical) : Logical := { l with valid := false, abandoned := l.abandoned ++ ws.map Work.again }

/-- The logical tile that a failed tile served, if any, gets a substitute. -/
def State.rebind (s : State) (t : Tile) : State :=
  match t.logical with
  | none => s
  | some n => ((s.modLogical n (Logical.unbound t.queue)).chooseSubstitute n).foreseeSubstitute n

/-- The logical tile that a failed spare was about to serve, if any, gets another substitute. -/
def State.renewSubstitute (s : State) (p : Nat) : State :=
  match s.attn.logicals.findIdx? fun l => l.substitute == some p with
  | none => s
  | some n => ((s.modLogical n fun l => { l with substitute := none }).chooseSubstitute n).foreseeSubstitute n

/-- An ACTIVE tile or a spare fails. -/
theorem State.failTile_eq (able : (s.tile p).role = .active ∨ (s.tile p).role = .spare) (cause : TileFault) (i : Bool) :
    s.failTile p cause i = (((s.tileOff p cause i).rebind (s.tile p)).renewSubstitute p).checkSpares s.spares := by
  have able' : ((s.tile p).role != .active && (s.tile p).role != .spare) = false := by rcases able with h | h <;> rw [h] <;> rfl
  rw [State.failTile]
  simp only [able', Bool.false_eq_true, if_false]
  rfl

/-- An UNTESTED or FAILED tile does not fail again. -/
theorem State.failTile_of_unable (active : (s.tile p).role ≠ .active) (spare : (s.tile p).role ≠ .spare) (cause : TileFault) (i : Bool) :
    s.failTile p cause i = s := by
  rw [State.failTile]
  exact if_pos (by simp [active, spare])

/-- A tile that has no lower logical number's failure ahead of it in its cycle fails at once (R227). -/
theorem exec_tileFail_of_first (first : s.failsAhead p = []) (cause : TileFault) :
    exec (.tileFail p cause) s = .next (s.failTile p cause) := by
  rw [exec_tileFail, execTileFail, first]
  rfl

/-! ## The tile itself -/

theorem State.reported_attn (cause : TileFault) (i : Bool) : ((s.reportTile p cause i).bump Ctr.tileFault).attn = s.attn := by simp

theorem State.tileOff_tile (h : p < s.attn.tiles.length) (cause : TileFault) (i : Bool) :
    (s.tileOff p cause i).tile p = (s.tile p).failed := by
  rw [State.tileOff, State.tile_modTile_self (by rwa [State.reported_attn]), State.tile_of_attn (State.reported_attn cause i)]

theorem State.tileOff_tile_ne {q : Nat} (other : q ≠ p) (cause : TileFault) (i : Bool) : (s.tileOff p cause i).tile q = s.tile q := by
  rw [State.tileOff, State.tile_modTile_ne other, State.tile_of_attn (State.reported_attn cause i)]

theorem State.tileOff_logicals (cause : TileFault) (i : Bool) : (s.tileOff p cause i).attn.logicals = s.attn.logicals := by
  show ((s.reportTile p cause i).bump Ctr.tileFault).attn.logicals = _
  rw [State.reported_attn]

theorem State.tileOff_logical (cause : TileFault) (i : Bool) (m : Nat) : (s.tileOff p cause i).logical m = s.logical m :=
  congrArg (·.getD m { phys := m }) (State.tileOff_logicals cause i)

/-- A logical tile that is bound no more is bound to no tile. -/
theorem State.unbound_valid (ws : List Work) {m : Nat} (bound : ((s.modLogical n (Logical.unbound ws)).logical m).valid = true) :
    m ≠ n ∧ (s.modLogical n (Logical.unbound ws)).logical m = s.logical m := by
  rw [State.logical_modLogical] at bound ⊢
  split at bound
  · cases bound
  · next other =>
    refine ⟨fun e => ?_, if_neg other⟩
    subst e
    have beyond : s.attn.logicals.length ≤ m := Nat.le_of_not_lt fun h => other ⟨rfl, h⟩
    rw [State.logical, getD_beyond _ beyond] at bound
    cases bound

/-- Once the logical tile that a failed tile served is bound no more, the tile is down. -/
theorem State.TileDown.of_failed {u : State} (tile : u.tile p = (s.tile p).failed)
    (unbound : ∀ m, (u.logical m).valid = true → (u.logical m).phys ≠ p) : u.TileDown p where
  role := by rw [tile]; rfl
  power := by rw [tile]; rfl
  queue := by rw [tile]; rfl
  logical := by rw [tile]; rfl
  unbound := unbound

/-- A failure leaves the tile FAILED and OFF, with nothing queued and no logical tile (R226, R228). -/
theorem State.failTile_down (h : p < s.attn.tiles.length) (able : (s.tile p).role = .active ∨ (s.tile p).role = .spare)
    (bound : ∀ m, (s.logical m).valid = true → (s.logical m).phys = p → (s.tile p).logical = some m) (cause : TileFault) (i : Bool) :
    (s.failTile p cause i).TileDown p := by
  have rebound : ((s.tileOff p cause i).rebind (s.tile p)).TileDown p := by
    unfold State.rebind
    split
    · next free =>
      refine .of_failed (State.tileOff_tile h cause i) fun m valid at_p => ?_
      rw [State.tileOff_logical] at valid at_p
      rw [bound m valid at_p] at free
      cases free
    · next n served =>
      refine (State.TileDown.chooseSubstitute ?_ n).foreseeSubstitute n
      refine .of_failed (State.tileOff_tile h cause i) fun m valid at_p => ?_
      obtain ⟨other, same⟩ := State.unbound_valid _ valid
      rw [same, State.tileOff_logical] at valid at_p
      rw [bound m valid at_p] at served
      exact other (Option.some.inj served)
  rw [State.failTile_eq able]
  refine State.TileDown.of_attn ?_ (State.checkSpares_attn ..)
  unfold State.renewSubstitute
  split
  · exact rebound
  · next m _ =>
    refine (State.TileDown.chooseSubstitute ?_ m).foreseeSubstitute m
    exact rebound.modLogical (fun _ => rfl) fun _ => id

/-! ## The spare that is chosen (R227) -/

/-- With a spare free, the lowest is chosen and wakes. -/
theorem State.chooseSubstitute_of_spare {rest : List Nat} (free : s.freeSpares = k :: rest) : s.chooseSubstitute n =
    (s.modLogical n fun l => { l with substitute := some k }).modTile k fun t => { t with wakeDue := some (s.now + 1600) } := by
  rw [State.chooseSubstitute, free]

/-- Where no work waits for the substitution and no pass is under way, nothing is judged against a deadline (R233, R342). -/
theorem State.foreseeSubstitute_of_none (empty : (s.logical n).abandoned = [])
    (still : ∀ d ∈ s.drifts, d.state ≠ .ready ∧ d.state ≠ .running) : s.foreseeSubstitute n = s := by
  have idle : ∀ slot, ((s.drift slot).state == .ready || (s.drift slot).state == .running) = false := by
    intro slot
    by_cases h : slot < s.drifts.length
    · have member : s.drift slot ∈ s.drifts := by
        rw [State.drift, List.getD_eq_getElem?_getD, List.getElem?_eq_getElem h, Option.getD_some]
        exact List.getElem_mem h
      simp [still _ member]
    · rw [State.drift, getD_beyond _ (Nat.le_of_not_lt h)]
      rfl
  rw [State.foreseeSubstitute, empty]
  simp only [List.filter_nil, List.foldl_nil]
  induction List.range 16 with
  | nil => rfl
  | cons slot l ih => rw [List.foldl_cons, idle]; exact ih

/-- What the spares that are free depend on. -/
theorem State.freeSpares_congr {t : State} (roles : ∀ q, ((t.tile q).role == .spare) = ((s.tile q).role == .spare))
    (chosen : t.attn.logicals.map (·.substitute) = s.attn.logicals.map (·.substitute)) : t.freeSpares = s.freeSpares := by
  have any : ∀ q : Nat, (t.attn.logicals.any fun l => l.substitute == some q) = s.attn.logicals.any fun l => l.substitute == some q := by
    intro q
    have := congrArg (·.any (· == some q)) chosen
    simpa [List.any_map, Function.comp_def] using this
  simp only [State.freeSpares, roles, any]

/-- An ACTIVE tile that has failed was no spare, nor does its failure choose one. -/
theorem State.tileOff_freeSpares (active : (s.tile p).role = .active) (h : p < s.attn.tiles.length) (cause : TileFault) (i : Bool)
    (ws : List Work) : ((s.tileOff p cause i).modLogical n (Logical.unbound ws)).freeSpares = s.freeSpares := by
  refine State.freeSpares_congr (fun q => ?_) ?_
  · rw [State.tile_modLogical]
    by_cases e : q = p
    · rw [e, State.tileOff_tile h, active]
      rfl
    · rw [State.tileOff_tile_ne e]
  · rw [← State.tileOff_logicals (s := s) (p := p) cause i]
    exact map_modifyAt (f := Logical.unbound ws) (fun _ => rfl) _ n

/-- The state once an ACTIVE tile with nothing queued has failed and a spare has been chosen for its logical tile. -/
def State.substituted (s : State) (n p k : Nat) (cause : TileFault) (i : Bool) : State :=
  (((s.tileOff p cause i).modLogical n (Logical.unbound [])).modLogical n fun l => { l with substitute := some k }).modTile k
    fun t => { t with wakeDue := some ((s.tileOff p cause i).now + 1600) }

section
variable (cause : TileFault) (i : Bool)

theorem State.substituted_logical (inside : n < s.attn.logicals.length) :
    (s.substituted n p k cause i).logical n = { s.logical n with valid := false, substitute := some k } := by
  have first : n < (s.tileOff p cause i).attn.logicals.length := by rwa [State.tileOff_logicals]
  have second : n < ((s.tileOff p cause i).modLogical n (Logical.unbound [])).attn.logicals.length := by
    rwa [State.modLogical, State.modAttn_attn, modifyAt_length]
  rw [State.substituted, State.logical_modTile, State.logical_modLogical_self second, State.logical_modLogical_self first,
    State.tileOff_logical]
  simp [Logical.unbound]

theorem State.substituted_reqs : (s.substituted n p k cause i).attn.reqs = s.attn.reqs := by
  show ((s.reportTile p cause i).bump Ctr.tileFault).attn.reqs = _
  rw [State.reported_attn]

theorem State.tileOff_drifts : (s.tileOff p cause i).drifts = s.drifts := by
  rw [State.tileOff]
  cases cause <;> simp [State.reportTile]

theorem State.substituted_drifts : (s.substituted n p k cause i).drifts = s.drifts := State.tileOff_drifts cause i

/-- A tile's failure is counted (R226). -/
theorem State.tileOff_counter : (s.tileOff p cause i).counter Ctr.tileFault = min (s.counter Ctr.tileFault + 1) (2 ^ 64 - 1) := by
  show ((s.reportTile p cause i).bump Ctr.tileFault).counter Ctr.tileFault = _
  rw [State.counter_bump_self, State.counter_reportTile (by decide)]

theorem State.substituted_counter :
    (s.substituted n p k cause i).counter Ctr.tileFault = min (s.counter Ctr.tileFault + 1) (2 ^ 64 - 1) := State.tileOff_counter cause i

/-- No logical tile waits for a tile for which none waited and which has not been chosen. -/
theorem State.substituted_unchosen (other : k ≠ p) (unchosen : ∀ l ∈ s.attn.logicals, l.substitute ≠ some p) :
    ((s.substituted n p k cause i).attn.logicals.findIdx? fun l => l.substitute == some p) = none := by
  refine List.findIdx?_eq_none_iff.mpr fun l hl => ?_
  have logicals : (s.substituted n p k cause i).attn.logicals =
      modifyAt (modifyAt s.attn.logicals n (Logical.unbound [])) n fun l => { l with substitute := some k } := by
    rw [← State.tileOff_logicals (s := s) (p := p) cause i]
    rfl
  rw [logicals] at hl
  rcases mem_modifyAt hl with hl | ⟨y, -, rfl⟩
  · rcases mem_modifyAt hl with hl | ⟨y, hy, rfl⟩
    · simpa using unchosen l hl
    · simpa [Logical.unbound] using unchosen y hy
  · simpa using other

/-- An ACTIVE tile with nothing queued fails where a spare is free: the lowest spare is chosen for its logical tile, and nothing else
follows (R226, R227). -/
theorem State.failTile_of_spare {rest : List Nat} (h : p < s.attn.tiles.length) (active : (s.tile p).role = .active)
    (served : (s.tile p).logical = some n) (inside : n < s.attn.logicals.length) (queue : (s.tile p).queue = [])
    (empty : (s.logical n).abandoned = []) (free : s.freeSpares = k :: rest) (unchosen : ∀ l ∈ s.attn.logicals, l.substitute ≠ some p)
    (still : ∀ d ∈ s.drifts, d.state ≠ .ready ∧ d.state ≠ .running) :
    s.failTile p cause i = (s.substituted n p k cause i).checkSpares s.spares := by
  have chosen : ((s.tileOff p cause i).modLogical n (Logical.unbound [])).chooseSubstitute n = s.substituted n p k cause i :=
    State.chooseSubstitute_of_spare ((State.tileOff_freeSpares active h cause i []).trans free)
  have judged : (s.substituted n p k cause i).foreseeSubstitute n = s.substituted n p k cause i :=
    State.foreseeSubstitute_of_none (by rw [State.substituted_logical cause i inside]; exact empty)
      (by rw [State.substituted_drifts]; exact still)
  have rebound : (s.tileOff p cause i).rebind (s.tile p) = s.substituted n p k cause i := by
    unfold State.rebind
    simp only [served, queue, chosen, judged]
  have other : k ≠ p := by
    rintro rfl
    have spare := (List.mem_filter.mp (free ▸ List.mem_cons_self : k ∈ s.freeSpares)).2
    rw [active] at spare
    exact absurd spare (by simp)
  rw [State.failTile_eq (.inl active), rebound, State.renewSubstitute, State.substituted_unchosen cause i other unchosen]

end

end Sys2Proof.Machine
end

section
/-! SUPPORT. ROW_GROUP_ACCEPT and TILE_DESCRIPTOR (R183, R219, R224, R225, R245, R346): what is taken, what a descriptor adds, and how a
row group ends. -/

namespace Sys2Proof.Machine

variable {s t : State} {p i : Nat} {w : Work} {d : Descriptor} {rest : List Descriptor} {j : Job} {ps : List Position} {r : Req}

/-! ## Row groups are taken (R183, R225) -/

/-- Whether a row group fits beside those that its tile has taken: six query slots, and the accumulator's bytes (R183). -/
abbrev State.groupFits (s : State) (p : Nat) (w : Work) : Prop :=
  ((((s.tile p).queue.filter (·.accepted)).map s.groupSize).map (·.1)).sum + (s.groupSize w).1 ≤ 6 ∧
  ((((s.tile p).queue.filter (·.accepted)).map s.groupSize).map (·.2)).sum + (s.groupSize w).2 ≤ 1179648

/-- The state once a tile has taken a row group of its queue. -/
def State.acceptGroup (s : State) (p i : Nat) : State :=
  s.modTile p fun t => { t with queue := modifyAt t.queue i fun w => { w with accepted := true } }

/-- The first row group that waits is taken where it fits. -/
theorem exec_rowGroupAccept_of_waiting (run : (s.tile p).power = .run) (pll : s.pllOn 0 = true)
    (first : firstWork (s.tile p).queue (fun w => !w.accepted) = some i) (entry : (s.tile p).queue[i]? = some w) :
    exec (.rowGroupAccept p) s = .next (if s.groupFits p w then s.acceptGroup p i else s) := by
  have on : ((s.tile p).power != .run || !s.pllOn 0) = false := by rw [run, pll]; rfl
  rw [exec_rowGroupAccept, execRowGroupAccept]
  simp only [on, first, entry, Option.map_some, Option.getD_some, Bool.and_eq_true, decide_eq_true_eq, Bool.false_eq_true, if_false]
  split <;> rfl

/-- The row group taken is marked so, and every other keeps its place. -/
theorem State.acceptGroup_queue (h : p < s.attn.tiles.length) (k : Nat) : ((s.acceptGroup p i).tile p).queue[k]? =
    if k = i then (s.tile p).queue[k]?.map fun w => { w with accepted := true } else (s.tile p).queue[k]? := by
  rw [State.acceptGroup, State.tile_modTile_self h, modifyAt_eq_modify, List.getElem?_modify]
  by_cases e : i = k
  · simp [e]
  · simp [e, Ne.symm e]

/-! ## One descriptor (R219) -/

/-- With no fault armed a tile works the next descriptor of its row group in work. -/
theorem exec_tileDescriptor_of_quiet (quiet : s.Quiet) (run : (s.tile p).power = .run) (pll : s.pllOn 0 = true)
    (next : ((s.tile p).queue.findIdx? fun w => w.accepted && w.done > 0).or
      (firstWork (s.tile p).queue fun w => w.accepted && !w.left.isEmpty) = some i)
    (entry : (s.tile p).queue[i]? = some w) (left : w.left = d :: rest) (job : s.job w = some j) :
    exec (.tileDescriptor p) s = .next (s.workDescriptor p i w d j) := by
  rw [exec_tileDescriptor, execTileDescriptor]
  simp [run, pll, next, entry, quiet.injected, left, job]

/-- The state once a descriptor's NaN scores and saturated values are counted, and its time and highest score noted. -/
def State.noteWork (s : State) (p : Nat) (w : Work) (d : Descriptor) (out : TileOut) : State :=
  (((s.bumpBy Ctr.nanScore out.nans).bumpBy Ctr.valueSat out.sats).samplePage d.layout (max d.issued (s.tile p).idleSince)).noteHigh w out.high

/-- What a descriptor adds to its row group. -/
def Work.add (w : Work) (out : TileOut) : Work :=
  { w with sums := addRows w.sums out.sums, maxima := addMaxima w.maxima out.maxima, done := w.done + 1 }

/-- A row group goes on at its tile. -/
def State.keepWork (s : State) (p i : Nat) (w : Work) : State := s.modTile p fun t => { t with queue := setAt t.queue i w }

/-- The last descriptor of a row group is the one that leaves none. -/
theorem Work.add_done (left : w.left = d :: rest) (out : TileOut) : (w.add out).done ≥ (w.add out).descs.length ↔ rest = [] := by
  have len := congrArg List.length left
  rw [Work.left, List.length_drop, List.length_cons] at len
  rw [← List.length_eq_zero_iff]
  show w.done + 1 ≥ w.descs.length ↔ _
  omega

section
variable {s₁ : State} (read : (s.noteLate d).readDescriptor j.env.layout d (!j.scoreOnly) = (some ps, s₁))
include read

/-- A descriptor whose page can be read ends in a breach, in the row group's partial, or in the row group's next descriptor. -/
theorem State.workDescriptor_eq : s.workDescriptor p i w d j =
    let v := s₁.noteWork p w d (j.work w.group ps)
    let y := w.add (j.work w.group ps)
    if (j.work w.group ps).breach then v.breachAt w (v.highOf w (j.work w.group ps).high)
    else if y.done ≥ y.descs.length then v.emitWork p i y
    else v.keepWork p i y := by
  rw [State.workDescriptor, read]
  rfl

theorem State.workDescriptor_of_breach (breach : (j.work w.group ps).breach = true) : s.workDescriptor p i w d j =
    (s₁.noteWork p w d (j.work w.group ps)).breachAt w
      ((s₁.noteWork p w d (j.work w.group ps)).highOf w (j.work w.group ps).high) :=
  (State.workDescriptor_eq read).trans (if_pos breach)

theorem State.workDescriptor_of_last (safe : (j.work w.group ps).breach = false) (left : w.left = [d]) : s.workDescriptor p i w d j =
    (s₁.noteWork p w d (j.work w.group ps)).emitWork p i (w.add (j.work w.group ps)) :=
  (State.workDescriptor_eq read).trans ((if_neg (by simp [safe])).trans (if_pos ((Work.add_done left _).mpr rfl)))

theorem State.workDescriptor_of_more (safe : (j.work w.group ps).breach = false) (left : w.left = d :: rest) (more : rest ≠ []) :
    s.workDescriptor p i w d j = (s₁.noteWork p w d (j.work w.group ps)).keepWork p i (w.add (j.work w.group ps)) :=
  (State.workDescriptor_eq read).trans ((if_neg (by simp [safe])).trans (if_neg fun h => more ((Work.add_done left _).mp h)))

end

/-! ## What is noted of a descriptor -/

section
variable (s : State) (p : Nat) (w : Work) (d : Descriptor) (out : TileOut)

theorem State.noteHigh_tiles (high : Option (W32 × Nat)) : (s.noteHigh w high).attn.tiles = s.attn.tiles := by
  unfold State.noteHigh; (repeat' split) <;> rfl
theorem State.noteHigh_layouts (high : Option (W32 × Nat)) : (s.noteHigh w high).attn.layouts = s.attn.layouts := by
  unfold State.noteHigh; (repeat' split) <;> rfl
theorem State.noteHigh_convs (high : Option (W32 × Nat)) : (s.noteHigh w high).convs = s.convs := by
  unfold State.noteHigh; (repeat' split) <;> rfl
theorem State.noteHigh_counters (high : Option (W32 × Nat)) : (s.noteHigh w high).counters = s.counters := by
  unfold State.noteHigh; (repeat' split) <;> rfl

theorem State.noteWork_tiles : (s.noteWork p w d out).attn.tiles = s.attn.tiles := by
  rw [State.noteWork, State.noteHigh_tiles]
  simp [State.samplePage]

theorem State.noteWork_layouts : (s.noteWork p w d out).attn.layouts = s.attn.layouts := by
  rw [State.noteWork, State.noteHigh_layouts]
  simp [State.samplePage]

theorem State.noteWork_convs : (s.noteWork p w d out).convs = s.convs := by
  rw [State.noteWork, State.noteHigh_convs]
  simp [State.samplePage]

theorem State.noteWork_counter (c : CtrId) :
    (s.noteWork p w d out).counter c = ((s.bumpBy Ctr.nanScore out.nans).bumpBy Ctr.valueSat out.sats).counter c := by
  refine State.counter_of_counters ?_ c
  rw [State.noteWork, State.noteHigh_counters, State.samplePage, State.modAttn_counters]

end

/-- A request's context changes in its highest score alone. -/
theorem State.noteHigh_req (request : w.drift = false) (context : s.req w.ctx = some r) (high : Option (W32 × Nat)) :
    ∃ x, (s.noteHigh w high).req w.ctx = some { r with high := x } := by
  unfold State.noteHigh
  split
  · exact ⟨r.high, context⟩
  · next x =>
    refine ⟨higher r.high x, ?_⟩
    rw [if_neg (by simp [request])]
    exact (Table.get_modify_self ..).trans (congrArg _ context)

theorem State.noteWork_req (request : w.drift = false) (context : s.req w.ctx = some r) (out : TileOut) :
    ∃ x, (s.noteWork p w d out).req w.ctx = some { r with high := x } := by
  refine State.noteHigh_req request ?_ out.high
  rw [State.req, State.samplePage, State.modAttn_attn, State.bumpBy_attn, State.bumpBy_attn]
  exact context

/-- The job of a request's work does not depend on its highest score. -/
theorem State.job_of_high {x : Option (W32 × Nat)} (request : w.drift = false) (old : s.req w.ctx = some r)
    (new : t.req w.ctx = some { r with high := x }) (layouts : t.attn.layouts = s.attn.layouts) : t.job w = s.job w := by
  simp only [State.job, request, old, new, State.layout, layouts]
  rfl

/-! ## The partial of a row group (R224) -/

/-- The frames that the descriptors of a row group named are settled. -/
def State.settleAll (s : State) (ds : List Descriptor) : State := ds.foldl (fun s d => s.settleFrame d.tier d.frame) s

@[simp] theorem State.settleAll_attn (ds : List Descriptor) : (s.settleAll ds).attn = s.attn :=
  foldl_keeps (·.attn) ds _ (by intros; simp) s

/-- At the partial of a request's row group the group leaves its tile, and its sums are added to the request's rows. -/
theorem State.emitWork_spec (request : w.drift = false) (context : s.req w.ctx = some r) (job : s.job w = some j)
    (sum : j.scoreOnly = false) (some_sums : w.sums ≠ []) : ∃ q : Req, (s.emitWork p i w).req w.ctx = some q ∧
      q.outstanding = r.outstanding - 1 ∧ q.partials = mergeAt Partial.add r.partials (w.group.head * j.perHead + w.group.lo) w.sums ∧
      (s.emitWork p i w).attn.tiles = (s.takeOff p i).attn.tiles := by
  have held : ((s.takeOff p i).settleAll w.descs).req w.ctx = some r := (State.req_of_attn (State.settleAll_attn _) _).trans context
  have settled : ((s.takeOff p i).settleAll w.descs).job w = some j := by
    refine (State.job_of_high (x := r.high) request context held ?_).trans job
    rw [State.settleAll_attn]
    rfl
  have staged : ¬ (s.job w).any (·.scoreOnly) = true := by rw [job, Option.any_some, sum]; decide
  have filled : w.sums.isEmpty = false := by simpa using some_sums
  unfold State.settleAll at settled held
  unfold State.emitWork
  simp only [if_neg staged, settled, request, filled, Bool.false_eq_true, if_false]
  refine ⟨_, (Table.get_modify_self ..).trans (congrArg _ held), rfl, rfl, ?_⟩
  show (State.settleAll (s.takeOff p i) w.descs).attn.tiles = _
  rw [State.settleAll_attn]

theorem State.takeOff_queue (h : p < s.attn.tiles.length) :
    ((s.takeOff p i).tile p).queue = (s.tile p).queue.take i ++ (s.tile p).queue.drop (i + 1) := by
  rw [State.takeOff, State.tile_modTile_self h]

/-- A weight of 2^8 or more is counted and ends the request with ANCHOR_BREACH (R245). -/
theorem State.breachAt_request (request : w.drift = false) (high : Option (W32 × Nat)) : ∃ b : Ans,
    s.breachAt w high = (s.bump Ctr.anchorBreach).endReq w.ctx b ∧ b.status = Status.anchorBreach ∧ b.reason = Reason.breachWeight := by
  unfold State.breachAt
  rw [if_neg (by simp [request])]
  exact ⟨_, rfl, rfl, rfl⟩

end Sys2Proof.Machine
end

section
/-! SUPPORT. The power states of tiles, and the tests and binding of spares (R185, R186, R227, R228, R231, R232). -/

namespace Sys2Proof.Machine

variable {s : State} {n p : Nat}

/-! ## Power (R185, R186) -/

/-- An ACTIVE tile with nothing queued has been idle since its last work. -/
theorem Tile.idleFor_of_empty {t : Tile} {now ns : Nat} (active : t.role = .active) (queue : t.queue = []) (due : t.idleSince + ns ≤ now) :
    t.idleFor now ns = true := by
  simp [Tile.idleFor, active, queue, due]

theorem exec_tileClockStop_of_idle (run : (s.tile p).power = .run) (idle : (s.tile p).idleFor s.now s.regs.stopAfterNs = true) :
    exec (.tileClockStop p) s = .next (s.modTile p fun t => { t with power := .clockStop }) := by
  rw [exec_tileClockStop, execTileClockStop]
  simp only [run, idle]
  rfl

theorem exec_tileGate_of_idle (on : (s.tile p).power = .run ∨ (s.tile p).power = .clockStop) (set : s.regs.gateAfterUs ≠ 0)
    (idle : (s.tile p).idleFor s.now (1000 * s.regs.gateAfterUs) = true) :
    exec (.tileGate p) s = .next (s.modTile p fun t => { t with power := .gated }) := by
  rw [exec_tileGate, execTileGate]
  have due : (((s.tile p).power == .run || (s.tile p).power == .clockStop) && s.regs.gateAfterUs != 0 &&
      (s.tile p).idleFor s.now (1000 * s.regs.gateAfterUs)) = true := by
    rcases on with on | on <;> simp [on, set, idle]
  simp only [due, if_true]

/-- With GATE_AFTER 0 no tile is gated. -/
theorem exec_tileGate_of_never (never : s.regs.gateAfterUs = 0) : exec (.tileGate p) s = .next s := by
  rw [exec_tileGate, execTileGate]
  simp [never]

theorem exec_tileWake_of_due {k : Nat} (active : (s.tile p).role = .active) (wake : (s.tile p).wakeDue = some k) (due : k ≤ s.now) :
    exec (.tileWake p) s = .next (s.modTile p fun t => { t with power := .run, wakeDue := none }) := by
  rw [exec_tileWake, execTileWake, wake]
  simp [active, due]

/-- A tile that is not ACTIVE is not woken here. -/
theorem exec_tileWake_of_unbound (role : (s.tile p).role ≠ .active) : exec (.tileWake p) s = .next s := by
  rw [exec_tileWake, execTileWake]
  split
  · rfl
  · simp [role]

theorem exec_tileWake_of_early {k : Nat} (wake : (s.tile p).wakeDue = some k) (early : s.now < k) : exec (.tileWake p) s = .next s := by
  rw [exec_tileWake, execTileWake, wake]
  simp [Nat.not_le.mpr early]

/-! ## Spares (R227, R228, R231, R232) -/

theorem exec_spareTest_passed (spare : (s.tile p).role = .spare) (due : (s.tile p).lastTest + 10000000000 ≤ s.now) :
    exec (.spareTest p true) s = .next (s.modTile p fun t => { t with lastTest := s.now }) := by
  rw [exec_spareTest, execSpareTest]
  simp [spare, Nat.not_lt.mpr due]

/-- A spare as it is bound to a logical tile. -/
def Tile.bound (n now : Nat) (ws : List Work) (t : Tile) : Tile :=
  { t with role := .active, power := .run, logical := some n, idleSince := now, wakeDue := none, queue := ws, lastTest := now }

/-- The state once a spare is bound to its logical tile. -/
def State.bindSpare (s : State) (n p : Nat) : State :=
  (s.modLogical n fun l => { l with phys := p, valid := true, substitute := none, abandoned := [] }).modTile p
    (Tile.bound n s.now (s.logical n).abandoned)

theorem exec_spareBind_of_early (chosen : (s.logical n).substitute = some p) (early : s.now < (s.tile p).wakeDue.getD 0) :
    exec (.spareBind n true) s = .next s := by
  rw [exec_spareBind, execSpareBind, chosen]
  simp [early]

theorem exec_spareBind_passed (chosen : (s.logical n).substitute = some p) (awake : (s.tile p).wakeDue.getD 0 ≤ s.now) :
    exec (.spareBind n true) s = .next (((s.bindSpare n p).bump Ctr.tileSubst).checkSpares s.spares) := by
  rw [exec_spareBind, execSpareBind, chosen]
  simp only [if_neg (Nat.not_lt.mpr awake), if_true]
  rfl

theorem State.bindSpare_tile (h : p < s.attn.tiles.length) :
    (s.bindSpare n p).tile p = (s.tile p).bound n s.now (s.logical n).abandoned :=
  State.tile_modTile_self h _

theorem State.bindSpare_logical (h : n < s.attn.logicals.length) : (s.bindSpare n p).logical n =
    { s.logical n with phys := p, valid := true, substitute := none, abandoned := [] } :=
  State.logical_modLogical_self h _

/-- The report of too few spares is an event (R231). -/
theorem State.checkSpares_frame (k : Nat) : SameBut [.counters, .events, .pins] s (s.checkSpares k) := by
  unfold State.checkSpares
  refine SameBut.of fun part => ?_
  split <;> cases part <;> simp [Part.Same]

/-- A binding changes the tiles, a counter and what the report of too few spares does. -/
theorem State.bindSpare_frame (k : Nat) :
    SameBut [.attn, .counters, .blocks, .events, .pins] s (((s.bindSpare n p).bump Ctr.tileSubst).checkSpares k) := by
  have bound : SameBut [.attn, .counters] s ((s.bindSpare n p).bump Ctr.tileSubst) :=
    SameBut.of fun part => by cases part <;> simp [Part.Same, State.bindSpare]
  exact (bound.mono (by decide)).trans ((State.checkSpares_frame k).mono (by decide))

end Sys2Proof.Machine
end

section
/-! SUPPORT. The work of the tiles: each clause of the statement from the lemmas above (R183 to R186, R219 to R228, R245, R346). -/

namespace Sys2Proof.Machine

variable {s : State} {n p i : Nat} {w : Work}

/-- A tile's row group that is taken, and what stays as it is (R183, R225). -/
theorem State.acceptGroup_spec (h : p < s.attn.tiles.length) (entry : (s.tile p).queue[i]? = some w) :
    SameBut [.attn] s (s.acceptGroup p i) ∧ (∀ k, k ≠ p → (s.acceptGroup p i).tile k = s.tile k) ∧
    ((s.acceptGroup p i).tile p).queue[i]? = some { w with accepted := true } ∧
    ∀ k, k ≠ i → ((s.acceptGroup p i).tile p).queue[k]? = (s.tile p).queue[k]? := by
  refine ⟨State.modTile_frame _, fun k other => State.tile_modTile_ne other _, ?_, fun k other => ?_⟩
  · rw [State.acceptGroup_queue h, if_pos rfl, entry, Option.map_some]
  · rw [State.acceptGroup_queue h, if_neg other]

section
variable {s₁ : State} {d : Descriptor} {rest : List Descriptor} {j : Job} {ps : List Position}
  (h : p < s.attn.tiles.length) (entry : (s.tile p).queue[i]? = some w) (left : w.left = d :: rest) (job : s.job w = some j)
  (read : (s.noteLate d).readDescriptor j.env.layout d (!j.scoreOnly) = (some ps, s₁))

/-! ## A descriptor (R219, R224, R245) -/

include read

/-- The read of a descriptor's page leaves the tiles and requests, the conversations, and the counters beyond its own. -/
theorem State.readDescriptor_kept : s₁.attn = s.attn ∧ s₁.convs = s.convs ∧
    ∀ c : CtrId, c.beyondReads → c.key ≠ Ctr.stallWarmLate.key → s₁.counter c = s.counter c := by
  have after : s₁ = ((s.noteLate d).readDescriptor j.env.layout d (!j.scoreOnly)).2 := by rw [read]
  refine ⟨by simp [after], by simp [after], fun c beyond late => ?_⟩
  rw [after, State.counter_readDescriptor beyond, State.counter_noteLate late]

include left h entry in
/-- A descriptor with others behind it: the row group has its sums, and the NaN scores are counted. -/
theorem State.workDescriptor_more_spec (safe : (j.work w.group ps).breach = false) (more : rest ≠ [])
    (counter : s.counter Ctr.nanScore < 2 ^ 64) :
    ((s.workDescriptor p i w d j).tile p).queue[i]? = some (w.add (j.work w.group ps)) ∧
    (s.workDescriptor p i w d j).counter Ctr.nanScore = min (s.counter Ctr.nanScore + (j.work w.group ps).nans) (2 ^ 64 - 1) ∧
    (s.workDescriptor p i w d j).convs = s.convs := by
  obtain ⟨attn, convs, counters⟩ := State.readDescriptor_kept read
  have nans : s₁.counter Ctr.nanScore = s.counter Ctr.nanScore := counters _ (by decide) (by decide)
  have tiles : (s₁.noteWork p w d (j.work w.group ps)).attn.tiles = s.attn.tiles := (State.noteWork_tiles ..).trans (by rw [attn])
  have queue : ((s₁.noteWork p w d (j.work w.group ps)).tile p).queue = (s.tile p).queue := congrArg (fun l => (l.getD p {}).queue) tiles
  have inside : i < (s.tile p).queue.length := (List.getElem?_eq_some_iff.mp entry).1
  rw [State.workDescriptor_of_more read safe left more, State.keepWork]
  refine ⟨?_, ?_, ?_⟩
  · rw [State.tile_modTile_self (by rwa [tiles])]
    simp [setAt_eq_set, queue, inside]
  · rw [State.counter_of_counters (State.modTile_counters ..), State.noteWork_counter, State.counter_bumpBy_ne (by decide),
      State.counter_bumpBy_self (by rwa [nans]), nans]
  · rw [State.modTile_convs, State.noteWork_convs, convs]

include h job in
/-- The last descriptor of a request's row group: the request's partials take the sums, and the group leaves its tile (R224). -/
theorem State.workDescriptor_last_spec {r : Req} (left : w.left = [d]) (safe : (j.work w.group ps).breach = false)
    (request : w.drift = false) (sum : j.scoreOnly = false) (context : s.req w.ctx = some r)
    (some_sums : (w.add (j.work w.group ps)).sums ≠ []) :
    ∃ q : Req, (s.workDescriptor p i w d j).req w.ctx = some q ∧ q.outstanding = r.outstanding - 1 ∧
      q.partials = mergeAt Partial.add r.partials (w.group.head * j.perHead + w.group.lo) (w.add (j.work w.group ps)).sums ∧
      ((s.workDescriptor p i w d j).tile p).queue = (s.tile p).queue.take i ++ (s.tile p).queue.drop (i + 1) := by
  obtain ⟨attn, -, -⟩ := State.readDescriptor_kept read
  have tiles : (s₁.noteWork p w d (j.work w.group ps)).attn.tiles = s.attn.tiles := (State.noteWork_tiles ..).trans (by rw [attn])
  have tile : (s₁.noteWork p w d (j.work w.group ps)).tile p = s.tile p := congrArg (·.getD p {}) tiles
  have layouts : (s₁.noteWork p w d (j.work w.group ps)).attn.layouts = s.attn.layouts := (State.noteWork_layouts ..).trans (by rw [attn])
  obtain ⟨x, noted⟩ := State.noteWork_req (p := p) (d := d) request ((State.req_of_attn attn _).trans context) (j.work w.group ps)
  have same : (s₁.noteWork p w d (j.work w.group ps)).job (w.add (j.work w.group ps)) = some j :=
    (State.job_of_high (w := w) request context noted layouts).trans job
  obtain ⟨q, context', outstanding, partials, off⟩ :=
    State.emitWork_spec (p := p) (i := i) (w := w.add (j.work w.group ps)) request noted same sum some_sums
  rw [State.workDescriptor_of_last read safe left]
  refine ⟨q, context', outstanding, partials, ?_⟩
  calc ((State.emitWork _ p i _).tile p).queue
    _ = ((State.takeOff _ p i).tile p).queue := congrArg (fun l => (l.getD p {}).queue) off
    _ = _ := by rw [State.takeOff_queue (by rwa [tiles]), tile]

/-- A weight of 2^8 or more ends the request with ANCHOR_BREACH, and is counted (R245). -/
theorem State.workDescriptor_breach_spec (breach : (j.work w.group ps).breach = true) (request : w.drift = false) :
    ∃ (v : State) (b : Ans), s.workDescriptor p i w d j = v.endReq w.ctx b ∧ b.status = Status.anchorBreach ∧
      b.reason = Reason.breachWeight ∧ v.counter Ctr.anchorBreach = min (s.counter Ctr.anchorBreach + 1) (2 ^ 64 - 1) := by
  obtain ⟨-, -, counters⟩ := State.readDescriptor_kept read
  obtain ⟨b, ended, status, reason⟩ := State.breachAt_request (s := s₁.noteWork p w d (j.work w.group ps)) request
    ((s₁.noteWork p w d (j.work w.group ps)).highOf w (j.work w.group ps).high)
  refine ⟨_, b, (State.workDescriptor_of_breach read breach).trans ended, status, reason, ?_⟩
  rw [State.counter_bump_self, State.noteWork_counter, State.counter_bumpBy_ne (by decide), State.counter_bumpBy_ne (by decide),
    counters _ (by decide) (by decide)]

end

/-- Settles O37, clause by clause; that a failed tile stays so rests on `State.TileDown`, which no operation on the work that it leaves
ends (R226, R228, R230). -/
theorem tileWork : Obligations.TileWork := by
  refine ⟨⟨?accept, ?descriptor, ?power⟩, ?fail, ?bind, ?test⟩
  case accept =>
    intro s p i w h run pll first entry held
    have accept := exec_rowGroupAccept_of_waiting run pll first entry
    refine ⟨fun full => accept.trans (by rw [if_neg full]), fun slots bytes => ⟨s.acceptGroup p i, accept.trans ?_, ?_⟩⟩
    · rw [if_pos ⟨slots, bytes⟩]
    · exact State.acceptGroup_spec h entry
  case descriptor =>
    intro s s₁ p i w d rest j ps quiet h run pll next entry left job read out y
    have worked := exec_tileDescriptor_of_quiet quiet run pll next entry left job
    refine ⟨fun safe more counter => ?_, fun r safe last request sum context some_sums => ?_, fun breach request => ?_⟩
    · exact ⟨_, worked, State.workDescriptor_more_spec h entry left read safe more counter⟩
    · obtain ⟨q, emitted⟩ := State.workDescriptor_last_spec h job read (last ▸ left) safe request sum context some_sums
      exact ⟨_, q, worked, emitted⟩
    · obtain ⟨v, b, ended, breached⟩ := State.workDescriptor_breach_spec read breach request
      exact ⟨v, b, worked.trans (congrArg _ ended), breached⟩
  case power =>
    intro s p h
    have changed : ∀ f : Tile → Tile, (s.modTile p f).tile p = f (s.tile p) ∧ SameBut [.attn] s (s.modTile p f) :=
      fun f => ⟨State.tile_modTile_self h f, State.modTile_frame f⟩
    refine ⟨fun active queue run due => ?_, fun active queue on set due => ?_, exec_tileGate_of_never, fun k active wake due => ?_,
      exec_tileWake_of_unbound, fun k wake early => exec_tileWake_of_early wake early⟩
    · exact ⟨_, exec_tileClockStop_of_idle run (Tile.idleFor_of_empty active queue due), changed _⟩
    · exact ⟨_, exec_tileGate_of_idle on set (Tile.idleFor_of_empty active queue due), changed _⟩
    · exact ⟨_, exec_tileWake_of_due active wake due, changed _⟩
  case fail =>
    intro s p cause h first
    have fails := exec_tileFail_of_first first cause
    refine ⟨fun active spare => ?_, fun able bound => ?_, fun n k rest active served inside queue empty free unchosen still => ?_⟩
    · rw [fails, State.failTile_of_unable active spare]
    · have down := State.failTile_down h able bound cause false
      exact ⟨_, fails, down.role, down.power, down.queue, down.logical⟩
    · refine ⟨_, fails, ?_⟩
      rw [State.failTile_of_spare cause false h active served inside queue empty free unchosen still]
      have logical := (State.logical_of_attn (State.checkSpares_attn (s.substituted n p k cause false) s.spares) n).trans
        (State.substituted_logical cause false inside)
      refine ⟨by rw [logical], by rw [logical], ?_, ?_, ?_⟩
      · rw [State.counter_checkSpares (by decide), State.substituted_counter]
      · rw [State.checkSpares_attn, State.substituted_reqs]
      · exact (State.checkSpares_frame s.spares .drifts (by decide)).trans (State.substituted_drifts cause false)
  case bind =>
    intro s n p inside h chosen
    refine ⟨exec_spareBind_of_early chosen, fun awake => ⟨_, exec_spareBind_passed chosen awake, State.bindSpare_frame _, ?_⟩⟩
    have attn : (((s.bindSpare n p).bump Ctr.tileSubst).checkSpares s.spares).attn = (s.bindSpare n p).attn := by simp
    rw [State.logical_of_attn attn, State.tile_of_attn attn, State.bindSpare_logical inside, State.bindSpare_tile h]
    refine ⟨rfl, rfl, rfl, rfl, rfl, ?_⟩
    rw [State.counter_checkSpares (by decide), State.counter_bump_self]
    rfl
  case test =>
    intro s p h spare due
    exact ⟨_, exec_spareTest_passed spare due, State.tile_modTile_self h _, State.modTile_frame _⟩

end Sys2Proof.Machine
end

section
/-! SUPPORT. A record that lands where the keys of the table of requests do not rise (no operation leaves a rising table so): the entry of
its request is written ahead of those that stood before it, so that another record of the cycle, which was a higher request's, is this
request's then, and goes first (R256, R294). -/

namespace Sys2Proof.Machine

/-- What is malformed is counted and placed nowhere: its request stays as it is (R254). -/
theorem State.req_placeRecord_of_malformed {s : State} {ctx k : Nat} {b : List Byte} {r : Req} (entry : s.req ctx = some r)
    (malformed : ∀ l, r.judge l k b = .malformed) : (s.placeRecord ctx k b).req ctx = some r := by
  unfold State.placeRecord
  rw [entry]
  dsimp only
  split
  · exact entry
  · rw [malformed]
    exact (State.req_of_attn (s := s) rfl ctx).trans entry

namespace DisorderedRequests

/-- A request in its summing pass, with the outlying nodes 1 to n as participants. -/
def request (n : Nat) : Req :=
  { pool := 0
    cmd := { src := .qp 9, subscriber := 5, opcode := 0x0301, requestId := 40, targetId := 6, layer := 0, qpSeq := 0, arrival := 0, deadline := 0 }
    exact := false, cairn := false, cid := 6, layer := 0, layout := 1, snapshot := 2
    graze :=
      { tokens := 1, format := 0, heads := 1, mode := 0, scale := 0x3F800000, anchor := 0, anchorForm := 0, modSlot := 0, rotation := 0
        rotDims := 0, absorb := 0, target := 256, key := 3, resultLen := 65536, cairnK := 0, cairnSink := 0, cairnWeight := 0, qpos := []
        qseg := [], anchors := [0], rotationBlock := [], query := [] }
    modTag := 0, modifier := {}, anchors := [0], pass := .sum
    parts := (List.range (n + 1)).map fun k => { node := k, first := k, last := k + 1 } }

/-- A serving node whose table names request 3 after request 4,099, which has the same landing slots (R288), with the QPs to nodes 1 and 2
in RTS. An empty write of node 1 to the slot of participant 1 waits in the queue of the cycle. -/
def node : State :=
  { State.reset with
    pending := [.landingRecordPlace ⟨1, 0⟩ 49 []]
    node := { state := .serving }
    attn := { State.reset.attn with reqs := [(4099, request 1), (3, request 2)] }
    net := { State.reset.net with qps := [(1, { kind := .node, state := .rts }), (2, { kind := .node, state := .rts })] } }

/-- An empty write is no record. -/
theorem request_judge (l : Layout) : (request 2).judge l 2 [] = .malformed := rfl

/-- An empty write of node 2 to the slot of participant 2 is request 3's, and nothing of the cycle goes ahead of it. -/
theorem node_hasTurn : node.landingOf (node.peerOf 2) 50 [] = some (3, 2) ∧ node.recordAhead 3 (landedNumber 2 []) = false := by
  decide +kernel

/-- The records that wait at request 3 where a command completes. -/
def heldAfter : Host.Outcome State Fault Refusal → Option (List (Nat × Nat × List Byte))
  | .next u => (u.req 3).map Req.held
  | _ => none

/-- It waits all the same, once it has been written into its request. -/
theorem heldAfter_landing : heldAfter (exec (.landingRecordPlace ⟨2, 0⟩ 50 []) node) = some [(2, 2, [])] := by decide +kernel

end DisorderedRequests

/-- Refutes O36: the statement asks for no order of the keys of the requests, and where they do not rise a record that has its turn waits
for another request's, where the statement has it placed (R256). -/
theorem not_attentionPasses : ¬ Obligations.AttentionPasses := by
  intro claim
  obtain ⟨-, -, landings, -⟩ := claim
  obtain ⟨-, placed⟩ := landings DisorderedRequests.node 2 0 50 [] (show ∀ x ∈ DisorderedRequests.node.regs.inj, x.busy = false by decide)
    (by decide) (by decide) (by decide) (by decide)
  obtain ⟨holder, turn⟩ := DisorderedRequests.node_hasTurn
  obtain ⟨v, ran, entry, -⟩ := placed 3 2 (DisorderedRequests.request 2) holder rfl rfl turn
  have waits := DisorderedRequests.heldAfter_landing
  rw [ran, DisorderedRequests.heldAfter, State.req_placeRecord_of_malformed entry DisorderedRequests.request_judge] at waits
  cases waits

end Sys2Proof.Machine
end
